-- ==== Sys2Proof/Word.lean ====
section
/-!
DEFINITION. The word types of the GRN-H96 (spec 00 R5, R8) and their plainest helpers.
-/

namespace Sys2Proof

/-- A byte. -/
abbrev Byte := BitVec 8

/-- A 32-bit word: an instruction word, a lane register (R16). -/
abbrev Word := BitVec 32

/-- A 64-bit word: a uniform register, a pointer, a T64 value (R16, R77). -/
abbrev DWord := BitVec 64

/-- A 128-bit value: a quad operand (R40). -/
abbrev QWord := BitVec 128

/-- A 7-bit lane operand code (R39). -/
abbrev Code := BitVec 7

/-- `x[hi:lo]` of R8, as an unsigned integer of its own width. -/
def bits {n : Nat} (x : BitVec n) (hi lo : Nat) : BitVec (hi - lo + 1) :=
  x.extractLsb' lo (hi - lo + 1)

/-- Bit `i` of a bit pattern as a truth value. -/
def bit {n : Nat} (x : BitVec n) (i : Nat) : Bool := x.getLsbD i

/-- `x[hi:lo]` of R8, as a natural number. -/
def fieldNat {n : Nat} (x : BitVec n) (hi lo : Nat) : Nat := (bits x hi lo).toNat

/-- A truth value as a number. -/
def b2n (b : Bool) : Nat := if b then 1 else 0

end Sys2Proof
end

