-- ==== Sys2Proof/Syntax.lean ====
section
/-!
DEFINITION. The syntax: one constructor of `Instr` for each row of the opcode table, and the types of
their operands. The rows are the words of the lane, uniform, sequencer and Curd sets (spec 02 R55 to
R60, 17 R419) and the events of the device (spec 95).
-/

namespace Sys2Proof

/-- The b operand of an LR or LP word: an operand code other than 127, or the literal word (R41). -/
inductive BSrc where
  | code (c : Code)
  | lit (w : Word)
  deriving DecidableEq, Repr

/-- A uniform register number, g0 to g255 (R44). -/
abbrev UReg := BitVec 8

/-- The source of a UR word: a g register, a latch (mod[4]), or the literal of variant 7 (R45). -/
inductive USrc where
  | reg (n : UReg)
  | latch (n : BitVec 3)
  | lit (w : Word)
  deriving DecidableEq, Repr

/-- The element type of a float instruction (R126). -/
inductive FTy where
  | f32 | f16x2 | bf16x2
  deriving DecidableEq, Repr

/-- A PCIe host port (R413). -/
inductive Port where
  | a | b
  deriving DecidableEq, Repr

/-- What a port writes to a register of BAR0 (16 R417): the port, the value. -/
structure ByPort (α : Type) where
  port : Port
  val : α
  deriving DecidableEq, Repr

/-- A thread of the device: its crew's identifier and its thread index (R10). -/
structure TRef where
  cid : Nat
  tid : Nat
  deriving DecidableEq, Repr

/-- The lane port that a run occupies: column, partition, port (R342). -/
structure RunKey where
  col : Nat
  part : Nat
  port : Nat
  deriving DecidableEq, Repr

/-- One sample-row segment of an ST 2110-20 packet: its line, its offset in pixels, its bytes (R382, R383). -/
structure RowSeg where
  row : Nat
  offset : Nat
  data : List Byte
  deriving DecidableEq, Repr

/-- A received stream packet as the packet engine sees it (R382, R388). -/
structure Packet where
  dst : BitVec 128
  src : BitVec 128
  port : BitVec 16
  sumOk : Bool
  seq : Word
  rtp : Word
  rows : List RowSeg
  payload : List Byte
  deriving DecidableEq, Repr

/-- An access that a peer card makes (R402): a read of some bytes, a write, an atomic, or a reduction, which has no
answer (R187). The atomics' numbers 16 and 17 are the two cas forms (R185). -/
inductive PeerAcc where
  | read (size : Nat)
  | write (data : List Byte)
  | atomic (k : BitVec 5) (x y : DWord)
  | reduce (k : BitVec 4) (x : DWord)
  deriving DecidableEq, Repr

/-- The streams of instructions, and the events. -/
inductive InstrClass where
  | lane | uniform | matrix | curd | event
  deriving DecidableEq, Repr

/-- The rows of the opcode table. -/
inductive Instr where
  /-- ADD (R101): Lane add: d = (a + b) mod 2^32. -/
  | add (d a : Code) (b : BSrc)
  /-- ADD_IMM (R101): Lane add with b replaced by sext(imm7). -/
  | addImm (d a : Code) (i : BitVec 7)
  /-- SUB (R101): Lane subtract: d = (a - b) mod 2^32. -/
  | sub (d a : Code) (b : BSrc)
  /-- SUB_IMM (R101): Lane subtract with an imm7 operand. -/
  | subImm (d a : Code) (i : BitVec 7)
  /-- MAD (R101): Lane multiply-add: d = (d + a x b) mod 2^32. -/
  | mad (d a : Code) (b : BSrc)
  /-- MAD_IMM (R101): Lane multiply-add with an imm7 operand. -/
  | madImm (d a : Code) (i : BitVec 7)
  /-- MUL_LO (R101): Low 32 bits of a x b. -/
  | mulLo (d a : Code) (b : BSrc)
  /-- MUL_LO_IMM (R101): Low 32 bits of a x imm7. -/
  | mulLoImm (d a : Code) (i : BitVec 7)
  /-- MUL_HI_I32 (R101): High 32 bits of the signed product. -/
  | mulHiI32 (d a : Code) (b : BSrc)
  /-- MUL_HI_I32_IMM (R101): High 32 bits of the signed product with imm7. -/
  | mulHiI32Imm (d a : Code) (i : BitVec 7)
  /-- MUL_HI_N32 (R101): High 32 bits of the unsigned product. -/
  | mulHiN32 (d a : Code) (b : BSrc)
  /-- MUL_HI_N32_IMM (R101): High 32 bits of the unsigned product with imm7. -/
  | mulHiN32Imm (d a : Code) (i : BitVec 7)
  /-- ADD_64 (R106): Pair add modulo 2^64. -/
  | add64 (d a : Code) (b : BSrc)
  /-- ADD_64_IMM (R106): Pair add of sext(imm7) modulo 2^64. -/
  | add64Imm (d a : Code) (i : BitVec 7)
  /-- SUB_64 (R106): Pair subtract modulo 2^64. -/
  | sub64 (d a : Code) (b : BSrc)
  /-- SUB_64_IMM (R106): Pair subtract of sext(imm7) modulo 2^64. -/
  | sub64Imm (d a : Code) (i : BitVec 7)
  /-- SHL (R102): Shift left by b[5:0], zero when 32 or more. -/
  | shl (d a : Code) (b : BSrc)
  /-- SHL_IMM (R102): Shift left by an imm7 amount. -/
  | shlImm (d a : Code) (i : BitVec 7)
  /-- SHR_N (R102): Logical shift right. -/
  | shrN (d a : Code) (b : BSrc)
  /-- SHR_N_IMM (R102): Logical shift right by an imm7 amount. -/
  | shrNImm (d a : Code) (i : BitVec 7)
  /-- SHR_I (R102): Arithmetic shift right. -/
  | shrI (d a : Code) (b : BSrc)
  /-- SHR_I_IMM (R102): Arithmetic shift right by an imm7 amount. -/
  | shrIImm (d a : Code) (i : BitVec 7)
  /-- ROT (R102): Rotate left by b[4:0]. -/
  | rot (d a : Code) (b : BSrc)
  /-- ROT_IMM (R102): Rotate left by an imm7 amount. -/
  | rotImm (d a : Code) (i : BitVec 7)
  /-- AND (R101): Bitwise AND. -/
  | and (d a : Code) (b : BSrc)
  /-- AND_IMM (R101): Bitwise AND with imm7. -/
  | andImm (d a : Code) (i : BitVec 7)
  /-- OR (R101): Bitwise OR. -/
  | or (d a : Code) (b : BSrc)
  /-- OR_IMM (R101): Bitwise OR with imm7. -/
  | orImm (d a : Code) (i : BitVec 7)
  /-- XOR (R101): Bitwise XOR. -/
  | xor (d a : Code) (b : BSrc)
  /-- XOR_IMM (R101): Bitwise XOR with imm7. -/
  | xorImm (d a : Code) (i : BitVec 7)
  /-- ANDN (R101): a AND NOT b. -/
  | andn (d a : Code) (b : BSrc)
  /-- ANDN_IMM (R101): a AND NOT imm7. -/
  | andnImm (d a : Code) (i : BitVec 7)
  /-- MIN_I32 (R101): Signed minimum. -/
  | minI32 (d a : Code) (b : BSrc)
  /-- MIN_I32_IMM (R101): Signed minimum with imm7. -/
  | minI32Imm (d a : Code) (i : BitVec 7)
  /-- MAX_I32 (R101): Signed maximum. -/
  | maxI32 (d a : Code) (b : BSrc)
  /-- MAX_I32_IMM (R101): Signed maximum with imm7. -/
  | maxI32Imm (d a : Code) (i : BitVec 7)
  /-- MIN_N32 (R101): Unsigned minimum. -/
  | minN32 (d a : Code) (b : BSrc)
  /-- MIN_N32_IMM (R101): Unsigned minimum with imm7. -/
  | minN32Imm (d a : Code) (i : BitVec 7)
  /-- MAX_N32 (R101): Unsigned maximum. -/
  | maxN32 (d a : Code) (b : BSrc)
  /-- MAX_N32_IMM (R101): Unsigned maximum with imm7. -/
  | maxN32Imm (d a : Code) (i : BitVec 7)
  /-- ABS_I32 (R103): Two's-complement absolute value. -/
  | absI32 (d a : Code)
  /-- NEG_I32 (R103): Two's-complement negation. -/
  | negI32 (d a : Code)
  /-- CLZ (R103): Count leading zeros. -/
  | clz (d a : Code)
  /-- POPC (R103): Count set bits. -/
  | popc (d a : Code)
  /-- BREV (R103): Reverse the 32 bits of a. -/
  | brev (d a : Code)
  /-- BFE_N32 (R104): Unsigned bit-field extract. -/
  | bfeN32 (d a : Code) (b : BSrc)
  /-- BFE_I32 (R104): Signed bit-field extract. -/
  | bfeI32 (d a : Code) (b : BSrc)
  /-- BFI (R104): Bit-field insert of a into d. -/
  | bfi (d a : Code) (b : BSrc)
  /-- SEXT (R105): Sign-extend a field of width b[5:0]. -/
  | sext (d a : Code) (b : BSrc)
  /-- SEXT_IMM (R105): Sign-extend a field of width given by imm7. -/
  | sextImm (d a : Code) (i : BitVec 7)
  /-- ZEXT (R105): Zero-extend a field of width b[5:0]. -/
  | zext (d a : Code) (b : BSrc)
  /-- ZEXT_IMM (R105): Zero-extend a field of width given by imm7. -/
  | zextImm (d a : Code) (i : BitVec 7)
  /-- LEA (R106): Pair address plus zext(b) shifted by N. -/
  | lea (n : BitVec 2) (d a : Code) (b : BSrc)
  /-- LEA_I (R106): Pair address plus sext(b) shifted by N. -/
  | leaI (n : BitVec 2) (d a : Code) (b : BSrc)
  /-- DP4_I8 (R107): Signed four-way byte dot product accumulated into d. -/
  | dp4I8 (d a : Code) (b : BSrc)
  /-- DP4_N8 (R107): Unsigned four-way byte dot product accumulated into d. -/
  | dp4N8 (d a : Code) (b : BSrc)
  /-- DP4_I8N8 (R107): Mixed-sign four-way byte dot product accumulated into d. -/
  | dp4I8n8 (d a : Code) (b : BSrc)
  /-- MOV (R103): Copy a to d. -/
  | mov (d a : Code)
  /-- MOVL (R108): Write the following literal word to d. -/
  | movl (d : Code) (lit : Word)
  /-- MOVI (R108): Write sext(imm7) to d. -/
  | movi (d : Code) (i : BitVec 7)
  /-- SEL (R108): d = pN ? a : b. -/
  | sel (n : BitVec 3) (d a : Code) (b : BSrc)
  /-- CMP_INTEGER (R109): Integer compare of a and b under cc into predicate p. -/
  | cmpInteger (t : BitVec 2) (p : BitVec 3) (cc : BitVec 4) (a : Code) (b : BSrc)
  /-- PLUT (R110): Set p from a 4-bit lookup table over two predicates. -/
  | plut (p : BitVec 3) (t : BitVec 4) (x y : BitVec 3)
  /-- BRA (R112): Relative branch on a predicate; ends the run. -/
  | bra (p : BitVec 3) (sense : Bool) (o : BitVec 17)
  /-- CALL (R113): Relative call on a predicate, writing lr. -/
  | call (p : BitVec 3) (sense : Bool) (o : BitVec 17)
  /-- JMP (R114): Jump to the address in pair a. -/
  | jmp (a : Code)
  /-- CALL_REGISTER (R113): Call to the address in pair a, writing lr. -/
  | callRegister (a : Code)
  /-- REORDER (R118): Record a as the thread's reorder key. -/
  | reorder (a : Code)
  /-- FLOAT_ADD (R126): Floating-point add with one rounding. -/
  | floatAdd (t : FTy) (r : BitVec 3) (d a : Code) (b : BSrc)
  /-- FLOAT_SUB (R126): Floating-point subtract with one rounding. -/
  | floatSub (t : FTy) (r : BitVec 3) (d a : Code) (b : BSrc)
  /-- FLOAT_MUL (R126): Floating-point multiply with one rounding. -/
  | floatMul (t : FTy) (r : BitVec 3) (d a : Code) (b : BSrc)
  /-- FMA (R126): Fused multiply-add d = d + a x b with one rounding. -/
  | fma (t : FTy) (r : BitVec 3) (d a : Code) (b : BSrc)
  /-- FLOAT_MIN (R127): IEEE minimum. -/
  | floatMin (t : FTy) (d a : Code) (b : BSrc)
  /-- FLOAT_MAX (R127): IEEE maximum. -/
  | floatMax (t : FTy) (d a : Code) (b : BSrc)
  /-- MINNUM (R127): minimumNumber. -/
  | minnum (t : FTy) (d a : Code) (b : BSrc)
  /-- MAXNUM (R127): maximumNumber. -/
  | maxnum (t : FTy) (d a : Code) (b : BSrc)
  /-- ABS_F32 (R128): Clear bit 31. -/
  | absF32 (d a : Code)
  /-- NEG_F32 (R128): Invert bit 31. -/
  | negF32 (d a : Code)
  /-- ABS_PACKED (R128): Clear bits 15 and 31. -/
  | absPacked (d a : Code)
  /-- NEG_PACKED (R128): Invert bits 15 and 31. -/
  | negPacked (d a : Code)
  /-- CMP_F32 (R129): FP32 compare under cc into predicate p. -/
  | cmpF32 (p : BitVec 3) (cc : BitVec 4) (a : Code) (b : BSrc)
  /-- DOT2_BF16X2 (R130): d + a0 b0 + a1 b1 from BF16 pairs, rounded once to FP32. -/
  | dot2Bf16x2 (d a : Code) (b : BSrc)
  /-- DOT2_F16X2 (R130): d + a0 b0 + a1 b1 from FP16 pairs, rounded once to FP32. -/
  | dot2F16x2 (d a : Code) (b : BSrc)
  /-- CSC_M3 (R140): One output channel of a 3x3 colour conversion. -/
  | cscM3 (d a : Code) (b : BSrc)
  /-- CSC_CLIP (R141): Round an FP32 value to an integer clamped to [lo, hi]. -/
  | cscClip (d a : Code) (b : BSrc)
  /-- RND_F32 (R131): Round an FP32 value to an integral value. -/
  | rndF32 (r : BitVec 3) (d a : Code)
  /-- CVT (R132): Conversion of form k, with optional .sat. -/
  | cvt (k : BitVec 5) (sat : Bool) (d a : Code) (b : BSrc)
  /-- QNT (R133): Quantise a / b into a narrow format with one rounding. -/
  | qnt (sat rs : Bool) (f : BitVec 3) (d a : Code) (b : BSrc)
  /-- DQNT (R135): Dequantise a narrow code times b to FP32. -/
  | dqnt (f : BitVec 3) (d a : Code) (b : BSrc)
  /-- RCP (R136): Reciprocal within 1 ulp. -/
  | rcp (d a : Code)
  /-- RSQRT (R136): Reciprocal square root. -/
  | rsqrt (d a : Code)
  /-- SQRT (R136): Correctly rounded square root. -/
  | sqrt (d a : Code)
  /-- EXP2 (R136): 2^x. -/
  | exp2 (d a : Code)
  /-- LOG2 (R136): log2 x. -/
  | log2 (d a : Code)
  /-- SINPI (R136): sin(pi x). -/
  | sinpi (d a : Code)
  /-- COSPI (R136): cos(pi x). -/
  | cospi (d a : Code)
  /-- TANH (R136): tanh x. -/
  | tanh (d a : Code)
  /-- SIGM (R136): Logistic sigmoid. -/
  | sigm (d a : Code)
  /-- PXUNPK (R138): Extract the components of one pixel of a pgroup. -/
  | pxunpk (f : BitVec 2) (d a : Code) (b : BSrc)
  /-- PXPACK (R139): Write the components of one pixel into a pgroup. -/
  | pxpack (f : BitVec 2) (d a : Code) (b : BSrc)
  /-- XL_PICK (R144): Read a from lane b[5:0] of the group. -/
  | xlPick (d a : Code) (b : BSrc) (m : Code)
  /-- XL_BACK (R144): Read a from lane t - b. -/
  | xlBack (d a : Code) (b : BSrc) (m : Code)
  /-- XL_FWD (R144): Read a from lane t + b. -/
  | xlFwd (d a : Code) (b : BSrc) (m : Code)
  /-- XL_FLIP (R144): Read a from lane t ^ b. -/
  | xlFlip (d a : Code) (b : BSrc) (m : Code)
  /-- QUAD_SWAP_H (R144): Read a from lane t ^ 1. -/
  | quadSwapH (d a m : Code)
  /-- QUAD_SWAP_V (R144): Read a from lane t ^ 2. -/
  | quadSwapV (d a m : Code)
  /-- QUAD_SWAP_D (R144): Read a from lane t ^ 3. -/
  | quadSwapD (d a m : Code)
  /-- QUAD_BCAST (R144): Read a from lane b[1:0] of the quad. -/
  | quadBcast (d a : Code) (b : BSrc) (m : Code)
  /-- XL_MASK (R145): Mask of contributors whose predicate is true. -/
  | xlMask (d : Code) (p : BitVec 3) (m : Code)
  /-- XL_ANY (R145): True when some contributor's predicate is true. -/
  | xlAny (p x : BitVec 3) (m : Code)
  /-- XL_ALL (R145): True when every contributor's predicate is true. -/
  | xlAll (p x : BitVec 3) (m : Code)
  /-- XL_SAME (R145): Mask of contributors holding the same value. -/
  | xlSame (d a m : Code)
  /-- XL_FOLD (R146): Reduction of a over the contributors. -/
  | xlFold (j : BitVec 4) (d a m : Code)
  /-- SCAN_INCL (R147): Inclusive integer scan over contributors. -/
  | scanIncl (j : BitVec 3) (d a m : Code)
  /-- SCAN_EXCL (R147): Exclusive integer scan over contributors. -/
  | scanExcl (j : BitVec 3) (d a m : Code)
  /-- SCAN_SEG_INCL (R147): Segmented inclusive scan with head flags. -/
  | scanSegIncl (j : BitVec 3) (d a : Code) (b : BSrc) (m : Code)
  /-- SCAN_SEG_EXCL (R147): Segmented exclusive scan with head flags. -/
  | scanSegExcl (j : BitVec 3) (d a : Code) (b : BSrc) (m : Code)
  /-- LD (R181): Lane load of size z with cache policy c. -/
  | ld (z : BitVec 3) (c : BitVec 2) (d a o : Code)
  /-- ST (R181): Lane store of size z with cache policy c, held until commit. -/
  | st (z : BitVec 3) (c : BitVec 2) (s a o : Code)
  /-- LD_RELAXED (R183): Strong relaxed load at device scope. -/
  | ldRelaxed (w : Bool) (d a o : Code)
  /-- ST_RELAXED (R183): Strong relaxed store at device scope. -/
  | stRelaxed (w : Bool) (s a o : Code)
  /-- LD_ACQ (R183): Acquire load at a scope. -/
  | ldAcq (e : BitVec 3) (w : Bool) (d a o : Code)
  /-- ST_REL (R183): Release store at a scope; a commit point. -/
  | stRel (e : BitVec 3) (w : Bool) (s a o : Code)
  /-- ATOM (R184): Atomic read-modify-write returning the old value. -/
  | atom (k : BitVec 4) (d a o : Code)
  /-- ATOM_CAS_B32 (R185): 32-bit compare-and-swap. -/
  | atomCasB32 (d a o : Code)
  /-- ATOM_CAS_B64 (R185): 64-bit compare-and-swap. -/
  | atomCasB64 (d a o : Code)
  /-- RED (R187): Reduction to memory returning nothing. -/
  | red (k : BitVec 4) (s a o : Code)
  /-- FENCE (R188): Fence at a scope; a commit point. -/
  | fence (e : BitVec 3)
  /-- STASH_MAP (R191): Bind a scratchpad range to a global range. -/
  | stashMap (d a : Code) (b : BSrc)
  /-- STASH_UNMAP (R192): Write back and free a stash entry. -/
  | stashUnmap (b : BSrc)
  /-- STASH_FLUSH (R192): Write back a stash entry's dirty sectors. -/
  | stashFlush (b : BSrc)
  /-- PREFETCH (R193): Request a line into the caches without checks. -/
  | prefetch (a : Code) (b : BSrc)
  /-- BAR_ARRIVE (R194): Arrive at a named barrier with an expected count. -/
  | barArrive (d a : Code) (b : BSrc)
  /-- BAR_WAIT (R195): Park until the barrier's generation changes. -/
  | barWait (a : Code) (b : BSrc)
  /-- TB_INIT (R198): Initialise a transaction barrier. -/
  | tbInit (a : Code) (b : BSrc)
  /-- TB_ARRIVE (R198): Post arrivals to a transaction barrier. -/
  | tbArrive (d a : Code) (b : BSrc)
  /-- TB_EXPECT (R198): Post expected sectors to a transaction barrier. -/
  | tbExpect (a : Code) (b : BSrc)
  /-- TB_WAIT (R199): Park until a phase after the token completes or the bound passes. -/
  | tbWait (d a : Code) (b : BSrc)
  /-- TB_TEST (R199): Evaluate the phase test once without parking. -/
  | tbTest (d a : Code) (b : BSrc)
  /-- QBIND (R200): Bind a queue register to an engine or ring queue. -/
  | qbind (d a : Code) (b : BSrc)
  /-- QPUSH (R202): Push one element to an outbound queue. -/
  | qpush (d a : Code)
  /-- QPUSHR (R202): Push 1 to 16 registers as one group. -/
  | qpushr (d a : Code) (b : BSrc)
  /-- QPOP (R202): Reserve the next inbound element for later landing in d. -/
  | qpop (d a : Code)
  /-- QSTAT (R202): Write a queue's status word. -/
  | qstat (d a : Code)
  /-- TICKET_TAKE (R204): Park until lower workgroups have ended and take the ticket. -/
  | ticketTake (d : Code)
  /-- SRD (R205): Read one status value of a stream. -/
  | srd (d a : Code) (b : BSrc)
  /-- XE_COPY (R247): Issue a strided copy to the transfer engine. -/
  | xeCopy (d a : Code) (b : BSrc)
  /-- XE_RAGGED (R247): Issue a ragged-row copy. -/
  | xeRagged (d a : Code) (b : BSrc)
  /-- XE_BTAB (R247): Issue a block-table copy. -/
  | xeBtab (d a : Code) (b : BSrc)
  /-- XE_GATHER (R247): Issue an indexed row gather. -/
  | xeGather (d a : Code) (b : BSrc)
  /-- XE_CBX (R247): Issue a codebook expansion copy. -/
  | xeCbx (d a : Code) (b : BSrc)
  /-- XE_LUT (R252): Load a codebook table into an engine slot. -/
  | xeLut (a : Code) (b : BSrc)
  /-- XE_FILL (R247): Issue a pattern fill. -/
  | xeFill (d a : Code) (b : BSrc)
  /-- SMP_CFG (R254): Read and check a sampling context, RECEIVED = 0. -/
  | smpCfg (a : Code)
  /-- SMP_PUSH (R255): Deliver logits from memory to a sampling context. -/
  | smpPush (a : Code) (b : BSrc)
  /-- SMP_DRAW (R256): Request the draw of a sampling context. -/
  | smpDraw (d a : Code)
  /-- RT_TRACE (R259): Push one ray to the traversal unit. -/
  | rtTrace (d a : Code) (b : BSrc)
  /-- RT_CONT (R262): Answer the oldest popped candidate record. -/
  | rtCont (b : BSrc)
  /-- RT_POP (R261): Pop four words of hit records into a quad. -/
  | rtPop (d a : Code)
  /-- COLL_READY (R263): Set the ready flag of a tile-table entry. -/
  | collReady (a : Code) (b : BSrc)
  /-- COLL_WAIT (R264): Park until a tile-table entry is not ready and return its status. -/
  | collWait (d a : Code) (b : BSrc)
  /-- ROPE_ARRIVE (R395): Post this card's arrival for a rope frame. -/
  | ropeArrive (d a : Code) (b : BSrc)
  /-- ROPE_STATUS (R266): Read the state of a rope frame. -/
  | ropeStatus (d a : Code) (b : BSrc)
  /-- UNIFORM_ADD (R150): d = d + b modulo 2^64. -/
  | uniformAdd (d : UReg) (b : USrc) (lo : Bool)
  /-- UNIFORM_ADD_IMM (R150): d = d + sext(imm13). -/
  | uniformAddImm (d : UReg) (i : BitVec 13)
  /-- UNIFORM_SUB (R150): d = d - b. -/
  | uniformSub (d : UReg) (b : USrc) (lo : Bool)
  /-- UNIFORM_SUB_IMM (R150): d = d - sext(imm13). -/
  | uniformSubImm (d : UReg) (i : BitVec 13)
  /-- UNIFORM_MUL_LO (R150): d = d x b modulo 2^64. -/
  | uniformMulLo (d : UReg) (b : USrc) (lo : Bool)
  /-- UNIFORM_MUL_LO_IMM (R150): d = d x sext(imm13). -/
  | uniformMulLoImm (d : UReg) (i : BitVec 13)
  /-- UNIFORM_MUL_HI_I64 (R150): High 64 bits of the signed product. -/
  | uniformMulHiI64 (d : UReg) (b : USrc) (lo : Bool)
  /-- UNIFORM_MUL_HI_I64_IMM (R150): High 64 bits of the signed product with imm13. -/
  | uniformMulHiI64Imm (d : UReg) (i : BitVec 13)
  /-- UNIFORM_MUL_HI_N64 (R150): High 64 bits of the unsigned product. -/
  | uniformMulHiN64 (d : UReg) (b : USrc) (lo : Bool)
  /-- UNIFORM_MUL_HI_N64_IMM (R150): High 64 bits of the unsigned product with imm13. -/
  | uniformMulHiN64Imm (d : UReg) (i : BitVec 13)
  /-- UNIFORM_SHL (R151): 64-bit shift left. -/
  | uniformShl (d : UReg) (b : USrc) (lo : Bool)
  /-- UNIFORM_SHL_IMM (R151): 64-bit shift left by imm13. -/
  | uniformShlImm (d : UReg) (i : BitVec 13)
  /-- UNIFORM_SHR_N (R151): 64-bit logical shift right. -/
  | uniformShrN (d : UReg) (b : USrc) (lo : Bool)
  /-- UNIFORM_SHR_N_IMM (R151): 64-bit logical shift right by imm13. -/
  | uniformShrNImm (d : UReg) (i : BitVec 13)
  /-- UNIFORM_SHR_I (R151): 64-bit arithmetic shift right. -/
  | uniformShrI (d : UReg) (b : USrc) (lo : Bool)
  /-- UNIFORM_SHR_I_IMM (R151): 64-bit arithmetic shift right by imm13. -/
  | uniformShrIImm (d : UReg) (i : BitVec 13)
  /-- UNIFORM_ROT (R151): 64-bit rotate left. -/
  | uniformRot (d : UReg) (b : USrc) (lo : Bool)
  /-- UNIFORM_ROT_IMM (R151): 64-bit rotate left by imm13. -/
  | uniformRotImm (d : UReg) (i : BitVec 13)
  /-- UNIFORM_AND (R150): 64-bit AND. -/
  | uniformAnd (d : UReg) (b : USrc) (lo : Bool)
  /-- UNIFORM_AND_IMM (R150): 64-bit AND with imm13. -/
  | uniformAndImm (d : UReg) (i : BitVec 13)
  /-- UNIFORM_OR (R150): 64-bit OR. -/
  | uniformOr (d : UReg) (b : USrc) (lo : Bool)
  /-- UNIFORM_OR_IMM (R150): 64-bit OR with imm13. -/
  | uniformOrImm (d : UReg) (i : BitVec 13)
  /-- UNIFORM_XOR (R150): 64-bit XOR. -/
  | uniformXor (d : UReg) (b : USrc) (lo : Bool)
  /-- UNIFORM_XOR_IMM (R150): 64-bit XOR with imm13. -/
  | uniformXorImm (d : UReg) (i : BitVec 13)
  /-- UNIFORM_ANDN (R150): d AND NOT b. -/
  | uniformAndn (d : UReg) (b : USrc) (lo : Bool)
  /-- UNIFORM_ANDN_IMM (R150): d AND NOT sext(imm13). -/
  | uniformAndnImm (d : UReg) (i : BitVec 13)
  /-- UNIFORM_MIN_I64 (R150): Signed 64-bit minimum. -/
  | uniformMinI64 (d : UReg) (b : USrc) (lo : Bool)
  /-- UNIFORM_MAX_I64 (R150): Signed 64-bit maximum. -/
  | uniformMaxI64 (d : UReg) (b : USrc) (lo : Bool)
  /-- UNIFORM_MIN_N64 (R150): Unsigned 64-bit minimum. -/
  | uniformMinN64 (d : UReg) (b : USrc) (lo : Bool)
  /-- UNIFORM_MAX_N64 (R150): Unsigned 64-bit maximum. -/
  | uniformMaxN64 (d : UReg) (b : USrc) (lo : Bool)
  /-- UNIFORM_CLZ (R150): Leading zeros of b. -/
  | uniformClz (d : UReg) (b : USrc) (lo : Bool)
  /-- UNIFORM_POPC (R150): Set bits of b. -/
  | uniformPopc (d : UReg) (b : USrc) (lo : Bool)
  /-- UNIFORM_BREV (R150): Bit reversal of b. -/
  | uniformBrev (d : UReg) (b : USrc) (lo : Bool)
  /-- UNIFORM_BFE_N64 (R151): Unsigned 64-bit bit-field extract. -/
  | uniformBfeN64 (d : UReg) (b : USrc) (lo : Bool)
  /-- UNIFORM_BFE_I64 (R151): Signed 64-bit bit-field extract. -/
  | uniformBfeI64 (d : UReg) (b : USrc) (lo : Bool)
  /-- UNIFORM_BFI (R151): Insert bits from b[63:32] into d. -/
  | uniformBfi (d : UReg) (b : USrc) (lo : Bool)
  /-- UNIFORM_MOV (R150): d = b. -/
  | uniformMov (d : UReg) (b : USrc) (lo : Bool)
  /-- UNIFORM_MOVI (R150): d = sext(imm13). -/
  | uniformMovi (d : UReg) (i : BitVec 13)
  /-- SET_EQ (R150): d = 1 if d == b, else 0. -/
  | setEq (d : UReg) (b : USrc) (lo : Bool)
  /-- SET_NE (R150): d = 1 if d != b, else 0. -/
  | setNe (d : UReg) (b : USrc) (lo : Bool)
  /-- SET_LT_I64 (R150): Signed d < b. -/
  | setLtI64 (d : UReg) (b : USrc) (lo : Bool)
  /-- SET_LE_I64 (R150): Signed d <= b. -/
  | setLeI64 (d : UReg) (b : USrc) (lo : Bool)
  /-- SET_GT_I64 (R150): Signed d > b. -/
  | setGtI64 (d : UReg) (b : USrc) (lo : Bool)
  /-- SET_GE_I64 (R150): Signed d >= b. -/
  | setGeI64 (d : UReg) (b : USrc) (lo : Bool)
  /-- SET_LT_N64 (R150): Unsigned d < b. -/
  | setLtN64 (d : UReg) (b : USrc) (lo : Bool)
  /-- SET_LE_N64 (R150): Unsigned d <= b. -/
  | setLeN64 (d : UReg) (b : USrc) (lo : Bool)
  /-- SET_GT_N64 (R150): Unsigned d > b. -/
  | setGtN64 (d : UReg) (b : USrc) (lo : Bool)
  /-- SET_GE_N64 (R150): Unsigned d >= b. -/
  | setGeN64 (d : UReg) (b : USrc) (lo : Bool)
  /-- UNIFORM_MOVL (R150): Write the two following literal words to d. -/
  | uniformMovl (d : UReg) (v : DWord) (lo : Bool)
  /-- BZ (R152): Branch if g == 0. -/
  | bz (g : UReg) (o : BitVec 13)
  /-- BNZ (R152): Branch if g != 0. -/
  | bnz (g : UReg) (o : BitVec 13)
  /-- BR (R152): Unconditional uniform branch. -/
  | br (o : BitVec 13)
  /-- UNIFORM_CALL (R152): Uniform call writing the return address to g. -/
  | uniformCall (g : UReg) (o : BitVec 13)
  /-- UNIFORM_JMP (R152): Uniform jump to b. -/
  | uniformJmp (b : USrc) (lo : Bool)
  /-- UNIFORM_RET (R152): Uniform return to b. -/
  | uniformRet (b : USrc) (lo : Bool)
  /-- MFS (R156): Read a system register into g. -/
  | mfs (d : UReg) (n : BitVec 8) (lo : Bool)
  /-- MTS (R156): Write a system register. -/
  | mts (n : BitVec 8) (b : USrc) (lo : Bool)
  /-- RDTIME (R160): Read the device PTP time. -/
  | rdtime (d : UReg) (lo : Bool)
  /-- WAIT_TIME (R161): Park the crew until TIME reaches b. -/
  | waitTime (b : USrc) (lo : Bool)
  /-- WAIT_CNT (R162): Park the crew until an engine counter is at most n. -/
  | waitCnt (c : BitVec 3) (n : BitVec 13)
  /-- SPAWN (R163): Push a task continuation record onto the core's deque. -/
  | spawn (b : USrc)
  /-- JOIN_DEC (R164): Atomically decrement a record's JOIN and push it at zero. -/
  | joinDec (d : UReg) (b : USrc) (lo : Bool)
  /-- YIELD (R165): End the crew and mark the workgroup as yielding. -/
  | yield (b : USrc)
  /-- TRAP (R166): Raise SW_TRAP for every gathered member. -/
  | trap (i : BitVec 13)
  /-- UNIFORM_LD (R154): Uniform load at the address in b. -/
  | uniformLd (z : BitVec 3) (d : UReg) (b : USrc) (lo : Bool)
  /-- UNIFORM_ST (R154): Uniform store at the address in b. -/
  | uniformSt (z : BitVec 3) (d : UReg) (b : USrc)
  /-- UNIFORM_LD_ACQ_DEV (R154): Uniform 64-bit acquire load at device scope. -/
  | uniformLdAcqDev (d : UReg) (b : USrc) (lo : Bool)
  /-- UNIFORM_ST_REL_DEV (R154): Uniform 64-bit release store at device scope. -/
  | uniformStRelDev (d : UReg) (b : USrc)
  /-- MMA (R223): Matrix multiply-accumulate into an accumulator. -/
  | mma (f : BitVec 4) (ck z : Bool) (c : BitVec 3) (a b : BitVec 8) (advA advB : Bool)
  /-- MMO (R225): Load the outlier list for an accumulator. -/
  | mmo (c : BitVec 3) (a : BitVec 8)
  /-- XLOAD (R222): Copy an operand from scratchpad into a tile. -/
  | xload (a b : BitVec 8) (adv : Bool)
  /-- XPOP (R222): Park until the staging buffer is full, then copy it into a tile. -/
  | xpop (a : BitVec 8)
  /-- CBLOAD (R224): Load a codebook slot and optionally select it. -/
  | cbload (c : BitVec 3) (a : BitVec 8) (sa sb : Bool)
  /-- AZERO (R231): Zero an accumulator and its checksums. -/
  | azero (c : BitVec 3)
  /-- ALOAD (R231): Load an accumulator from scratchpad and form checksums. -/
  | aload (c : BitVec 3) (a : BitVec 8) (bf adv : Bool)
  /-- ADRAIN (R232): Write an accumulator to scratchpad. -/
  | adrain (c : BitVec 3) (a : BitVec 8) (bf clr : Bool)
  /-- ADRAIN_T (R233): Drain two accumulators with a transposed quantised copy. -/
  | adrainT (c : BitVec 3) (a b : BitVec 8) (bf clr : Bool)
  /-- ADRAIN_Q (R234): Push an accumulator to a drain queue. -/
  | adrainQ (c : BitVec 3) (a : BitVec 8) (bf clr : Bool)
  /-- ACK (R228): Compare checksums with elements and report flags and residues. -/
  | ack (c : BitVec 3) (a : BitVec 8) (tol : BitVec 2)
  /-- AFIX (R229): Correct the flagged element from its column checksum. -/
  | afix (c : BitVec 3) (a : BitVec 8)
  /-- CURD_LDI (R419): wA = zext(IMM). -/
  | curdLdi (a : BitVec 4) (i : BitVec 16)
  /-- CURD_LDH (R419): wA = (wA << 16) | IMM. -/
  | curdLdh (a : BitVec 4) (i : BitVec 16)
  /-- CURD_ADDI (R419): wA = wA + sext(IMM). -/
  | curdAddi (a : BitVec 4) (i : BitVec 16)
  /-- CURD_MOV (R419): wA = wB. -/
  | curdMov (a b : BitVec 4)
  /-- CURD_ADD (R419): wA = wA + wB. -/
  | curdAdd (a b : BitVec 4)
  /-- CURD_SUB (R419): wA = wA - wB. -/
  | curdSub (a b : BitVec 4)
  /-- CURD_AND (R419): wA = wA & wB. -/
  | curdAnd (a b : BitVec 4)
  /-- CURD_OR (R419): wA = wA | wB. -/
  | curdOr (a b : BitVec 4)
  /-- CURD_XOR (R419): wA = wA ^ wB. -/
  | curdXor (a b : BitVec 4)
  /-- CURD_SHL (R419): Shift wA left by IMM[5:0]. -/
  | curdShl (a : BitVec 4) (s : BitVec 6)
  /-- CURD_SHR (R419): Shift wA right by IMM[5:0]. -/
  | curdShr (a : BitVec 4) (s : BitVec 6)
  /-- CURD_SLT (R419): wA = (wA < wB) unsigned. -/
  | curdSlt (a b : BitVec 4)
  /-- CURD_PKT (R419): Read an 8-B word of the current packet. -/
  | curdPkt (a : BitVec 4) (i : BitVec 16)
  /-- CURD_REC (R419): Write an 8-B word of the launch record. -/
  | curdRec (a : BitVec 4) (i : BitVec 16)
  /-- CURD_LD (R419): Acquire load of 8 B from memory. -/
  | curdLd (a b : BitVec 4) (i : BitVec 16)
  /-- CURD_ST (R419): Release store of 8 B to memory. -/
  | curdSt (a b : BitVec 4) (i : BitVec 16)
  /-- CURD_TIME (R419): wA = TIME. -/
  | curdTime (a : BitVec 4)
  /-- SEMWAIT (R419): Park until a semaphore reaches wA. -/
  | semwait (a : BitVec 4) (i : BitVec 16)
  /-- SEMADD (R419): Add wA to a semaphore. -/
  | semadd (a : BitVec 4) (i : BitVec 16)
  /-- SEMSET (R419): Set a semaphore to wA. -/
  | semset (a : BitVec 4) (i : BitVec 16)
  /-- WTIME (R419): Park until TIME reaches wA. -/
  | wtime (a : BitVec 4)
  /-- CURD_LAUNCH (R422): Check and issue the launch record. -/
  | curdLaunch (a : BitVec 4)
  /-- LWAIT (R419): Park until a launch completes and read its status. -/
  | lwait (a b : BitVec 4)
  /-- CURD_CMD (R424): Run a command block and return its result code. -/
  | curdCmd (a b : BitVec 4)
  /-- CURD_BZ (R419): Branch forward if wA == 0. -/
  | curdBz (a : BitVec 4) (i : BitVec 16)
  /-- CURD_BNZ (R419): Branch forward if wA != 0. -/
  | curdBnz (a : BitVec 4) (i : BitVec 16)
  /-- CURD_JMP (R419): Jump to index + n. -/
  | curdJmp (i : BitVec 16)
  /-- CURD_LOOP (R419): Decrement wA and branch back while it was nonzero. -/
  | curdLoop (a : BitVec 4) (i : BitVec 16)
  /-- QUEUE_INSTALL (R425): Install a queue descriptor. -/
  | queueInstall (q : Nat)
  /-- QUEUE_RESTART (R425): Clear STOPPED of a queue. -/
  | queueRestart (q : Nat)
  /-- CONTEXT_INSTALL (R425): Install a context's range registers, page-table root and bounds table. -/
  | contextInstall (q : Nat)
  /-- BOUNDS_PUBLISH (R425): Re-read a context's bounds table on every core. -/
  | boundsPublish (q : Nat)
  /-- DECODE_INSTALL (R425): Install a decode table image. -/
  | decodeInstall (q : Nat)
  /-- CURD_INSTALL (R425): Verify and install a signed Curd program. -/
  | curdInstall (q : Nat)
  /-- STREAM_INSTALL (R425): Install or remove a stream descriptor. -/
  | streamInstall (q : Nat)
  /-- TILE_INSTALL (R425): Install or remove a tile table. -/
  | tileInstall (q : Nat)
  /-- IMAGE_STAGE (R425): Stage a signed front-end or link-processor image. -/
  | imageStage (q : Nat)
  /-- HANDOVER (R427): Hand the front end over to the staged image. -/
  | handover (q : Nat)
  /-- ATTEST (R428): Write a signed attestation block. -/
  | attest (q : Nat)
  /-- PUBLISH (R353): PGCMD PUBLISH: invalidate translations and raise the context generation. -/
  | publish (port : Port)
  /-- REPLAY (R353): PGCMD REPLAY: close a pending-fault entry, resuming or failing its accesses. -/
  | replay (port : Port)
  /-- REPLAY_STALE (R353): A replay held for 1 ms leaves the hold list and reports REPLAY_STALE. -/
  | replayStale (id : Nat)
  /-- Q_TAIL (R320): Host write of a queue's TAIL, accepted or refused. -/
  | qTail (port : Port) (q : Nat) (t : DWord)
  /-- SEM_VALUE (R414): Write of a semaphore's value. -/
  | semValue (n : Nat) (v : ByPort DWord)
  /-- SEM_ADD (R414): Write adding to a semaphore. -/
  | semAdd (n : Nat) (v : ByPort DWord)
  /-- SEM_CLAIM (R414): Read that claims a zero semaphore for the reading port. -/
  | semClaim (port : Port) (n : Nat)
  /-- FQ_HEAD (R351): Write of the fault queue's HEAD, retrying a failed slot write. -/
  | fqHead (v : ByPort DWord)
  /-- FQ_BASE (R351): Write of the fault queue's base, retrying a failed slot write. -/
  | fqBase (v : ByPort DWord)
  /-- FQ_SIZE (R351): Write of the fault queue's size, enabling or disabling it. -/
  | fqSize (v : ByPort Word)
  /-- POOL_SPLIT (R285): Write of TARGET starting a scratchpad/cache split change. -/
  | poolSplit (c : Nat) (v : ByPort Word)
  /-- POOL_SPLIT_COMPLETE (R285): The split change completes after outstanding transfers, setting CURRENT. -/
  | poolSplitComplete (c : Nat)
  /-- COL_GATE_REQ (R361): Write of REQ = 1 requesting gating of a column. -/
  | colGateReq (c : Nat) (v : ByPort Word)
  /-- COL_GATE_POWER_UP (R361): REQ returns to 0, or an access clears it; the column powers up and restores from its
  gating seal. -/
  | colGatePowerUp (c : Nat)
  /-- PTP_STEP (R379): Host write stepping the PTP clock. -/
  | ptpStep (v : ByPort DWord)
  /-- REJOIN (R397): Write of ROPE_CTL.REJOIN of a rope by an expelled card. -/
  | rejoin (k : ByPort Nat)
  /-- BAR0_LOWER_HALF_WRITE (R417): 4-B write to a 64-bit register's lower half, staged for the port. -/
  | bar0LowerHalfWrite (port : Port) (off : Nat) (v : Word)
  /-- REGISTER_WRITE (R6): Write of an MMIO register field that has no row of its own. -/
  | registerWrite (port : Port) (off size : Nat) (v : DWord)
  /-- HOST_BAR2_ACCESS (R413): Host read or write of G7 DRAM through BAR2. -/
  | hostBar2Access (port : Port) (write : Bool) (addr size : Nat) (data : List Byte)
  /-- PICK_RUN (R343): A free lane port's picker chooses a PC and key, gathers threads and issues a run. -/
  | pickRun (k : RunKey)
  /-- INSTRUCTION_FETCH (R348): Fetch and check the words of a run before it issues. -/
  | instructionFetch (t : TRef)
  /-- LONG_LATENCY_RESULT (R450): A pending long-latency result lands in its destination. -/
  | longLatencyResult (t : TRef)
  /-- PARKED_RUN_RESUME (R342): A parked run resumes at its word when its condition holds. -/
  | parkedRunResume (k : RunKey)
  /-- ENGINE_COUNTER_ROOM (R22): A completion lowers a counter and a parked engine command enters. -/
  | engineCounterRoom (k : RunKey)
  /-- WAIT_TIME_EXPIRY (R161): TIME reaches a wait.time target and the crew continues. -/
  | waitTimeExpiry (k : RunKey)
  /-- TB_WAIT_TIMEOUT (R199): A tb.wait bound passes and the wait returns a timeout status. -/
  | tbWaitTimeout (k : RunKey)
  /-- SEQUENCER_PARK_RESUME (R222): The parked sequencer continues when staging fills, a drain queue has room, or a
  fault is replayed. -/
  | sequencerParkResume (c : Nat)
  /-- TRAP_ENTRY (R170): The crew stops, pending results land, regions commit and the handler starts. -/
  | trapEntry (cid : Nat)
  /-- MEM_ECC (R182): An uncorrectable load error traps at the thread's next run boundary. -/
  | memEcc (t : TRef)
  /-- HOST_COMPLETION (R186): An error completion from the host traps at the next run boundary. -/
  | hostCompletion (t : TRef)
  /-- MX_FEED (R220): A discarded feed header traps the pushing thread at its next run boundary. -/
  | mxFeed (t : TRef)
  /-- PEER_ACCESS_REFUSED (R403): A refused or unreachable peer access traps ACCESS_RIGHTS at the next run boundary. -/
  | peerAccessRefused (t : TRef)
  /-- YIELD_REQ (R328): A yield request is raised in a crew at its next run boundary. -/
  | yieldReq (cid : Nat)
  /-- YIELD_REQ_REPEAT (R359): YIELD_REQ is raised again 1 ms after a delivery the crew returned from. -/
  | yieldReqRepeat (cid : Nat)
  /-- TB_PHASE_COMPLETION (R197): A transaction barrier completes its phase at the start of a clock. -/
  | tbPhaseCompletion (c off : Nat)
  /-- TRANSFER_SECTOR_WRITE (R249): The transfer engine writes destination sectors and posts their completions. -/
  | transferSectorWrite (wid ch : Nat)
  /-- TRANSFER_COMPLETION (R250): A transfer command completes or stops on a failed access and writes its record. -/
  | transferCompletion (wid ch : Nat)
  /-- XE_LUT_HELD (R252): A codebook table is held in the engine slot. -/
  | xeLutHeld (wid slot : Nat)
  /-- SMP_DRAW_EVALUATE (R256): The sampling unit evaluates the pass once RECEIVED = N and writes RESULT. -/
  | smpDrawEvaluate (id : Nat)
  /-- RAY_TRAVERSAL (R260): The traversal unit tests a ray against the scene. -/
  | rayTraversal (c ray : Nat)
  /-- HIT_RECORD (R261): A MISS, HIT, CANDIDATE or FAULT record is delivered to the HIT queue. -/
  | hitRecord (c ray : Nat)
  /-- COLL_MESSAGE (R407): A collective exchange message arrives from a member. -/
  | collMessage (e card : Nat) (epoch : Word) (data : List Byte)
  /-- COLL_ENTRY_COMPLETION (R407): A tile-table entry completes and writes RESULT, DONE_TIME and STATUS. -/
  | collEntryCompletion (e : Nat)
  /-- COLL_HEARTBEAT (R405): A card sends its 100 us collective heartbeat. -/
  | collHeartbeat (card : Nat)
  /-- PARTNER_LOST (R412): COLL_TIMEOUT expires for a member and the entry completes PARTNER_LOST. -/
  | partnerLost (e card : Nat)
  /-- LINK_PROCESSOR_STOP (R404): Link-processor firmware stops or traps and in-progress entries fault. -/
  | linkProcessorStop (n : Nat)
  /-- LINK_PROCESSOR_IMAGE_START (R425): A staged link-processor image starts once its entries are idle. -/
  | linkProcessorImageStart (n : Nat)
  /-- PEER_INBOUND_ACCESS (R402): An access from a peer card is checked against the inbound windows. -/
  | peerInboundAccess (card addr : Nat) (acc : PeerAcc)
  /-- LINK_STATE_CHANGE (R401): A Treldy Link port comes up or goes down. -/
  | linkStateChange (port : Nat) (up : Bool) (lanes : BitVec 4)
  /-- STREAM_PACKET (R382): A received stream packet is matched, deduplicated and written. -/
  | streamPacket (sub : Nat) (p : Packet)
  /-- FRAME_SETTLE_TIMEOUT (R383): A frame settles 100 ms after FIRST. -/
  | frameSettleTimeout (s : Nat)
  /-- TRANSMIT_CHOICE (R390): At I_k - 2,000 ns a stream presents a candidate or repeats. -/
  | transmitChoice (s : Nat)
  /-- TRANSMIT_PACKET (R390): A stream sends the next packet of an instant. -/
  | transmitPacket (s : Nat)
  /-- PTP_SYNC (R379): A PTP sync message drives the servo and LOCKED. -/
  | ptpSync (offset : Int)
  /-- ROPE_ARRIVAL_MESSAGE (R394): A member's arrival message reaches this card. -/
  | ropeArrivalMessage (rope member k : Nat)
  /-- ROPE_DECISION (R396): At the decision point the card presents or substitutes frame k. -/
  | ropeDecision (rope k : Nat)
  /-- ROPE_HEARTBEAT (R393): Rope members exchange heartbeats every 1 ms. -/
  | ropeHeartbeat (rope member lat : Nat)
  /-- HW_LEVEL_RISE (R331): HW_LEVEL rises by 1 every 1 us while a limit is exceeded. -/
  | hwLevelRise (c : Nat)
  /-- HW_LEVEL_FALL (R331): HW_LEVEL falls by 1 every 10 us after the excess ends. -/
  | hwLevelFall (c : Nat)
  /-- LOCALITY_LOSS_HALVING (R344): Every 1,024 clocks each LOSS is halved. -/
  | localityLossHalving (c part : Nat)
  /-- PAGE_WALK (R274): A translation walk ends with a leaf or a page fault. -/
  | pageWalk (ctx ia : Nat) (space : BitVec 4) (write : Bool)
  /-- WORKGROUP_FAULT (R356): A workgroup stops, discards open regions and ends. -/
  | workgroupFault (wid : Nat)
  /-- WORKGROUP_END (R9): A workgroup ends after crews, sequencer and engine operations. -/
  | workgroupEnd (wid : Nat)
  /-- SERIAL_PHASE (R370): A deterministic workgroup takes the ticket and applies its log. -/
  | serialPhase (wid : Nat)
  /-- REDUNDANT_COMPARE (R373): The comparator checks redundant copies' log CRCs. -/
  | redundantCompare (wid : Nat)
  /-- LAUNCH_COMPLETION (R422): A launch completes; DONE_AT, DONE_SEM and ENTRY_DONE follow. -/
  | launchCompletion (lid : Nat)
  /-- BOUND_FIELD_RESOLVE (R321): A bound field is read once its semaphore is reached. -/
  | boundFieldResolve (lid : Nat)
  /-- LAUNCH_ELIGIBLE (R324): A launch becomes eligible when waits and NOT_BEFORE are satisfied. -/
  | launchEligible (lid : Nat)
  /-- WORKGROUP_PLACE (R333): The dispatcher places a workgroup on a core that it fits. -/
  | workgroupPlace (lid idx : Nat)
  /-- CORE_TAKE_WORK (R338): A core with room takes its young-end record or a dispatcher offer. -/
  | coreTakeWork (c : Nat)
  /-- STEAL_ATTEMPT (R339): An idle thief visits victims and takes an old-end record. -/
  | stealAttempt (c : Nat)
  /-- CURD_PACKET (R421): The front end takes a packet and runs ENTRY_PKT. -/
  | curdPacket (q : Nat)
  /-- CURD_COMPLETION_RUN (R421): A launch completion runs ENTRY_DONE. -/
  | curdCompletionRun (q : Nat)
  /-- CURD_RESUME (R421): A parked Curd operation resumes when its condition holds. -/
  | curdResume (q : Nat)
  /-- CURD_BUDGET_EXHAUSTED (R423): A run exhausting its 512-operation budget makes a Curd error. -/
  | curdBudgetExhausted (q : Nat)
  /-- SHADOW_WRITE_BEHIND (R288): The column writes dirty shadow blocks to the rind. -/
  | shadowWriteBehind (c : Nat)
  /-- SEAL_CAPTURE (R290): A core stops issue at a clock and captures state for a seal. -/
  | sealCapture (c : Nat) (reason : Byte)
  /-- SEAL_VALID (R290): A seal becomes valid once its record write is verified. -/
  | sealValid (c : Nat)
  /-- COLUMN_SUPPLY_FAILURE (R363): A column's supply fails; LOST is set. -/
  | columnSupplyFailure (c : Nat)
  /-- CORE_RECOVERY (R363): When the rail returns the core is restored from its latest valid seal. -/
  | coreRecovery (c : Nat)
  /-- FIRMWARE_CORE_RESTORE (R364): On firmware request after card power loss a core is restored. -/
  | firmwareCoreRestore (c : Nat)
  /-- PERST (R434): Assertion of PERST# resets the card or one port. -/
  | perst (a b : Bool)
  /-- PATROL_SCRUB (R295): The patrol scrubber reads and corrects G7 DRAM. -/
  | patrolScrub (addr : Nat)
  /-- VERTICAL_BUS_TEST (R293): The background tester checks one vertical bus. -/
  | verticalBusTest (c bus : Nat) (pass : Bool)
  /-- SMP_PUSH_COMPLETION (R242): The sampling unit finishes reading every logit of an smp.push, and the crew's
  sampling counter retires it. -/
  | smpPushCompletion (id : Nat)
  /-- STORE_APPLIED (R291): A released store, reduction or atomic is performed at its home slice or coherence point,
  and LAST_APPLIED rises. -/
  | storeApplied (c : Nat)
  /-- FLIT_RETRY (R400): A flit arrives on a Treldy Link port with a failed CRC and is resent from the retry buffer,
  counting in RETRIES. -/
  | flitRetry (port : Nat)
  /-- RET (R113): Set PC to lr. -/
  | ret
  /-- EXIT (R115): Commit the region, discard pending results and end the thread. -/
  | exit
  /-- REGION (R120): Commit the open region and set REGION_PC. -/
  | region
  /-- JOIN (R117): Reconvergence hint that may hold the thread up to 256 clocks. -/
  | join
  /-- NOP (R119): No effect apart from writing 0 to the latch. -/
  | nop
  /-- PFENCE_RIND (R189): fence.core and request a seal without waiting. -/
  | pfenceRind
  /-- PFENCE_RIND_WAIT (R189): fence.core and park until a requested seal is valid. -/
  | pfenceRindWait
  /-- PFENCE_KEEP (R190): Order durability of space-5 stores. -/
  | pfenceKeep
  /-- PFENCE_KEEP_WAIT (R190): Park until earlier space-5 stores are durable. -/
  | pfenceKeepWait
  /-- RTE (R168): Return from a trap to TRAP_PC. -/
  | rte
  /-- BRK (R166): Raise BREAKPOINT. -/
  | brk
  /-- UNIFORM_EXIT (R167): Exit every gathered member, or end the sequencer program. -/
  | uniformExit
  /-- CURD_RECPKT (R419): Copy the current packet into the launch record. -/
  | curdRecpkt
  /-- CURD_DONE (R419): End the packet and advance HEAD. -/
  | curdDone
  /-- CURD_STOP (R419): End the packet, advance HEAD and set STOPPED. -/
  | curdStop
  /-- ENERGY_PERIOD_END (R332): At a frame-period boundary CURRENT is copied to LAST. -/
  | energyPeriodEnd
  /-- COLD_RESET (R433): Cold reset returns every register to its Reset value. -/
  | coldReset
  /-- BRING_UP (R435): The bring-up sequence from rails to live BARs. -/
  | bringUp
  /-- INPUT_UNDERVOLTAGE (R431): A 12 V input below 11.0 V for 1 ms removes card power. -/
  | inputUndervoltage
  /-- OVER_TEMPERATURE (R432): A sensor at 120 C for 10 us removes power and latches off. -/
  | overTemperature
  /-- KEEP_SCOPE_DURABLE (R292): The verified write of a space-5 store to the rind completes, and the store becomes
  durable at keep scope. -/
  | keepScopeDurable
  deriving DecidableEq, Repr

/-- The stream that an instruction stands in, or `event` (R36, R47, R419). -/
def Instr.cls : Instr → InstrClass
  | .add .. | .addImm .. | .sub .. | .subImm .. | .mad .. | .madImm .. | .mulLo .. | .mulLoImm ..
  | .mulHiI32 .. | .mulHiI32Imm .. | .mulHiN32 .. | .mulHiN32Imm .. | .add64 .. | .add64Imm .. | .sub64 ..
  | .sub64Imm .. | .shl .. | .shlImm .. | .shrN .. | .shrNImm .. | .shrI .. | .shrIImm .. | .rot ..
  | .rotImm .. | .and .. | .andImm .. | .or .. | .orImm .. | .xor .. | .xorImm .. | .andn .. | .andnImm ..
  | .minI32 .. | .minI32Imm .. | .maxI32 .. | .maxI32Imm .. | .minN32 .. | .minN32Imm .. | .maxN32 ..
  | .maxN32Imm .. | .absI32 .. | .negI32 .. | .clz .. | .popc .. | .brev .. | .bfeN32 .. | .bfeI32 ..
  | .bfi .. | .sext .. | .sextImm .. | .zext .. | .zextImm .. | .lea .. | .leaI .. | .dp4I8 .. | .dp4N8 ..
  | .dp4I8n8 .. | .mov .. | .movl .. | .movi .. | .sel .. | .cmpInteger .. | .plut .. | .bra .. | .call ..
  | .jmp .. | .callRegister .. | .ret .. | .exit .. | .region .. | .join .. | .reorder .. | .nop ..
  | .floatAdd .. | .floatSub .. | .floatMul .. | .fma .. | .floatMin .. | .floatMax .. | .minnum ..
  | .maxnum .. | .absF32 .. | .negF32 .. | .absPacked .. | .negPacked .. | .cmpF32 .. | .dot2Bf16x2 ..
  | .dot2F16x2 .. | .cscM3 .. | .cscClip .. | .rndF32 .. | .cvt .. | .qnt .. | .dqnt .. | .rcp .. | .rsqrt ..
  | .sqrt .. | .exp2 .. | .log2 .. | .sinpi .. | .cospi .. | .tanh .. | .sigm .. | .pxunpk .. | .pxpack ..
  | .xlPick .. | .xlBack .. | .xlFwd .. | .xlFlip .. | .quadSwapH .. | .quadSwapV .. | .quadSwapD ..
  | .quadBcast .. | .xlMask .. | .xlAny .. | .xlAll .. | .xlSame .. | .xlFold .. | .scanIncl ..
  | .scanExcl .. | .scanSegIncl .. | .scanSegExcl .. | .ld .. | .st .. | .ldRelaxed .. | .stRelaxed ..
  | .ldAcq .. | .stRel .. | .atom .. | .atomCasB32 .. | .atomCasB64 .. | .red .. | .fence .. | .pfenceRind ..
  | .pfenceRindWait .. | .pfenceKeep .. | .pfenceKeepWait .. | .stashMap .. | .stashUnmap .. | .stashFlush ..
  | .prefetch .. | .barArrive .. | .barWait .. | .tbInit .. | .tbArrive .. | .tbExpect .. | .tbWait ..
  | .tbTest .. | .qbind .. | .qpush .. | .qpushr .. | .qpop .. | .qstat .. | .ticketTake .. | .srd ..
  | .xeCopy .. | .xeRagged .. | .xeBtab .. | .xeGather .. | .xeCbx .. | .xeLut .. | .xeFill .. | .smpCfg ..
  | .smpPush .. | .smpDraw .. | .rtTrace .. | .rtCont .. | .rtPop .. | .collReady .. | .collWait ..
  | .ropeArrive .. | .ropeStatus .. => .lane
  | .uniformAdd .. | .uniformAddImm .. | .uniformSub .. | .uniformSubImm .. | .uniformMulLo ..
  | .uniformMulLoImm .. | .uniformMulHiI64 .. | .uniformMulHiI64Imm .. | .uniformMulHiN64 ..
  | .uniformMulHiN64Imm .. | .uniformShl .. | .uniformShlImm .. | .uniformShrN .. | .uniformShrNImm ..
  | .uniformShrI .. | .uniformShrIImm .. | .uniformRot .. | .uniformRotImm .. | .uniformAnd ..
  | .uniformAndImm .. | .uniformOr .. | .uniformOrImm .. | .uniformXor .. | .uniformXorImm ..
  | .uniformAndn .. | .uniformAndnImm .. | .uniformMinI64 .. | .uniformMaxI64 .. | .uniformMinN64 ..
  | .uniformMaxN64 .. | .uniformClz .. | .uniformPopc .. | .uniformBrev .. | .uniformBfeN64 ..
  | .uniformBfeI64 .. | .uniformBfi .. | .uniformMov .. | .uniformMovi .. | .setEq .. | .setNe ..
  | .setLtI64 .. | .setLeI64 .. | .setGtI64 .. | .setGeI64 .. | .setLtN64 .. | .setLeN64 .. | .setGtN64 ..
  | .setGeN64 .. | .uniformMovl .. | .bz .. | .bnz .. | .br .. | .uniformCall .. | .uniformJmp ..
  | .uniformRet .. | .mfs .. | .mts .. | .rdtime .. | .waitTime .. | .waitCnt .. | .spawn .. | .joinDec ..
  | .yield .. | .trap .. | .rte .. | .brk .. | .uniformExit .. | .uniformLd .. | .uniformSt ..
  | .uniformLdAcqDev .. | .uniformStRelDev .. => .uniform
  | .mma .. | .mmo .. | .xload .. | .xpop .. | .cbload .. | .azero .. | .aload .. | .adrain .. | .adrainT ..
  | .adrainQ .. | .ack .. | .afix .. => .matrix
  | .curdLdi .. | .curdLdh .. | .curdAddi .. | .curdMov .. | .curdAdd .. | .curdSub .. | .curdAnd ..
  | .curdOr .. | .curdXor .. | .curdShl .. | .curdShr .. | .curdSlt .. | .curdPkt .. | .curdRec ..
  | .curdRecpkt .. | .curdLd .. | .curdSt .. | .curdTime .. | .semwait .. | .semadd .. | .semset ..
  | .wtime .. | .curdLaunch .. | .lwait .. | .curdCmd .. | .curdBz .. | .curdBnz .. | .curdJmp ..
  | .curdLoop .. | .curdDone .. | .curdStop .. => .curd
  | .queueInstall .. | .queueRestart .. | .contextInstall .. | .boundsPublish .. | .decodeInstall ..
  | .curdInstall .. | .streamInstall .. | .tileInstall .. | .imageStage .. | .handover .. | .attest ..
  | .publish .. | .replay .. | .replayStale .. | .qTail .. | .semValue .. | .semAdd .. | .semClaim ..
  | .fqHead .. | .fqBase .. | .fqSize .. | .poolSplit .. | .poolSplitComplete .. | .colGateReq ..
  | .colGatePowerUp .. | .ptpStep .. | .rejoin .. | .bar0LowerHalfWrite .. | .registerWrite ..
  | .hostBar2Access .. | .pickRun .. | .instructionFetch .. | .longLatencyResult .. | .parkedRunResume ..
  | .engineCounterRoom .. | .waitTimeExpiry .. | .tbWaitTimeout .. | .sequencerParkResume .. | .trapEntry ..
  | .memEcc .. | .hostCompletion .. | .mxFeed .. | .peerAccessRefused .. | .yieldReq .. | .yieldReqRepeat ..
  | .tbPhaseCompletion .. | .transferSectorWrite .. | .transferCompletion .. | .xeLutHeld ..
  | .smpDrawEvaluate .. | .rayTraversal .. | .hitRecord .. | .collMessage .. | .collEntryCompletion ..
  | .collHeartbeat .. | .partnerLost .. | .linkProcessorStop .. | .linkProcessorImageStart ..
  | .peerInboundAccess .. | .linkStateChange .. | .streamPacket .. | .frameSettleTimeout ..
  | .transmitChoice .. | .transmitPacket .. | .ptpSync .. | .ropeArrivalMessage .. | .ropeDecision ..
  | .ropeHeartbeat .. | .energyPeriodEnd .. | .hwLevelRise .. | .hwLevelFall .. | .localityLossHalving ..
  | .pageWalk .. | .workgroupFault .. | .workgroupEnd .. | .serialPhase .. | .redundantCompare ..
  | .launchCompletion .. | .boundFieldResolve .. | .launchEligible .. | .workgroupPlace .. | .coreTakeWork ..
  | .stealAttempt .. | .curdPacket .. | .curdCompletionRun .. | .curdResume .. | .curdBudgetExhausted ..
  | .shadowWriteBehind .. | .sealCapture .. | .sealValid .. | .columnSupplyFailure .. | .coreRecovery ..
  | .firmwareCoreRestore .. | .coldReset .. | .bringUp .. | .perst .. | .inputUndervoltage ..
  | .overTemperature .. | .patrolScrub .. | .verticalBusTest .. | .smpPushCompletion .. | .storeApplied ..
  | .keepScopeDurable .. | .flitRetry .. => .event

end Sys2Proof
end

