-- ==== Sys2Proof/WellFormed.lean ====
section
/-!
DEFINITION. Well-formed instructions: which operand codes each field takes (R39 to R42, R45, R46, R450)
and which field values are defined (R43, R56, R57, R59, R60). The decoder refuses what is not
well-formed with the cause and subcode of R52 and R453.
-/

namespace Sys2Proof

/-- The first answer among some checks. -/
def firstSome {α : Type} : List (Option α) → Option α
  | [] => none
  | some x :: _ => some x
  | none :: xs => firstSome xs

/-- An operand code that a check refuses is the subcode of BAD_OPERAND (R52). -/
def need (c : Code) (ok : Bool) : Option Byte := if ok then none else some (c.setWidth 8)

/-- A 32-bit source in a d or a field: every code but 127 (R39). -/
def src32 (c : Code) : Option Byte := need c (c != 127#7)
/-- A 32-bit b operand: every code, 127 standing for the literal (R39, R41). -/
def bSrc32 : BSrc → Option Byte
  | .code c => need c (c != 127#7)
  | .lit _ => none
/-- A Value operand of an engine word: a lane register, a latch, g0 to g7 or a literal (R243), or 120, which a program
of the spec has there (20_programs_render_ingest.md; log entry 101, DEDUCED). -/
def valueSrc : BSrc → Option Byte
  | .code c => need c (decide (c.toNat < 104) || decide (112 ≤ c.toNat ∧ c.toNat ≤ 120))
  | .lit _ => none
/-- A 32-bit destination: v, latch, queue or 120 (R39). -/
def dst32 (c : Code) : Option Byte := need c (decide (c.toNat < 112) || c == 120#7)
/-- A 32-bit destination that is also read: no queue code (R98). -/
def rmw32 (c : Code) : Option Byte := need c (decide (c.toNat < 104) || c == 120#7)
/-- A 32-bit destination of a long-latency instruction: v or 120 (R450). -/
def dstLong (c : Code) : Option Byte := need c (decide (c.toNat < 96) || c == 120#7)
/-- A lane register, codes 0 to 95 only (R181, R184, R202, R243). -/
def vreg (c : Code) : Option Byte := need c (decide (c.toNat < 96))
/-- A register pair, even codes below 96 (R40). -/
def vpair (c : Code) : Option Byte := need c (decide (c.toNat < 96 ∧ c.toNat % 2 = 0))
/-- A register quad, multiples of 4 below 96 (R40). -/
def vquad (c : Code) : Option Byte := need c (decide (c.toNat < 96 ∧ c.toNat % 4 = 0))
/-- A pair operand that is read (R40). -/
def srcPair (c : Code) : Option Byte :=
  need c (if c.toNat < 96 then decide (c.toNat % 2 = 0)
    else !(decide (104 ≤ c.toNat ∧ c.toNat < 112)) && c != 127#7)
/-- A pair operand in a b field: as `srcPair`, or the sign-extended literal (R40). -/
def bPair : BSrc → Option Byte
  | .code c => srcPair c
  | .lit _ => none
/-- A pair destination (R40). -/
def dstPair (c : Code) : Option Byte :=
  need c (if c.toNat < 96 then decide (c.toNat % 2 = 0) else decide (c.toNat < 104) || c == 120#7)
/-- A pair destination of a long-latency instruction (R40, R450). -/
def dstPairLong (c : Code) : Option Byte :=
  need c (decide (c.toNat < 96 ∧ c.toNat % 2 = 0) || c == 120#7)
/-- A quad that is read or written (R40). -/
def quadOp (c : Code) : Option Byte :=
  need c (decide (c.toNat < 96 ∧ c.toNat % 4 = 0) || c == 120#7)
/-- A queue code (R39, R200, R202). -/
def queueCode (c : Code) : Option Byte := need c (decide (104 ≤ c.toNat ∧ c.toNat < 112))
/-- A mask code (R42). -/
def maskCode (c : Code) : Option Byte :=
  need c (if c.toNat < 96 then decide (c.toNat % 2 = 0) else decide (112 ≤ c.toNat ∧ c.toNat ≤ 120))
/-- The data field of a store or reduction of 1 to 4 B: v, g0 to g7 or 120 (R40, R181, R187). -/
def stData32 (c : Code) : Option Byte :=
  need c (decide (c.toNat < 96 ∨ (112 ≤ c.toNat ∧ c.toNat ≤ 120)))
/-- The data field of an 8-B store: a pair, g0 to g7 or 120 (R181). -/
def stData64 (c : Code) : Option Byte :=
  need c (if c.toNat < 96 then decide (c.toNat % 2 = 0) else decide (112 ≤ c.toNat ∧ c.toNat ≤ 120))
/-- A tile operand of a UM word (R46). -/
def umTile (c : BitVec 8) : Option Byte := if c.toNat < 4 then none else some c
/-- A pair operand of a UM word (R46). -/
def umPair (c : BitVec 8) : Option Byte :=
  if 16 ≤ c.toNat ∧ c.toNat % 2 = 0 then none else some c
/-- A tile or pair operand of a UM word (R46). -/
def umAny (c : BitVec 8) : Option Byte :=
  if c.toNat < 4 ∨ (16 ≤ c.toNat ∧ c.toNat % 2 = 0) then none else some c

/-- The cvt forms that read b (R132). -/
def cvtReadsB (k : BitVec 5) : Bool := k == 8#5 || k == 9#5 || decide (12 ≤ k.toNat ∧ k.toNat < 16)
/-- The cvt forms that read d (R123, R132). -/
def cvtReadsD (k : BitVec 5) : Bool := decide (12 ≤ k.toNat ∧ k.toNat < 16)

/-- The size in bytes that the size index z of ld selects (R57, R181). -/
def ldSize (z : BitVec 3) : Nat :=
  match z.toNat with
  | 0 => 1 | 1 => 1 | 2 => 2 | 3 => 2 | 4 => 4 | 5 => 8 | _ => 16
/-- The size in bytes that the size index z of st selects (R57, R181). -/
def stSize (z : BitVec 3) : Nat :=
  match z.toNat with
  | 0 => 1 | 1 => 2 | 2 => 4 | 3 => 8 | _ => 16
/-- The size in bytes of the operand of atom k (R57, R184). -/
def atomSize (k : BitVec 4) : Nat := if k == 1#4 || k == 11#4 then 8 else 4
/-- The size in bytes of the operand of red k (R57, R187). -/
def redSize (k : BitVec 4) : Nat := if k == 1#4 then 8 else 4

/-- The destination field of a load of `size` bytes (R181). -/
def ldDst (size : Nat) (c : Code) : Option Byte :=
  if size ≤ 4 then vreg c else if size = 8 then vpair c else vquad c
/-- The data field of a store of `size` bytes (R181). -/
def stSrc (size : Nat) (c : Code) : Option Byte :=
  if size ≤ 4 then stData32 c else if size = 8 then stData64 c else quadOp c

/-- The operand code that the word's operation does not allow, if any: the subcode of BAD_OPERAND
(R39 to R42, R46, R52, R450). Fields are looked at from the high bits down, the mask word last. -/
def Instr.operandErr : Instr → Option Byte
  | .add d a b | .sub d a b | .mulLo d a b | .mulHiI32 d a b | .mulHiN32 d a b
  | .shl d a b | .shrN d a b | .shrI d a b | .rot d a b
  | .and d a b | .or d a b | .xor d a b | .andn d a b
  | .minI32 d a b | .maxI32 d a b | .minN32 d a b | .maxN32 d a b
  | .bfeN32 d a b | .bfeI32 d a b | .sext d a b | .zext d a b | .sel _ d a b
  | .floatAdd _ _ d a b | .floatSub _ _ d a b | .floatMul _ _ d a b
  | .floatMin _ d a b | .floatMax _ d a b | .minnum _ d a b | .maxnum _ d a b
  | .cscClip d a b | .dqnt _ d a b => firstSome [dst32 d, src32 a, bSrc32 b]
  | .addImm d a _ | .subImm d a _ | .mulLoImm d a _ | .mulHiI32Imm d a _ | .mulHiN32Imm d a _
  | .shlImm d a _ | .shrNImm d a _ | .shrIImm d a _ | .rotImm d a _
  | .andImm d a _ | .orImm d a _ | .xorImm d a _ | .andnImm d a _
  | .minI32Imm d a _ | .maxI32Imm d a _ | .minN32Imm d a _ | .maxN32Imm d a _
  | .sextImm d a _ | .zextImm d a _
  | .absI32 d a | .negI32 d a | .clz d a | .popc d a | .brev d a | .mov d a
  | .absF32 d a | .negF32 d a | .absPacked d a | .negPacked d a | .rndF32 _ d a =>
    firstSome [dst32 d, src32 a]
  | .mad d a b | .bfi d a b | .dp4I8 d a b | .dp4N8 d a b | .dp4I8n8 d a b
  | .fma _ _ d a b | .dot2Bf16x2 d a b | .dot2F16x2 d a b => firstSome [rmw32 d, src32 a, bSrc32 b]
  | .madImm d a _ => firstSome [rmw32 d, src32 a]
  | .add64 d a b | .sub64 d a b => firstSome [dstPair d, srcPair a, bPair b]
  | .add64Imm d a _ | .sub64Imm d a _ => firstSome [dstPair d, srcPair a]
  | .lea _ d a b | .leaI _ d a b => firstSome [dstPair d, srcPair a, bSrc32 b]
  | .movl d _ | .movi d _ | .ticketTake d => dst32 d
  | .cmpInteger t _ _ a b =>
    if t.toNat < 2 then firstSome [src32 a, bSrc32 b] else firstSome [srcPair a, bPair b]
  | .plut .. | .bra .. | .call .. | .ret | .exit | .region | .join | .nop => none
  | .jmp a | .callRegister a => srcPair a
  | .reorder a => src32 a
  | .cmpF32 _ _ a b => firstSome [src32 a, bSrc32 b]
  | .cscM3 d a b => firstSome [dst32 d, srcPair a, bPair b]
  | .cvt k _ d a b =>
    firstSome [if cvtReadsD k then rmw32 d else dst32 d, src32 a, if cvtReadsB k then bSrc32 b else none]
  | .qnt _ rs _ d a b => firstSome [if rs then rmw32 d else dst32 d, src32 a, bSrc32 b]
  | .rcp d a | .rsqrt d a | .sqrt d a | .exp2 d a | .log2 d a | .sinpi d a | .cospi d a
  | .tanh d a | .sigm d a => firstSome [dstLong d, src32 a]
  | .pxunpk _ d a b => firstSome [dstPair d, quadOp a, bSrc32 b]
  | .pxpack _ d a b => firstSome [quadOp d, srcPair a, bSrc32 b]
  | .xlPick d a b m | .xlBack d a b m | .xlFwd d a b m | .xlFlip d a b m | .quadBcast d a b m =>
    firstSome [dst32 d, src32 a, bSrc32 b, maskCode m]
  | .quadSwapH d a m | .quadSwapV d a m | .quadSwapD d a m | .xlFold _ d a m
  | .scanIncl _ d a m | .scanExcl _ d a m => firstSome [dst32 d, src32 a, maskCode m]
  | .xlSame d a m => firstSome [dstPair d, src32 a, maskCode m]
  | .xlMask d _ m => firstSome [dstPair d, maskCode m]
  | .xlAny _ _ m | .xlAll _ _ m => maskCode m
  | .scanSegIncl _ d a b m | .scanSegExcl _ d a b m =>
    firstSome [dst32 d, src32 a, bPair b, maskCode m]
  | .ld z _ d a _ => firstSome [ldDst (ldSize z) d, srcPair a]
  | .st z _ s a _ => firstSome [stSrc (stSize z) s, srcPair a]
  | .ldRelaxed w d a _ | .ldAcq _ w d a _ => firstSome [ldDst (if w then 8 else 4) d, srcPair a]
  | .stRelaxed w s a _ | .stRel _ w s a _ => firstSome [stSrc (if w then 8 else 4) s, srcPair a]
  | .atom k d a _ => firstSome [if atomSize k = 8 then vpair d else vreg d, srcPair a]
  | .atomCasB32 d a _ => firstSome [vpair d, srcPair a]
  | .atomCasB64 d a _ => firstSome [vquad d, srcPair a]
  | .red k s a _ => firstSome [stSrc (redSize k) s, srcPair a]
  | .fence _ | .pfenceRind | .pfenceRindWait | .pfenceKeep | .pfenceKeepWait => none
  | .stashMap d a b => firstSome [dstLong d, srcPair a, bPair b]
  | .stashUnmap b | .stashFlush b => bSrc32 b
  | .rtCont b => valueSrc b
  | .prefetch a b => firstSome [srcPair a, bSrc32 b]
  | .barArrive d a b => firstSome [dstLong d, src32 a, bSrc32 b]
  | .barWait a b => firstSome [src32 a, bSrc32 b]
  | .tbInit a b | .tbExpect a b => firstSome [srcPair a, bSrc32 b]
  | .tbArrive d a b => firstSome [dstLong d, srcPair a, bSrc32 b]
  | .tbWait d a b | .tbTest d a b => firstSome [dst32 d, srcPair a, bSrc32 b]
  | .qbind d a b => firstSome [queueCode d, srcPair a, bSrc32 b]
  | .qpush d a => firstSome [queueCode d, src32 a]
  | .qpushr d a b => firstSome [queueCode d, vreg a, bSrc32 b]
  | .qpop d a => firstSome [dstLong d, queueCode a]
  | .qstat d a => firstSome [dst32 d, queueCode a]
  | .srd d a b => firstSome [dstPairLong d, src32 a, bSrc32 b]
  | .xeCopy d a b | .xeRagged d a b | .xeBtab d a b | .xeGather d a b | .xeCbx d a b
  | .xeFill d a b => firstSome [dst32 d, srcPair a, bPair b]
  | .xeLut a b => firstSome [srcPair a, valueSrc b]
  | .smpCfg a => srcPair a
  | .smpPush a b => firstSome [srcPair a, bPair b]
  | .smpDraw d a => firstSome [dstLong d, srcPair a]
  | .rtTrace d a b => firstSome [queueCode d, vreg a, valueSrc b]
  | .rtPop d a => firstSome [quadOp d, queueCode a]
  | .collReady a b => firstSome [srcPair a, valueSrc b]
  | .collWait d a b => firstSome [dst32 d, srcPair a, valueSrc b]
  | .ropeArrive d a b => firstSome [dst32 d, srcPair a, valueSrc b]
  | .ropeStatus d a b => firstSome [dstPairLong d, srcPair a, valueSrc b]
  | .mma _ _ _ _ a b _ _ => firstSome [umAny a, umAny b]
  | .mmo _ a | .cbload _ a _ _ | .aload _ a _ _ | .adrain _ a _ _ | .ack _ a _ | .afix _ a => umPair a
  | .xload a b _ => firstSome [umTile a, umPair b]
  | .xpop a | .adrainQ _ a _ _ => umTile a
  | .adrainT c a b _ _ =>
    firstSome [if c.toNat % 2 = 0 then none else some (c.setWidth 8), umPair a, umPair b]
  | _ => none

/-- A source of a UR word whose variants are 0 and 7 (R45, R148). -/
def USrc.noLit : USrc → Bool
  | .lit _ => false
  | _ => true

/-- Every field holds a value that its rule defines (R43, R56, R57, R59, R60, R213, R419). -/
def Instr.fieldsOk : Instr → Bool
  | .cmpInteger _ _ cc _ _ => decide (cc.toNat < 6)
  | .cmpF32 _ cc _ _ => decide (cc.toNat < 14)
  | .floatAdd _ r _ _ _ | .floatSub _ r _ _ _ | .floatMul _ r _ _ _ | .fma _ r _ _ _
  | .rndF32 r _ _ => r != 7#3
  | .cvt k _ _ _ b => decide (k.toNat < 22) && (cvtReadsB k || b == .code 0#7)
  | .qnt _ _ f _ _ _ | .dqnt f _ _ _ => f != 7#3
  | .xlFold j _ _ _ => decide (j.toNat < 11)
  | .ld z _ _ _ _ => decide (z.toNat < 7)
  | .st z _ _ _ _ => decide (z.toNat < 5)
  | .ldAcq e _ _ _ _ | .stRel e _ _ _ _ | .fence e => decide (e.toNat < 6)
  | .atom k _ _ _ => decide (k.toNat < 12 ∨ k.toNat = 14)
  | .red k _ _ _ => decide (k.toNat < 10)
  | .waitCnt c n => decide (c.toNat < 6 ∧ n.toNat < 256)
  | .uniformLd z _ b _ => decide (z.toNat < 7) && b.noLit
  | .uniformSt z _ b => decide (z.toNat < 4) && b.noLit
  | .uniformLdAcqDev _ b _ | .uniformStRelDev _ b => b.noLit
  | .mma f _ _ _ a b advA advB =>
    decide (f.toNat < 10) && (!advA || decide (4 ≤ a.toNat)) && (!advB || decide (4 ≤ b.toNat))
  | _ => true

/-- A well-formed instruction: one that the decoder gives for some word. -/
def Instr.wf (i : Instr) : Bool := i.fieldsOk && i.operandErr.isNone

end Sys2Proof
end

