-- ==== Sys2Proof/Decode.lean ====
section
/-!
DEFINITION. The decoder of table 0 (R36 to R60), the Curd decoder (R419) and the encoder written from
the same encoding tables.
-/

namespace Sys2Proof

/-- A refused word: the cause of R52 and its subcode. -/
structure DecodeErr where
  cause : Byte
  sub : Byte
  deriving DecidableEq, Repr

/-- The d field [20:14]. -/
def fD (w : Word) : Code := w.extractLsb' 14 7
/-- The a field [13:7]. -/
def fA (w : Word) : Code := w.extractLsb' 7 7
/-- The b field [6:0]. -/
def fB (w : Word) : Code := w.extractLsb' 0 7
/-- The p field [20:18] of LP and LB. -/
def fP (w : Word) : BitVec 3 := w.extractLsb' 18 3
/-- The cc field [17:14]. -/
def fCc (w : Word) : BitVec 4 := w.extractLsb' 14 4
/-- The d field [20:13] of a uniform word. -/
def fUD (w : Word) : UReg := w.extractLsb' 13 8
/-- The b field [12:5] of a UR word. -/
def fUB (w : Word) : BitVec 8 := w.extractLsb' 5 8
/-- The imm13 or offset13 field. -/
def fImm13 (w : Word) : BitVec 13 := w.extractLsb' 0 13
/-- mod[3] of a UR word. -/
def fLo (w : Word) : Bool := w.getLsbD 3
/-- The acc field of a UM word. -/
def fAcc (w : Word) : BitVec 3 := w.extractLsb' 18 3
/-- The A code of a UM word. -/
def fUA (w : Word) : BitVec 8 := w.extractLsb' 10 8
/-- The B code of a UM word. -/
def fUMB (w : Word) : BitVec 8 := w.extractLsb' 2 8

/-- The opcode [30:21]. -/
def opcodeOf (w : Word) : Nat := (w.extractLsb' 21 10).toNat
/-- The set bit [31] and the opcode together (R36). -/
def setOpOf (w : Word) : Nat := (w.extractLsb' 21 11).toNat

/-- The b operand of an LR or LP word (R41). -/
def bSrcOf (w lit : Word) : BSrc := if fB w = 127#7 then .lit lit else .code (fB w)
/-- One literal word follows exactly when b is 127 (R41). -/
def litExt (w : Word) : Nat := if fB w = 127#7 then 1 else 0

/-- The lowest set bit of `x` at or above position `i`, looking at `n` bits. -/
def lowestBit (x : Nat) : Nat → Nat → Nat
  | i, 0 => i
  | i, n + 1 => if x.testBit i then i else lowestBit x (i + 1) n

/-- A field that must be zero: the position of its lowest set bit when it is not (R453). -/
def resv (w : Word) (hi lo : Nat) : Option Nat :=
  if fieldNat w hi lo = 0 then none else some (lowestBit w.toNat lo (hi - lo))

/-- A field that holds an undefined value: the position of its lowest bit (R453). -/
def undef (bad : Bool) (lo : Nat) : Option Nat := if bad then some lo else none

/-- The lowest of some positions (R453). -/
def minPos : List (Option Nat) → Option Nat
  | [] => none
  | none :: xs => minPos xs
  | some x :: xs => match minPos xs with
    | none => some x
    | some y => some (min x y)

/-- The instruction, or RESERVED_FIELD, or BAD_OPERAND, in the order of R53 steps 4 and 5. -/
def build (ps : List (Option Nat)) (i : Instr) : Except DecodeErr Instr :=
  match minPos ps with
  | some p => .error ⟨0x02#8, BitVec.ofNat 8 p⟩
  | none => match i.operandErr with
    | some c => .error ⟨0x07#8, c⟩
    | none => .ok i

/-- As `build`, for an instruction with a mask word, whose bits [31:7] must be zero (R42). -/
def buildMask (ps : List (Option Nat)) (mw : Word) (i : Instr) : Except DecodeErr Instr :=
  match minPos ps with
  | some p => .error ⟨0x02#8, BitVec.ofNat 8 p⟩
  | none => build [resv mw 31 7] i

/-- One opcode of table 0: its set bit and opcode, how many extension words a word of it takes, whether
it is a control transfer (R25), and the instruction of a word with its two following words. -/
structure OpRow where
  key : Nat
  ext : Word → Nat
  xfer : Bool
  dec : Word → Word → Word → Except DecodeErr Instr

/-- LR format with a b operand. -/
def rowLR (op : Nat) (f : Code → Code → BSrc → Instr) : OpRow :=
  ⟨op, litExt, false, fun w e _ => build [] (f (fD w) (fA w) (bSrcOf w e))⟩
/-- LI format, at opcode + 0x080 (R55). -/
def rowLI (op : Nat) (f : Code → Code → BitVec 7 → Instr) : OpRow :=
  ⟨op + 0x080, fun _ => 0, false, fun w _ _ => build [] (f (fD w) (fA w) (fB w))⟩
/-- LR format, b reserved. -/
def rowDA (op : Nat) (f : Code → Code → Instr) : OpRow :=
  ⟨op, fun _ => 0, false, fun w _ _ => build [resv w 6 0] (f (fD w) (fA w))⟩
/-- LR format, d reserved. -/
def rowAB (op : Nat) (f : Code → BSrc → Instr) : OpRow :=
  ⟨op, litExt, false, fun w e _ => build [resv w 20 14] (f (fA w) (bSrcOf w e))⟩
/-- LR format, d and a reserved. -/
def rowB (op : Nat) (f : BSrc → Instr) : OpRow :=
  ⟨op, litExt, false, fun w e _ => build [resv w 20 7] (f (bSrcOf w e))⟩
/-- LR format, d and b reserved. -/
def rowA (op : Nat) (xfer : Bool) (f : Code → Instr) : OpRow :=
  ⟨op, fun _ => 0, xfer, fun w _ _ => build [resv w 20 14, resv w 6 0] (f (fA w))⟩
/-- LR format, every field reserved. -/
def rowNone (op : Nat) (xfer : Bool) (i : Instr) : OpRow :=
  ⟨op, fun _ => 0, xfer, fun w _ _ => build [resv w 20 0] i⟩
/-- LM format. -/
def rowLM (op : Nat) (f : Code → Code → Code → Instr) : OpRow :=
  ⟨op, fun _ => 0, false, fun w _ _ => build [] (f (fD w) (fA w) (fB w))⟩
/-- LB format. -/
def rowLB (op : Nat) (f : BitVec 3 → Bool → BitVec 17 → Instr) : OpRow :=
  ⟨op, fun _ => 0, true, fun w _ _ => build [] (f (fP w) (w.getLsbD 17) (w.extractLsb' 0 17))⟩
/-- Cross-lane with a b operand and a mask word (R41, R42). -/
def rowXB (op : Nat) (f : Code → Code → BSrc → Code → Instr) : OpRow :=
  ⟨op, fun w => litExt w + 1, false, fun w e1 e2 =>
    let mw := if fB w = 127#7 then e2 else e1
    buildMask [] mw (f (fD w) (fA w) (bSrcOf w e1) (fB mw))⟩
/-- Cross-lane with b reserved and a mask word. -/
def rowX (op : Nat) (f : Code → Code → Code → Instr) : OpRow :=
  ⟨op, fun _ => 1, false, fun w mw _ => buildMask [resv w 6 0] mw (f (fD w) (fA w) (fB mw))⟩
/-- xl.any and xl.all: LP, cc and b reserved, a names a predicate (R145). -/
def rowXP (op : Nat) (f : BitVec 3 → BitVec 3 → Code → Instr) : OpRow :=
  ⟨op, fun _ => 1, false, fun w mw _ =>
    buildMask [resv w 17 14, resv w 13 10, resv w 6 0] mw (f (fP w) (w.extractLsb' 7 3) (fB mw))⟩

/-- The source of a UR word (R45). -/
def uSrcOf (w lit : Word) : USrc :=
  if w.extractLsb' 0 3 = 7#3 then .lit lit
  else if w.getLsbD 4 then .latch (w.extractLsb' 5 3) else .reg (fUB w)
/-- What R45 asks of b and mod of a UR word whose variants are 0 and 7. -/
def urChecks (w : Word) : List (Option Nat) :=
  let v := fieldNat w 2 0
  [undef (decide (0 < v ∧ v < 7)) 0,
   if v = 7 then resv w 12 5 else if w.getLsbD 4 then resv w 12 8 else none,
   if v = 7 then resv w 4 4 else none]
/-- What R45 asks of b and mod of a UR word with a source and no literal. -/
def urLatchChecks (w : Word) : List (Option Nat) :=
  [if w.getLsbD 4 then resv w 12 8 else none]
/-- Variant 7 takes one literal word (R45). -/
def urExt (w : Word) : Nat := if w.extractLsb' 0 3 = 7#3 then 1 else 0

/-- UR format, variants 0 and 7. -/
def rowUR (op : Nat) (f : UReg → USrc → Bool → Instr) : OpRow :=
  ⟨0x400 + op, urExt, false, fun w e _ => build (urChecks w) (f (fUD w) (uSrcOf w e) (fLo w))⟩
/-- UI format, at opcode + 0x080 (R58). -/
def rowUI (op : Nat) (f : UReg → BitVec 13 → Instr) : OpRow :=
  ⟨0x400 + op + 0x080, fun _ => 0, false, fun w _ _ => build [] (f (fUD w) (fImm13 w))⟩
/-- UR format, d reserved. -/
def rowURs (op : Nat) (xfer : Bool) (f : USrc → Bool → Instr) : OpRow :=
  ⟨0x400 + op, urExt, xfer, fun w e _ => build (resv w 20 13 :: urChecks w) (f (uSrcOf w e) (fLo w))⟩
/-- UR format, d and mod[3] reserved (R163, R165). -/
def rowURsp (op : Nat) (xfer : Bool) (f : USrc → Instr) : OpRow :=
  ⟨0x400 + op, urExt, xfer, fun w e _ =>
    build (resv w 20 13 :: resv w 3 3 :: urChecks w) (f (uSrcOf w e))⟩
/-- UB format. -/
def rowUB (op : Nat) (f : UReg → BitVec 13 → Instr) : OpRow :=
  ⟨0x400 + op, fun _ => 0, true, fun w _ _ => build [] (f (fUD w) (fImm13 w))⟩
/-- A uniform word with every field reserved. -/
def rowUNone (op : Nat) (i : Instr) : OpRow :=
  ⟨0x400 + op, fun _ => 0, true, fun w _ _ => build [resv w 20 0] i⟩
/-- UM format; `z` lists the fields that must be zero. -/
def rowUM (op : Nat) (z : List (Nat × Nat)) (f : Word → Instr) : OpRow :=
  ⟨0x400 + op, fun _ => 0, false, fun w _ _ => build (z.map fun p => resv w p.1 p.2) (f w)⟩

/-- An advance bit of a tile operand is reserved (R212). -/
def advCheck (w : Word) (c : BitVec 8) (pos : Nat) : Option Nat :=
  if c.toNat < 4 then resv w pos pos else none

/-- The lane integer opcodes of R55, LR forms with b. -/
def rowsIntLR : List OpRow :=
  [rowLR 0x0 .add,
   rowLR 0x1 .sub,
   rowLR 0x2 .mad,
   rowLR 0x3 .mulLo,
   rowLR 0x4 .mulHiI32,
   rowLR 0x5 .mulHiN32,
   rowLR 0x6 .add64,
   rowLR 0x7 .sub64,
   rowLR 0x8 .shl,
   rowLR 0x9 .shrN,
   rowLR 0xa .shrI,
   rowLR 0xb .rot,
   rowLR 0xc .and,
   rowLR 0xd .or,
   rowLR 0xe .xor,
   rowLR 0xf .andn,
   rowLR 0x10 .minI32,
   rowLR 0x11 .maxI32,
   rowLR 0x12 .minN32,
   rowLR 0x13 .maxN32,
   rowLR 0x1c .sext,
   rowLR 0x1d .zext,
   rowLR 0x19 .bfeN32,
   rowLR 0x1a .bfeI32,
   rowLR 0x1b .bfi,
   rowLR 0x28 .dp4I8,
   rowLR 0x29 .dp4N8,
   rowLR 0x2a .dp4I8n8]

/-- The lane integer opcodes of R55, LI forms. -/
def rowsIntLI : List OpRow :=
  [rowLI 0x0 .addImm,
   rowLI 0x1 .subImm,
   rowLI 0x2 .madImm,
   rowLI 0x3 .mulLoImm,
   rowLI 0x4 .mulHiI32Imm,
   rowLI 0x5 .mulHiN32Imm,
   rowLI 0x6 .add64Imm,
   rowLI 0x7 .sub64Imm,
   rowLI 0x8 .shlImm,
   rowLI 0x9 .shrNImm,
   rowLI 0xa .shrIImm,
   rowLI 0xb .rotImm,
   rowLI 0xc .andImm,
   rowLI 0xd .orImm,
   rowLI 0xe .xorImm,
   rowLI 0xf .andnImm,
   rowLI 0x10 .minI32Imm,
   rowLI 0x11 .maxI32Imm,
   rowLI 0x12 .minN32Imm,
   rowLI 0x13 .maxN32Imm,
   rowLI 0x1c .sextImm,
   rowLI 0x1d .zextImm]

/-- The lane one-source, move, select, compare and predicate opcodes of R55. -/
def rowsIntMisc : List OpRow :=
  [rowDA 0x14 .absI32,
   rowDA 0x15 .negI32,
   rowDA 0x16 .clz,
   rowDA 0x17 .popc,
   rowDA 0x18 .brev,
   rowDA 0x2d .mov,
   ⟨0x02e, litExt, false, fun w e _ =>
     build [resv w 13 7, resv (w ^^^ 0x7f#32) 6 0] (.movl (fD w) e)⟩,
   ⟨0x0ad, fun _ => 0, false, fun w _ _ => build [resv w 13 7] (.movi (fD w) (fB w))⟩,
   ⟨0x048, fun _ => 0, false, fun w _ _ => build [resv w 13 10, resv w 6 3]
     (.plut (fP w) (fCc w) (w.extractLsb' 7 3) (w.extractLsb' 0 3))⟩] ++
  (List.range 4).map (fun n => rowLR (0x020 + n) (.lea (BitVec.ofNat 2 n))) ++
  (List.range 4).map (fun n => rowLR (0x024 + n) (.leaI (BitVec.ofNat 2 n))) ++
  (List.range 8).map (fun n => rowLR (0x030 + n) (.sel (BitVec.ofNat 3 n))) ++
  (List.range 4).map (fun t => ⟨0x040 + t, litExt, false, fun w e _ =>
    build [undef (decide (6 ≤ (fCc w).toNat)) 14]
      (.cmpInteger (BitVec.ofNat 2 t) (fP w) (fCc w) (fA w) (bSrcOf w e))⟩)

/-- The control and region opcodes of R55. -/
def rowsControl : List OpRow :=
  [rowLB 0x100 .bra, rowLB 0x101 .call, rowA 0x102 true .jmp, rowA 0x103 true .callRegister,
   rowNone 0x104 true .ret, rowNone 0x105 true .exit, rowNone 0x106 false .region,
   rowNone 0x107 false .join, rowA 0x108 false .reorder, rowNone 0x109 false .nop]

/-- The element type of a type index (R126). -/
def fTyOf (t : Nat) : FTy := if t = 0 then .f32 else if t = 1 then .f16x2 else .bf16x2
/-- The type index of an element type (R126). -/
def FTy.idx : FTy → Nat
  | .f32 => 0 | .f16x2 => 1 | .bf16x2 => 2

/-- add, sub, mul and fma of one type (R56, R126). -/
def rowsFloatArith (t : Nat) : List OpRow :=
  (List.range 7).map (fun r => rowLR (0x180 + 0x20 * t + r) (.floatAdd (fTyOf t) (BitVec.ofNat 3 r))) ++
  (List.range 7).map (fun r => rowLR (0x188 + 0x20 * t + r) (.floatSub (fTyOf t) (BitVec.ofNat 3 r))) ++
  (List.range 7).map (fun r => rowLR (0x190 + 0x20 * t + r) (.floatMul (fTyOf t) (BitVec.ofNat 3 r))) ++
  (List.range 7).map (fun r => rowLR (0x198 + 0x20 * t + r) (.fma (fTyOf t) (BitVec.ofNat 3 r)))

/-- Minimum and maximum of one type (R127). -/
def rowsFloatMinMax (t : Nat) : List OpRow :=
  [rowLR (0x1e0 + 4 * t) (.floatMin (fTyOf t)), rowLR (0x1e1 + 4 * t) (.floatMax (fTyOf t)),
   rowLR (0x1e2 + 4 * t) (.minnum (fTyOf t)), rowLR (0x1e3 + 4 * t) (.maxnum (fTyOf t))]

/-- The other float opcodes of R56. -/
def rowsFloatMisc : List OpRow :=
  [rowDA 0x1ec .absF32, rowDA 0x1ed .negF32, rowDA 0x1ee .absPacked, rowDA 0x1ef .negPacked,
   ⟨0x1f0, litExt, false, fun w e _ => build [undef (decide (14 ≤ (fCc w).toNat)) 14]
     (.cmpF32 (fP w) (fCc w) (fA w) (bSrcOf w e))⟩,
   rowLR 0x1f1 .dot2Bf16x2, rowLR 0x1f2 .dot2F16x2, rowLR 0x1f3 .cscM3, rowLR 0x1f4 .cscClip] ++
  (List.range 7).map (fun r => rowDA (0x1f8 + r) (.rndF32 (BitVec.ofNat 3 r)))

/-- The conversions (R132): b is reserved except in forms 8, 9 and 12 to 15. -/
def rowCvt (n : Nat) : OpRow :=
  let k := BitVec.ofNat 5 (n / 2)
  ⟨0x200 + n, fun w => if cvtReadsB k then litExt w else 0, false, fun w e _ =>
    build [if cvtReadsB k then none else resv w 6 0]
      (.cvt k (n % 2 == 1) (fD w) (fA w) (if cvtReadsB k then bSrcOf w e else .code (fB w)))⟩

/-- Conversion, quantisation, special-function and pixel opcodes of R56. -/
def rowsConvert : List OpRow :=
  (List.range 44).map rowCvt ++
  (List.range 7).map (fun f => rowLR (0x240 + f) (.qnt false false (BitVec.ofNat 3 f))) ++
  (List.range 7).map (fun f => rowLR (0x248 + f) (.qnt false true (BitVec.ofNat 3 f))) ++
  (List.range 7).map (fun f => rowLR (0x250 + f) (.qnt true false (BitVec.ofNat 3 f))) ++
  (List.range 7).map (fun f => rowLR (0x258 + f) (.qnt true true (BitVec.ofNat 3 f))) ++
  (List.range 7).map (fun f => rowLR (0x260 + f) (.dqnt (BitVec.ofNat 3 f))) ++
  [rowDA 0x268 .rcp, rowDA 0x269 .rsqrt, rowDA 0x26a .sqrt, rowDA 0x26b .exp2, rowDA 0x26c .log2,
   rowDA 0x26d .sinpi, rowDA 0x26e .cospi, rowDA 0x26f .tanh, rowDA 0x270 .sigm] ++
  (List.range 4).map (fun f => rowLR (0x278 + f) (.pxunpk (BitVec.ofNat 2 f))) ++
  (List.range 4).map (fun f => rowLR (0x27c + f) (.pxpack (BitVec.ofNat 2 f)))

/-- The cross-lane opcodes of R56. -/
def rowsCross : List OpRow :=
  [rowXB 0x280 .xlPick, rowXB 0x281 .xlBack, rowXB 0x282 .xlFwd, rowXB 0x283 .xlFlip,
   rowX 0x284 .quadSwapH, rowX 0x285 .quadSwapV, rowX 0x286 .quadSwapD, rowXB 0x287 .quadBcast,
   ⟨0x288, fun _ => 1, false, fun w mw _ => buildMask [resv w 13 10, resv w 6 0] mw
     (.xlMask (fD w) (w.extractLsb' 7 3) (fB mw))⟩,
   rowXP 0x289 .xlAny, rowXP 0x28a .xlAll, rowX 0x28b .xlSame] ++
  (List.range 11).map (fun j => rowX (0x290 + j) (.xlFold (BitVec.ofNat 4 j))) ++
  (List.range 8).map (fun j => rowX (0x2a0 + j) (.scanIncl (BitVec.ofNat 3 j))) ++
  (List.range 8).map (fun j => rowX (0x2a8 + j) (.scanExcl (BitVec.ofNat 3 j))) ++
  (List.range 8).map (fun j => rowXB (0x2b0 + j) (.scanSegIncl (BitVec.ofNat 3 j))) ++
  (List.range 8).map (fun j => rowXB (0x2b8 + j) (.scanSegExcl (BitVec.ofNat 3 j)))

/-- The load, store and ordered-access opcodes of R57. -/
def rowsLoadStore : List OpRow :=
  (List.range 28).map (fun n => rowLM (0x2c0 + n) (.ld (BitVec.ofNat 3 (n / 4)) (BitVec.ofNat 2 (n % 4)))) ++
  (List.range 20).map (fun n => rowLM (0x2e0 + n) (.st (BitVec.ofNat 3 (n / 4)) (BitVec.ofNat 2 (n % 4)))) ++
  [rowLM 0x2f4 (.ldRelaxed false), rowLM 0x2f5 (.ldRelaxed true),
   rowLM 0x2f6 (.stRelaxed false), rowLM 0x2f7 (.stRelaxed true)] ++
  (List.range 12).map (fun n => rowLM (0x300 + n) (.ldAcq (BitVec.ofNat 3 (n / 2)) (n % 2 == 1))) ++
  (List.range 12).map (fun n => rowLM (0x310 + n) (.stRel (BitVec.ofNat 3 (n / 2)) (n % 2 == 1)))

/-- The atomic, reduction and fence opcodes of R57. -/
def rowsAtomic : List OpRow :=
  (List.range 12).map (fun k => rowLM (0x320 + k) (.atom (BitVec.ofNat 4 k))) ++
  [rowLM 0x32c .atomCasB32, rowLM 0x32d .atomCasB64, rowLM 0x32e (.atom 14#4)] ++
  (List.range 10).map (fun k => rowLM (0x330 + k) (.red (BitVec.ofNat 4 k))) ++
  (List.range 6).map (fun e => rowNone (0x340 + e) false (.fence (BitVec.ofNat 3 e))) ++
  [rowNone 0x346 false .pfenceRind, rowNone 0x347 false .pfenceRindWait,
   rowNone 0x348 false .pfenceKeep, rowNone 0x349 false .pfenceKeepWait]

/-- The stash, barrier, queue, ticket and stream-status opcodes of R57. -/
def rowsSync : List OpRow :=
  [rowLR 0x34a .stashMap, rowB 0x34b .stashUnmap, rowB 0x34c .stashFlush, rowAB 0x34d .prefetch,
   rowLR 0x350 .barArrive, rowAB 0x351 .barWait, rowAB 0x352 .tbInit, rowLR 0x353 .tbArrive,
   rowAB 0x354 .tbExpect, rowLR 0x355 .tbWait, rowLR 0x356 .tbTest, rowLR 0x358 .qbind,
   rowDA 0x359 .qpush, rowLR 0x35a .qpushr, rowDA 0x35b .qpop, rowDA 0x35c .qstat,
   ⟨0x35e, fun _ => 0, false, fun w _ _ => build [resv w 13 0] (.ticketTake (fD w))⟩,
   rowLR 0x35f .srd]

/-- The engine opcodes of R57 and R243. -/
def rowsEngine : List OpRow :=
  [rowLR 0x380 .xeCopy, rowLR 0x381 .xeRagged, rowLR 0x382 .xeBtab, rowLR 0x383 .xeGather,
   rowLR 0x384 .xeCbx, rowAB 0x385 .xeLut, rowLR 0x386 .xeFill, rowA 0x390 false .smpCfg,
   rowAB 0x391 .smpPush, rowDA 0x392 .smpDraw, rowLR 0x398 .rtTrace, rowB 0x399 .rtCont,
   rowDA 0x39a .rtPop, rowAB 0x3a0 .collReady, rowLR 0x3a1 .collWait, rowLR 0x3a8 .ropeArrive,
   rowLR 0x3a9 .ropeStatus]

/-- The lane set of table 0 (R55 to R57). -/
def laneRows : List OpRow :=
  rowsIntLR ++ rowsIntLI ++ rowsIntMisc ++ rowsControl ++
  rowsFloatArith 0 ++ rowsFloatArith 1 ++ rowsFloatArith 2 ++
  rowsFloatMinMax 0 ++ rowsFloatMinMax 1 ++ rowsFloatMinMax 2 ++ rowsFloatMisc ++ rowsConvert ++
  rowsCross ++ rowsLoadStore ++ rowsAtomic ++ rowsSync ++ rowsEngine

/-- The uniform integer opcodes of R58. -/
def rowsUniformInt : List OpRow :=
  [rowUR 0x0 .uniformAdd,
   rowUR 0x1 .uniformSub,
   rowUR 0x2 .uniformMulLo,
   rowUR 0x3 .uniformMulHiI64,
   rowUR 0x4 .uniformMulHiN64,
   rowUR 0x5 .uniformShl,
   rowUR 0x6 .uniformShrN,
   rowUR 0x7 .uniformShrI,
   rowUR 0x8 .uniformRot,
   rowUR 0x9 .uniformAnd,
   rowUR 0xa .uniformOr,
   rowUR 0xb .uniformXor,
   rowUR 0xc .uniformAndn,
   rowUR 0xd .uniformMinI64,
   rowUR 0xe .uniformMaxI64,
   rowUR 0xf .uniformMinN64,
   rowUR 0x10 .uniformMaxN64,
   rowUR 0x11 .uniformClz,
   rowUR 0x12 .uniformPopc,
   rowUR 0x13 .uniformBrev,
   rowUR 0x14 .uniformBfeN64,
   rowUR 0x15 .uniformBfeI64,
   rowUR 0x16 .uniformBfi,
   rowUR 0x17 .uniformMov,
   rowUR 0x18 .setEq,
   rowUR 0x19 .setNe,
   rowUR 0x1a .setLtI64,
   rowUR 0x1b .setLeI64,
   rowUR 0x1c .setGtI64,
   rowUR 0x1d .setGeI64,
   rowUR 0x1e .setLtN64,
   rowUR 0x1f .setLeN64,
   rowUR 0x20 .setGtN64,
   rowUR 0x21 .setGeN64,
   rowUI 0x0 .uniformAddImm,
   rowUI 0x1 .uniformSubImm,
   rowUI 0x2 .uniformMulLoImm,
   rowUI 0x3 .uniformMulHiI64Imm,
   rowUI 0x4 .uniformMulHiN64Imm,
   rowUI 0x5 .uniformShlImm,
   rowUI 0x6 .uniformShrNImm,
   rowUI 0x7 .uniformShrIImm,
   rowUI 0x8 .uniformRotImm,
   rowUI 0x9 .uniformAndImm,
   rowUI 0xa .uniformOrImm,
   rowUI 0xb .uniformXorImm,
   rowUI 0xc .uniformAndnImm,
   rowUI 0x17 .uniformMovi,
   ⟨0x422, fun w => if w.extractLsb' 0 3 = 7#3 then 2 else 0, false, fun w e1 e2 =>
     build [undef (w.extractLsb' 0 3 != 7#3) 0, resv w 12 5, resv w 4 4]
       (.uniformMovl (fUD w) (e2 ++ e1) (fLo w))⟩]

/-- The uniform control, system and memory opcodes of R59. -/
def rowsUniformSys : List OpRow :=
  [rowUB 0x100 .bz, rowUB 0x101 .bnz,
   ⟨0x502, fun _ => 0, true, fun w _ _ => build [resv w 20 13] (.br (fImm13 w))⟩,
   rowUB 0x103 .uniformCall, rowURs 0x104 true .uniformJmp, rowURs 0x105 true .uniformRet,
   ⟨0x508, fun _ => 0, false, fun w _ _ => build
     [undef (decide (0 < fieldNat w 2 0)) 0, resv w 4 4] (.mfs (fUD w) (fUB w) (fLo w))⟩,
   ⟨0x509, urExt, false, fun w e _ => build (urChecks w) (.mts (fUD w) (uSrcOf w e) (fLo w))⟩,
   ⟨0x50a, fun _ => 0, false, fun w _ _ => build
     [undef (decide (0 < fieldNat w 2 0)) 0, resv w 4 4, resv w 12 5] (.rdtime (fUD w) (fLo w))⟩,
   rowURs 0x10b false .waitTime,
   ⟨0x50c, fun _ => 0, false, fun w _ _ => build
     [undef (decide (256 ≤ fieldNat w 12 0)) 0, undef (decide (6 ≤ fieldNat w 15 13)) 13, resv w 20 16]
     (.waitCnt (w.extractLsb' 13 3) (fImm13 w))⟩,
   rowURsp 0x10d false .spawn, rowUR 0x10e .joinDec, rowURsp 0x10f false .yield,
   ⟨0x510, fun _ => 0, true, fun w _ _ => build [resv w 20 13] (.trap (fImm13 w))⟩,
   rowUNone 0x111 .rte, rowUNone 0x112 .brk, rowUNone 0x113 .uniformExit,
   ⟨0x580, fun _ => 0, false, fun w _ _ => build
     (undef (fieldNat w 2 0 == 7) 0 :: urLatchChecks w)
     (.uniformLd (w.extractLsb' 0 3) (fUD w) (uSrcOf (w &&& 0xfffffff8#32) 0#32) (fLo w))⟩,
   ⟨0x581, fun _ => 0, false, fun w _ _ => build
     (undef (decide (4 ≤ fieldNat w 2 0)) 0 :: resv w 3 3 :: urLatchChecks w)
     (.uniformSt (w.extractLsb' 0 3) (fUD w) (uSrcOf (w &&& 0xfffffff8#32) 0#32))⟩,
   ⟨0x582, fun _ => 0, false, fun w _ _ => build
     (undef (decide (0 < fieldNat w 2 0)) 0 :: urLatchChecks w)
     (.uniformLdAcqDev (fUD w) (uSrcOf (w &&& 0xfffffff8#32) 0#32) (fLo w))⟩,
   ⟨0x583, fun _ => 0, false, fun w _ _ => build
     (undef (decide (0 < fieldNat w 2 0)) 0 :: resv w 3 3 :: urLatchChecks w)
     (.uniformStRelDev (fUD w) (uSrcOf (w &&& 0xfffffff8#32) 0#32))⟩]

/-- The sequencer-only opcodes of R60 and R212. -/
def rowsMatrix : List OpRow :=
  (List.range 40).map (fun n => ⟨0x600 + n, fun _ => 0, false, fun w _ _ =>
    build [advCheck w (fUA w) 0, advCheck w (fUMB w) 1]
      (.mma (BitVec.ofNat 4 (n / 4)) (n / 2 % 2 == 1) (n % 2 == 1) (fAcc w) (fUA w) (fUMB w)
        (w.getLsbD 0) (w.getLsbD 1))⟩) ++
  [rowUM 0x230 [(9, 2), (1, 0)] (fun w => .mmo (fAcc w) (fUA w)),
   rowUM 0x231 [(20, 18), (1, 1)] (fun w => .xload (fUA w) (fUMB w) (w.getLsbD 0)),
   rowUM 0x232 [(20, 18), (9, 2), (1, 0)] (fun w => .xpop (fUA w)),
   rowUM 0x233 [(9, 2)] (fun w => .cbload (fAcc w) (fUA w) (w.getLsbD 0) (w.getLsbD 1)),
   rowUM 0x234 [(17, 10), (9, 2), (1, 0)] (fun w => .azero (fAcc w)),
   rowUM 0x235 [(9, 2)] (fun w => .aload (fAcc w) (fUA w) (w.getLsbD 0) (w.getLsbD 1)),
   rowUM 0x236 [(9, 2)] (fun w => .adrain (fAcc w) (fUA w) (w.getLsbD 0) (w.getLsbD 1)),
   rowUM 0x237 [] (fun w => .adrainT (fAcc w) (fUA w) (fUMB w) (w.getLsbD 0) (w.getLsbD 1)),
   rowUM 0x238 [(9, 2)] (fun w => .adrainQ (fAcc w) (fUA w) (w.getLsbD 0) (w.getLsbD 1)),
   rowUM 0x239 [(9, 2)] (fun w => .ack (fAcc w) (fUA w) (w.extractLsb' 0 2)),
   rowUM 0x23a [(9, 2), (1, 0)] (fun w => .afix (fAcc w) (fUA w))]

/-- The uniform set of table 0 (R58 to R60). -/
def uniformRows : List OpRow := rowsUniformInt ++ rowsUniformSys ++ rowsMatrix

/-- The row of a set bit and opcode, if table 0 assigns it (R54). -/
def findRow (key : Nat) : Option OpRow :=
  (if key < 0x400 then laneRows else uniformRows).find? fun r => r.key == key

/-- A word is a trailer when its bits [31:21] are lane opcode 0x3FF (R37, R53). -/
def isTrailer (w : Word) : Bool := setOpOf w == 0x3ff

/-- The opcodes that the sequencer's stream does not allow (R47). -/
def crewOnly (key : Nat) : Bool :=
  key == 0x50d || key == 0x50e || key == 0x50f || key == 0x50c || key == 0x511

/-- Decode of a word with the two words after it, under table 0: the instruction and the number of its
extension words. Unassigned opcodes are ILLEGAL_INSTR with subcode 0 (R54). Log entry 4, DEDUCED.
Log entry 6, DESIGN CHOICE. -/
def decodeWord (w e1 e2 : Word) : Except DecodeErr (Instr × Nat) :=
  match findRow (setOpOf w) with
  | none => .error ⟨0x01#8, 0#8⟩
  | some r => match r.dec w e1 e2 with
    | .error e => .error e
    | .ok i => .ok (i, r.ext w)

/-- The sixteen Curd opcodes without operands beyond A, B and IMM; `none` where R420 finds an undefined
operation or a nonzero unused field. Log entry 6, DESIGN CHOICE. -/
noncomputable def decodeCurd (w : Word) : Option Instr :=
  let a : BitVec 4 := w.extractLsb' 20 4
  let b : BitVec 4 := w.extractLsb' 16 4
  let i : BitVec 16 := w.extractLsb' 0 16
  let s : BitVec 6 := w.extractLsb' 0 6
  let noA := a == 0#4
  let noB := b == 0#4
  let noI := i == 0#16
  let onlyIf (c : Bool) (x : Instr) : Option Instr := if c then some x else none
  match (w.extractLsb' 24 8).toNat with
  | 0x01 => onlyIf noB (.curdLdi a i)
  | 0x02 => onlyIf noB (.curdLdh a i)
  | 0x03 => onlyIf noB (.curdAddi a i)
  | 0x04 => onlyIf noI (.curdMov a b)
  | 0x05 => onlyIf noI (.curdAdd a b)
  | 0x06 => onlyIf noI (.curdSub a b)
  | 0x07 => onlyIf noI (.curdAnd a b)
  | 0x08 => onlyIf noI (.curdOr a b)
  | 0x09 => onlyIf noI (.curdXor a b)
  | 0x0a => onlyIf (noB && fieldNat w 15 6 == 0) (.curdShl a s)
  | 0x0b => onlyIf (noB && fieldNat w 15 6 == 0) (.curdShr a s)
  | 0x0c => onlyIf noI (.curdSlt a b)
  | 0x10 => onlyIf noB (.curdPkt a i)
  | 0x11 => onlyIf noB (.curdRec a i)
  | 0x12 => onlyIf (noA && noB && noI) .curdRecpkt
  | 0x13 => some (.curdLd a b i)
  | 0x14 => some (.curdSt a b i)
  | 0x15 => onlyIf (noB && noI) (.curdTime a)
  | 0x18 => onlyIf noB (.semwait a i)
  | 0x19 => onlyIf noB (.semadd a i)
  | 0x1a => onlyIf noB (.semset a i)
  | 0x1b => onlyIf (noB && noI) (.wtime a)
  | 0x1c => onlyIf (noB && noI) (.curdLaunch a)
  | 0x1d => onlyIf noI (.lwait a b)
  | 0x1e => onlyIf noI (.curdCmd a b)
  | 0x20 => onlyIf noB (.curdBz a i)
  | 0x21 => onlyIf noB (.curdBnz a i)
  | 0x22 => onlyIf (noA && noB) (.curdJmp i)
  | 0x23 => onlyIf noB (.curdLoop a i)
  | 0x24 => onlyIf (noA && noB && noI) .curdDone
  | 0x25 => onlyIf (noA && noB && noI) .curdStop
  | _ => none

/-- The instruction of a word of `nbits` bits numbered from the least significant bit of the first word,
every later bit zero. A word of the lane or uniform set comes first; a word that these refuse is read as a
Curd operation (log entry 6, DESIGN CHOICE). -/
noncomputable def decodeTableWord (nbits w : Nat) : Option Instr :=
  let x := w % 2 ^ nbits
  let w0 := BitVec.ofNat 32 x
  match decodeWord w0 (BitVec.ofNat 32 (x / 2 ^ 32)) (BitVec.ofNat 32 (x / 2 ^ 64)) with
  | .ok (i, _) => some i
  | .error _ => decodeCurd w0


/-! ## The encoder -/

/-- The b field and the literal word of a b operand (R41). -/
def BSrc.enc : BSrc → Code × List Word
  | .code c => (c, [])
  | .lit w => (127#7, [w])

/-- An LR word and its literal. -/
def encLR (op : Nat) (d a : Code) (b : BSrc) : List Word :=
  (BitVec.ofNat 11 op ++ d ++ a ++ b.enc.1 : BitVec 32) :: b.enc.2
/-- An LI or LM word, or an LR word whose b field is not an operand. -/
def encLI (op : Nat) (d a i : BitVec 7) : List Word := [(BitVec.ofNat 11 op ++ d ++ a ++ i : BitVec 32)]
/-- An LP word and its literal. -/
def encLP (op : Nat) (p : BitVec 3) (cc : BitVec 4) (a : Code) (b : BSrc) : List Word :=
  (BitVec.ofNat 11 op ++ p ++ cc ++ a ++ b.enc.1 : BitVec 32) :: b.enc.2
/-- An LB word. -/
def encLB (op : Nat) (p : BitVec 3) (s : Bool) (o : BitVec 17) : List Word :=
  [(BitVec.ofNat 11 op ++ p ++ BitVec.ofBool s ++ o : BitVec 32)]
/-- A mask word (R42). -/
def encMask (m : Code) : Word := (0#25 ++ m : BitVec 32)
/-- The b, mod[4], variant and literal of a UR source (R45). -/
def USrc.enc : USrc → BitVec 8 × Bool × BitVec 3 × List Word
  | .reg n => (n, false, 0#3, [])
  | .latch n => ((0#5 ++ n : BitVec 8), true, 0#3, [])
  | .lit w => (0#8, false, 7#3, [w])
/-- A UR word and its literal. -/
def encUR (op : Nat) (d : UReg) (b : USrc) (lo : Bool) : List Word :=
  (BitVec.ofNat 11 (0x400 + op) ++ d ++ b.enc.1 ++ BitVec.ofBool b.enc.2.1 ++ BitVec.ofBool lo ++
    b.enc.2.2.1 : BitVec 32) :: b.enc.2.2.2
/-- A UR word with a given variant and no literal. -/
def encURv (op : Nat) (d : UReg) (b : USrc) (lo : Bool) (v : BitVec 3) : List Word :=
  [(BitVec.ofNat 11 (0x400 + op) ++ d ++ b.enc.1 ++ BitVec.ofBool b.enc.2.1 ++ BitVec.ofBool lo ++ v :
    BitVec 32)]
/-- A UI or UB word. -/
def encUI (op : Nat) (d : UReg) (i : BitVec 13) : List Word :=
  [(BitVec.ofNat 11 (0x400 + op) ++ d ++ i : BitVec 32)]
/-- A UM word. -/
def encUM (op : Nat) (c : BitVec 3) (a b : BitVec 8) (m : BitVec 2) : List Word :=
  [(BitVec.ofNat 11 (0x400 + op) ++ c ++ a ++ b ++ m : BitVec 32)]
/-- A Curd word. -/
def encCurd (op : Nat) (a b : BitVec 4) (i : BitVec 16) : List Word :=
  [(BitVec.ofNat 8 op ++ a ++ b ++ i : BitVec 32)]

/-- The words of an instruction, from the encoding tables (R37, R44, R55 to R60, R419); no word for an
event. Log entry 4, DEDUCED. -/
def encode : Instr → List Word
  | .add d a b => encLR 0x0 d a b
  | .sub d a b => encLR 0x1 d a b
  | .mad d a b => encLR 0x2 d a b
  | .mulLo d a b => encLR 0x3 d a b
  | .mulHiI32 d a b => encLR 0x4 d a b
  | .mulHiN32 d a b => encLR 0x5 d a b
  | .add64 d a b => encLR 0x6 d a b
  | .sub64 d a b => encLR 0x7 d a b
  | .shl d a b => encLR 0x8 d a b
  | .shrN d a b => encLR 0x9 d a b
  | .shrI d a b => encLR 0xa d a b
  | .rot d a b => encLR 0xb d a b
  | .and d a b => encLR 0xc d a b
  | .or d a b => encLR 0xd d a b
  | .xor d a b => encLR 0xe d a b
  | .andn d a b => encLR 0xf d a b
  | .minI32 d a b => encLR 0x10 d a b
  | .maxI32 d a b => encLR 0x11 d a b
  | .minN32 d a b => encLR 0x12 d a b
  | .maxN32 d a b => encLR 0x13 d a b
  | .sext d a b => encLR 0x1c d a b
  | .zext d a b => encLR 0x1d d a b
  | .bfeN32 d a b => encLR 0x19 d a b
  | .bfeI32 d a b => encLR 0x1a d a b
  | .bfi d a b => encLR 0x1b d a b
  | .dp4I8 d a b => encLR 0x28 d a b
  | .dp4N8 d a b => encLR 0x29 d a b
  | .dp4I8n8 d a b => encLR 0x2a d a b
  | .addImm d a i => encLI 0x80 d a i
  | .subImm d a i => encLI 0x81 d a i
  | .madImm d a i => encLI 0x82 d a i
  | .mulLoImm d a i => encLI 0x83 d a i
  | .mulHiI32Imm d a i => encLI 0x84 d a i
  | .mulHiN32Imm d a i => encLI 0x85 d a i
  | .add64Imm d a i => encLI 0x86 d a i
  | .sub64Imm d a i => encLI 0x87 d a i
  | .shlImm d a i => encLI 0x88 d a i
  | .shrNImm d a i => encLI 0x89 d a i
  | .shrIImm d a i => encLI 0x8a d a i
  | .rotImm d a i => encLI 0x8b d a i
  | .andImm d a i => encLI 0x8c d a i
  | .orImm d a i => encLI 0x8d d a i
  | .xorImm d a i => encLI 0x8e d a i
  | .andnImm d a i => encLI 0x8f d a i
  | .minI32Imm d a i => encLI 0x90 d a i
  | .maxI32Imm d a i => encLI 0x91 d a i
  | .minN32Imm d a i => encLI 0x92 d a i
  | .maxN32Imm d a i => encLI 0x93 d a i
  | .sextImm d a i => encLI 0x9c d a i
  | .zextImm d a i => encLI 0x9d d a i
  | .absI32 d a => encLI 0x14 d a 0#7
  | .negI32 d a => encLI 0x15 d a 0#7
  | .clz d a => encLI 0x16 d a 0#7
  | .popc d a => encLI 0x17 d a 0#7
  | .brev d a => encLI 0x18 d a 0#7
  | .mov d a => encLI 0x2d d a 0#7
  | .movl d l => encLR 0x02e d 0#7 (.lit l)
  | .movi d i => encLI 0x0ad d 0#7 i
  | .plut p t x y => encLP 0x048 p t (0#4 ++ x) (.code (0#4 ++ y))
  | .lea n d a b => encLR (0x020 + n.toNat) d a b
  | .leaI n d a b => encLR (0x024 + n.toNat) d a b
  | .sel n d a b => encLR (0x030 + n.toNat) d a b
  | .cmpInteger t p cc a b => encLP (0x040 + t.toNat) p cc a b
  | .bra p s o => encLB 0x100 p s o
  | .call p s o => encLB 0x101 p s o
  | .jmp a => encLI 0x102 0#7 a 0#7
  | .callRegister a => encLI 0x103 0#7 a 0#7
  | .ret => encLI 0x104 0#7 0#7 0#7
  | .exit => encLI 0x105 0#7 0#7 0#7
  | .region => encLI 0x106 0#7 0#7 0#7
  | .join => encLI 0x107 0#7 0#7 0#7
  | .reorder a => encLI 0x108 0#7 a 0#7
  | .nop => encLI 0x109 0#7 0#7 0#7
  | .floatAdd t r d a b => encLR (0x180 + 0x20 * t.idx + r.toNat) d a b
  | .floatSub t r d a b => encLR (0x188 + 0x20 * t.idx + r.toNat) d a b
  | .floatMul t r d a b => encLR (0x190 + 0x20 * t.idx + r.toNat) d a b
  | .fma t r d a b => encLR (0x198 + 0x20 * t.idx + r.toNat) d a b
  | .floatMin t d a b => encLR (0x1e0 + 4 * t.idx) d a b
  | .floatMax t d a b => encLR (0x1e1 + 4 * t.idx) d a b
  | .minnum t d a b => encLR (0x1e2 + 4 * t.idx) d a b
  | .maxnum t d a b => encLR (0x1e3 + 4 * t.idx) d a b
  | .absF32 d a => encLI 0x1ec d a 0#7
  | .negF32 d a => encLI 0x1ed d a 0#7
  | .absPacked d a => encLI 0x1ee d a 0#7
  | .negPacked d a => encLI 0x1ef d a 0#7
  | .cmpF32 p cc a b => encLP 0x1f0 p cc a b
  | .dot2Bf16x2 d a b => encLR 0x1f1 d a b
  | .dot2F16x2 d a b => encLR 0x1f2 d a b
  | .cscM3 d a b => encLR 0x1f3 d a b
  | .cscClip d a b => encLR 0x1f4 d a b
  | .rndF32 r d a => encLI (0x1f8 + r.toNat) d a 0#7
  | .cvt k s d a b => encLR (0x200 + 2 * k.toNat + b2n s) d a b
  | .qnt s t f d a b => encLR (0x240 + f.toNat + 8 * b2n t + 16 * b2n s) d a b
  | .dqnt f d a b => encLR (0x260 + f.toNat) d a b
  | .rcp d a => encLI 0x268 d a 0#7
  | .rsqrt d a => encLI 0x269 d a 0#7
  | .sqrt d a => encLI 0x26a d a 0#7
  | .exp2 d a => encLI 0x26b d a 0#7
  | .log2 d a => encLI 0x26c d a 0#7
  | .sinpi d a => encLI 0x26d d a 0#7
  | .cospi d a => encLI 0x26e d a 0#7
  | .tanh d a => encLI 0x26f d a 0#7
  | .sigm d a => encLI 0x270 d a 0#7
  | .pxunpk f d a b => encLR (0x278 + f.toNat) d a b
  | .pxpack f d a b => encLR (0x27c + f.toNat) d a b
  | .xlPick d a b m => encLR 0x280 d a b ++ [encMask m]
  | .xlBack d a b m => encLR 0x281 d a b ++ [encMask m]
  | .xlFwd d a b m => encLR 0x282 d a b ++ [encMask m]
  | .xlFlip d a b m => encLR 0x283 d a b ++ [encMask m]
  | .quadSwapH d a m => encLI 0x284 d a 0#7 ++ [encMask m]
  | .quadSwapV d a m => encLI 0x285 d a 0#7 ++ [encMask m]
  | .quadSwapD d a m => encLI 0x286 d a 0#7 ++ [encMask m]
  | .quadBcast d a b m => encLR 0x287 d a b ++ [encMask m]
  | .xlMask d p m => encLI 0x288 d (0#4 ++ p) 0#7 ++ [encMask m]
  | .xlAny p x m => encLP 0x289 p 0#4 (0#4 ++ x) (.code 0#7) ++ [encMask m]
  | .xlAll p x m => encLP 0x28a p 0#4 (0#4 ++ x) (.code 0#7) ++ [encMask m]
  | .xlSame d a m => encLI 0x28b d a 0#7 ++ [encMask m]
  | .xlFold j d a m => encLI (0x290 + j.toNat) d a 0#7 ++ [encMask m]
  | .scanIncl j d a m => encLI (0x2a0 + j.toNat) d a 0#7 ++ [encMask m]
  | .scanExcl j d a m => encLI (0x2a8 + j.toNat) d a 0#7 ++ [encMask m]
  | .scanSegIncl j d a b m => encLR (0x2b0 + j.toNat) d a b ++ [encMask m]
  | .scanSegExcl j d a b m => encLR (0x2b8 + j.toNat) d a b ++ [encMask m]
  | .ld z c d a o => encLI (0x2c0 + 4 * z.toNat + c.toNat) d a o
  | .st z c s a o => encLI (0x2e0 + 4 * z.toNat + c.toNat) s a o
  | .ldRelaxed w d a o => encLI (0x2f4 + b2n w) d a o
  | .stRelaxed w s a o => encLI (0x2f6 + b2n w) s a o
  | .ldAcq e w d a o => encLI (0x300 + 2 * e.toNat + b2n w) d a o
  | .stRel e w s a o => encLI (0x310 + 2 * e.toNat + b2n w) s a o
  | .atom k d a o => encLI (0x320 + k.toNat) d a o
  | .atomCasB32 d a o => encLI 0x32c d a o
  | .atomCasB64 d a o => encLI 0x32d d a o
  | .red k s a o => encLI (0x330 + k.toNat) s a o
  | .fence e => encLI (0x340 + e.toNat) 0#7 0#7 0#7
  | .pfenceRind => encLI 0x346 0#7 0#7 0#7
  | .pfenceRindWait => encLI 0x347 0#7 0#7 0#7
  | .pfenceKeep => encLI 0x348 0#7 0#7 0#7
  | .pfenceKeepWait => encLI 0x349 0#7 0#7 0#7
  | .stashMap d a b => encLR 0x34a d a b
  | .stashUnmap b => encLR 0x34b 0#7 0#7 b
  | .stashFlush b => encLR 0x34c 0#7 0#7 b
  | .prefetch a b => encLR 0x34d 0#7 a b
  | .barArrive d a b => encLR 0x350 d a b
  | .barWait a b => encLR 0x351 0#7 a b
  | .tbInit a b => encLR 0x352 0#7 a b
  | .tbArrive d a b => encLR 0x353 d a b
  | .tbExpect a b => encLR 0x354 0#7 a b
  | .tbWait d a b => encLR 0x355 d a b
  | .tbTest d a b => encLR 0x356 d a b
  | .qbind d a b => encLR 0x358 d a b
  | .qpush d a => encLI 0x359 d a 0#7
  | .qpushr d a b => encLR 0x35a d a b
  | .qpop d a => encLI 0x35b d a 0#7
  | .qstat d a => encLI 0x35c d a 0#7
  | .ticketTake d => encLI 0x35e d 0#7 0#7
  | .srd d a b => encLR 0x35f d a b
  | .xeCopy d a b => encLR 0x380 d a b
  | .xeRagged d a b => encLR 0x381 d a b
  | .xeBtab d a b => encLR 0x382 d a b
  | .xeGather d a b => encLR 0x383 d a b
  | .xeCbx d a b => encLR 0x384 d a b
  | .xeLut a b => encLR 0x385 0#7 a b
  | .xeFill d a b => encLR 0x386 d a b
  | .smpCfg a => encLI 0x390 0#7 a 0#7
  | .smpPush a b => encLR 0x391 0#7 a b
  | .smpDraw d a => encLI 0x392 d a 0#7
  | .rtTrace d a b => encLR 0x398 d a b
  | .rtCont b => encLR 0x399 0#7 0#7 b
  | .rtPop d a => encLI 0x39a d a 0#7
  | .collReady a b => encLR 0x3a0 0#7 a b
  | .collWait d a b => encLR 0x3a1 d a b
  | .ropeArrive d a b => encLR 0x3a8 d a b
  | .ropeStatus d a b => encLR 0x3a9 d a b
  | .uniformAdd d b lo => encUR 0x0 d b lo
  | .uniformSub d b lo => encUR 0x1 d b lo
  | .uniformMulLo d b lo => encUR 0x2 d b lo
  | .uniformMulHiI64 d b lo => encUR 0x3 d b lo
  | .uniformMulHiN64 d b lo => encUR 0x4 d b lo
  | .uniformShl d b lo => encUR 0x5 d b lo
  | .uniformShrN d b lo => encUR 0x6 d b lo
  | .uniformShrI d b lo => encUR 0x7 d b lo
  | .uniformRot d b lo => encUR 0x8 d b lo
  | .uniformAnd d b lo => encUR 0x9 d b lo
  | .uniformOr d b lo => encUR 0xa d b lo
  | .uniformXor d b lo => encUR 0xb d b lo
  | .uniformAndn d b lo => encUR 0xc d b lo
  | .uniformMinI64 d b lo => encUR 0xd d b lo
  | .uniformMaxI64 d b lo => encUR 0xe d b lo
  | .uniformMinN64 d b lo => encUR 0xf d b lo
  | .uniformMaxN64 d b lo => encUR 0x10 d b lo
  | .uniformClz d b lo => encUR 0x11 d b lo
  | .uniformPopc d b lo => encUR 0x12 d b lo
  | .uniformBrev d b lo => encUR 0x13 d b lo
  | .uniformBfeN64 d b lo => encUR 0x14 d b lo
  | .uniformBfeI64 d b lo => encUR 0x15 d b lo
  | .uniformBfi d b lo => encUR 0x16 d b lo
  | .uniformMov d b lo => encUR 0x17 d b lo
  | .setEq d b lo => encUR 0x18 d b lo
  | .setNe d b lo => encUR 0x19 d b lo
  | .setLtI64 d b lo => encUR 0x1a d b lo
  | .setLeI64 d b lo => encUR 0x1b d b lo
  | .setGtI64 d b lo => encUR 0x1c d b lo
  | .setGeI64 d b lo => encUR 0x1d d b lo
  | .setLtN64 d b lo => encUR 0x1e d b lo
  | .setLeN64 d b lo => encUR 0x1f d b lo
  | .setGtN64 d b lo => encUR 0x20 d b lo
  | .setGeN64 d b lo => encUR 0x21 d b lo
  | .uniformAddImm d i => encUI 0x80 d i
  | .uniformSubImm d i => encUI 0x81 d i
  | .uniformMulLoImm d i => encUI 0x82 d i
  | .uniformMulHiI64Imm d i => encUI 0x83 d i
  | .uniformMulHiN64Imm d i => encUI 0x84 d i
  | .uniformShlImm d i => encUI 0x85 d i
  | .uniformShrNImm d i => encUI 0x86 d i
  | .uniformShrIImm d i => encUI 0x87 d i
  | .uniformRotImm d i => encUI 0x88 d i
  | .uniformAndImm d i => encUI 0x89 d i
  | .uniformOrImm d i => encUI 0x8a d i
  | .uniformXorImm d i => encUI 0x8b d i
  | .uniformAndnImm d i => encUI 0x8c d i
  | .uniformMovi d i => encUI 0x97 d i
  | .uniformMovl d v lo =>
    encURv 0x22 d (.reg 0#8) lo 7#3 ++ [v.extractLsb' 0 32, v.extractLsb' 32 32]
  | .bz g o => encUI 0x100 g o
  | .bnz g o => encUI 0x101 g o
  | .br o => encUI 0x102 0#8 o
  | .uniformCall g o => encUI 0x103 g o
  | .uniformJmp b lo => encUR 0x104 0#8 b lo
  | .uniformRet b lo => encUR 0x105 0#8 b lo
  | .mfs d n lo => encUR 0x108 d (.reg n) lo
  | .mts n b lo => encUR 0x109 n b lo
  | .rdtime d lo => encUR 0x10a d (.reg 0#8) lo
  | .waitTime b lo => encUR 0x10b 0#8 b lo
  | .waitCnt c n => encUI 0x10c (0#5 ++ c) n
  | .spawn b => encUR 0x10d 0#8 b false
  | .joinDec d b lo => encUR 0x10e d b lo
  | .yield b => encUR 0x10f 0#8 b false
  | .trap i => encUI 0x110 0#8 i
  | .rte => encUI 0x111 0#8 0#13
  | .brk => encUI 0x112 0#8 0#13
  | .uniformExit => encUI 0x113 0#8 0#13
  | .uniformLd z d b lo => encURv 0x180 d b lo z
  | .uniformSt z d b => encURv 0x181 d b false z
  | .uniformLdAcqDev d b lo => encURv 0x182 d b lo 0#3
  | .uniformStRelDev d b => encURv 0x183 d b false 0#3
  | .mma f ck z c a b m n =>
    encUM (0x200 + 4 * f.toNat + 2 * b2n ck + b2n z) c a b (BitVec.ofBool n ++ BitVec.ofBool m)
  | .mmo c a => encUM 0x230 c a 0#8 0#2
  | .xload a b m => encUM 0x231 0#3 a b (0#1 ++ BitVec.ofBool m)
  | .xpop a => encUM 0x232 0#3 a 0#8 0#2
  | .cbload c a sa sb => encUM 0x233 c a 0#8 (BitVec.ofBool sb ++ BitVec.ofBool sa)
  | .azero c => encUM 0x234 c 0#8 0#8 0#2
  | .aload c a bf m => encUM 0x235 c a 0#8 (BitVec.ofBool m ++ BitVec.ofBool bf)
  | .adrain c a bf clr => encUM 0x236 c a 0#8 (BitVec.ofBool clr ++ BitVec.ofBool bf)
  | .adrainT c a b bf clr => encUM 0x237 c a b (BitVec.ofBool clr ++ BitVec.ofBool bf)
  | .adrainQ c a bf clr => encUM 0x238 c a 0#8 (BitVec.ofBool clr ++ BitVec.ofBool bf)
  | .ack c a t => encUM 0x239 c a 0#8 t
  | .afix c a => encUM 0x23a c a 0#8 0#2
  | .curdLdi a i => encCurd 0x01 a 0#4 i
  | .curdLdh a i => encCurd 0x02 a 0#4 i
  | .curdAddi a i => encCurd 0x03 a 0#4 i
  | .curdMov a b => encCurd 0x04 a b 0#16
  | .curdAdd a b => encCurd 0x05 a b 0#16
  | .curdSub a b => encCurd 0x06 a b 0#16
  | .curdAnd a b => encCurd 0x07 a b 0#16
  | .curdOr a b => encCurd 0x08 a b 0#16
  | .curdXor a b => encCurd 0x09 a b 0#16
  | .curdShl a s => encCurd 0x0a a 0#4 (0#10 ++ s)
  | .curdShr a s => encCurd 0x0b a 0#4 (0#10 ++ s)
  | .curdSlt a b => encCurd 0x0c a b 0#16
  | .curdPkt a i => encCurd 0x10 a 0#4 i
  | .curdRec a i => encCurd 0x11 a 0#4 i
  | .curdRecpkt => encCurd 0x12 0#4 0#4 0#16
  | .curdLd a b i => encCurd 0x13 a b i
  | .curdSt a b i => encCurd 0x14 a b i
  | .curdTime a => encCurd 0x15 a 0#4 0#16
  | .semwait a i => encCurd 0x18 a 0#4 i
  | .semadd a i => encCurd 0x19 a 0#4 i
  | .semset a i => encCurd 0x1a a 0#4 i
  | .wtime a => encCurd 0x1b a 0#4 0#16
  | .curdLaunch a => encCurd 0x1c a 0#4 0#16
  | .lwait a b => encCurd 0x1d a b 0#16
  | .curdCmd a b => encCurd 0x1e a b 0#16
  | .curdBz a i => encCurd 0x20 a 0#4 i
  | .curdBnz a i => encCurd 0x21 a 0#4 i
  | .curdJmp i => encCurd 0x22 0#4 0#4 i
  | .curdLoop a i => encCurd 0x23 a 0#4 i
  | .curdDone => encCurd 0x24 0#4 0#4 0#16
  | .curdStop => encCurd 0x25 0#4 0#4 0#16
  | _ => []

end Sys2Proof
end

