-- ==== Sys2Proof/Machine/State.lean ====
section
/-!
DEFINITION. The state of the device as plain data, and its reset.
-/

namespace Sys2Proof.Machine

/-! ## Threads and crews -/

/-- A latch b0 to b7: unwritten since the run began, written by a lane instruction, or by a uniform one
(R23, R24, R45). -/
inductive Latch where
  | unwritten | lane (w : Word) | uniform (v : DWord)
  deriving DecidableEq, Repr

/-- What the trap registers receive for one trap (R170, R451). -/
structure TrapInfo where
  cause : Byte
  pc : DWord
  addr : DWord
  data : DWord
  deriving DecidableEq, Repr

/-- The binding of a queue register (R200). -/
inductive QBind where
  | unbound
  | mxfeed (x : Nat) | mxdrain (n : Nat) | ray (bvh : DWord) | hit | smp (ctx : DWord)
  | ringOut (hdr : DWord) | ringIn (hdr : DWord)
  deriving DecidableEq, Repr

/-- The value that a pending long-latency result brings (R26): words fixed already, the next element of a queue, with
the order of the reservation (R202), an uncorrectable error at a sector (R182), a host completion with an error status
(R186), the sample that a draw evaluates (R256), or the ACCESS_RIGHTS of a refused peer access (R403). -/
inductive PendVal where
  | words (ws : List Word)
  /-- The status of a deterministic launch's tb.arrive, whose object is at a key, until its phase completes
  (14 R372). -/
  | arrival (key : Nat) (w : Word)
  | element (q : BitVec 3) (order : Nat)
  | ecc (sector addr : DWord)
  | host (ea addr : DWord)
  | draw (id : Nat)
  | peer (ea data : DWord)
  /-- The old value of a released atomic that is not performed yet: its store sequence number (R184, R291). -/
  | atomic (seq : Nat)
  deriving DecidableEq, Repr

/-- A pending long-latency result: its destination code, how many registers it names, its value (R26). -/
structure Pend where
  dst : Code
  n : Nat
  val : PendVal
  deriving DecidableEq, Repr

/-- Why a thread is neither ready nor in a run (R349, R348, R342). -/
inductive ThreadWait where
  | ready
  | fault (id : Nat)        -- attached to entry `id`: restarts at REGION_PC
  | fetch (id : Nat)        -- attached for a fetch: restarts at PC
  | walker (ctx ia : Nat) (access : Byte) (pc ea : DWord)   -- the pending-fault table is full (R349)
  deriving DecidableEq, Repr

/-- A commit point of a launch with RIND_MODE 1 (R291): the address of its word, the store sequence number of the
word's own access, and whether a seal that holds both is valid. -/
structure CommitSeal where
  pc : DWord
  own : Option Nat := none
  valid : Bool := false
  deriving DecidableEq, Repr

/-- A thread (R9, R16, R21). `pc` is the address of the next run outside a run; inside one, `jump` is
where the run's end takes the thread. -/
structure Thread where
  cid : Nat
  tid : Nat
  helper : Bool := false
  exited : Bool := false
  allot : Nat := 96
  v : Vector Word 96 := .replicate 96 0
  p : Vector Bool 8 := .replicate 8 false
  b : Vector Latch 8 := .replicate 8 .unwritten
  q : Vector QBind 8 := .replicate 8 .unbound
  pc : DWord := 0
  jump : Option DWord := none
  regionPc : DWord := 0
  trapPc : DWord := 0
  trapCause : Byte := 0
  trapAddr : DWord := 0
  trapData : DWord := 0
  trapLevel : Bool := false
  stochCount : Word := 0
  reorderKey : Word := 0
  pend : List Pend := []
  /-- A trap that the thread took and whose handler the crew has not entered yet (R169). -/
  raised : Option TrapInfo := none
  /-- A trap due at the thread's next run boundary (R182, R186, R220, R403). -/
  boundary : Option TrapInfo := none
  wait : ThreadWait := .ready
  refaultCnt : Nat := 0
  refaultUnit : Option (Nat × Nat) := none
  /-- The partial packet of each queue register's feed channel (R218, R220). -/
  packet : Vector (List Word) 8 := .replicate 8 []
  /-- Elements taken off queues for words that are not complete, the newest first: the word's address, the queue code,
  the element (R99, R201); the element that the word in progress leaves for its destination queue. -/
  qin : List (DWord × Code × Word) := []
  qout : Option (Code × Word) := none
  /-- The handler that it has been sent to and whose first run has not begun (R170, R348). -/
  entering : Option DWord := none
  /-- Rays and candidates waiting for rt.cont (R262). -/
  cands : List Nat := []
  /-- The clock at which the thread became ready, and the results that have landed since its last run: first register,
  count, clock (R341). -/
  since : Nat := 0
  lands : List (Nat × Nat × Nat) := []
  /-- How many pfence.keep and pfence.keep.wait it has executed (R190). -/
  keepEpoch : Nat := 0
  /-- The commit point at which it waits for its seal, or which it completes after it (R291, R323). -/
  sealing : Option CommitSeal := none
  deriving DecidableEq, Repr

/-- What a held or released global store does to its bytes (R178, R187). -/
inductive StoreOp where
  | write (data : List Byte)
  | reduce (k : BitVec 4) (x : DWord)
  | mark (n : Nat)
  /-- The atomic of an operation number with its operands; the numbers from 16 up are the two cas forms and join.dec's
  decrement (R164, R184, R185). -/
  | atomic (k : BitVec 5) (x y : DWord)
  deriving DecidableEq, Repr

/-- A global store, reduction or atomic: its thread, its address as the model's memory key, what it does
(R178, R291). -/
structure HeldStore where
  tid : Nat
  key : Nat
  op : StoreOp
  /-- The pointer and the instruction word, for reports. -/
  ea : DWord
  word : Word := 0
  /-- The address of the word. -/
  pc : DWord := 0
  /-- The cache policy (R176). -/
  policy : BitVec 2 := 0
  /-- The persist fences that its thread has executed before it (R190). -/
  epoch : Nat := 0
  /-- The threads whose strong or ordered loads have read it before it was performed (R308). -/
  readers : List TRef := []
  /-- The other threads of a crew that gathered at a uniform store (R155). -/
  also : List Nat := []
  deriving DecidableEq, Repr

/-- The engine classes of ENGINE_CNT in order (R158). -/
inductive EngClass where
  | transfer | matrix | sampling | traversal | collective | stream
  deriving DecidableEq, Repr

/-- An engine operation that its crew's counter counts, oldest first (R311). -/
structure EngOp where
  cls : EngClass
  id : Nat
  done : Bool := false
  deriving DecidableEq, Repr

/-- A crew (R9, R12, R21). -/
structure Crew where
  cid : Nat
  wid : Nat
  idx : Nat := 0
  size : Nat := 1
  producer : Bool := false
  consumer : Bool := false
  allot : Nat := 96
  part : Nat := 0
  g : Vector DWord 256 := .replicate 256 0
  /-- g as its last completed crew run left it (R29). -/
  gDone : Vector DWord 256 := .replicate 256 0
  mode : Word := 0
  stochSeed : DWord := 0
  qntSeed : DWord := 0
  qntTensor : Word := 0
  qntBase : DWord := 0
  tsel : BitVec 6 := 0
  storeQ : List HeldStore := []
  ops : List EngOp := []
  /-- How many commands the crew has handed over on each transfer channel, and for each tile-table entry
  (R244). -/
  xeSeq : Vector Nat 8 := .replicate 8 0
  collSeq : List ((DWord × Nat) × Nat) := []
  /-- A yield request to raise at the next run boundary, the TIME of the last delivery (R328, R359). -/
  yieldReq : Bool := false
  yieldAt : Option Nat := none
  /-- Trap entry is held by a page fault on the vector word: its pending-fault entry (R170). -/
  vectorWait : Option Nat := none
  /-- A replay of that entry with FAIL = 1: the vector word counts as zero (R170). -/
  vectorFailed : Bool := false
  loss : Nat := 0
  /-- The column's clock when a member last left (R28, R341). -/
  leftAt : Nat := 0
  /-- Placement order within the device (R344). -/
  placed : Nat := 0
  deriving DecidableEq, Repr

/-! ## Runs -/

/-- Why a run is parked (R342). -/
inductive ParkWhy where
  | queue | barrier | time | engine | seal | keep | ticket | deque | join | fault | other
  /-- A miss that finds every miss-status entry in use: the run keeps its issue slot (R279). -/
  | miss
  deriving DecidableEq, Repr

/-- A thread parked at tb.wait (R199): its object's key, its token and bound, and the status word once it is fixed. -/
structure TbWaiting where
  t : TRef
  key : Nat
  token : Nat
  bound : Nat
  status : Option Word := none
  deriving DecidableEq, Repr

/-- A run in progress: its words as fetched, the position of the current word and how many words it takes with its
extensions, its threads with the one that was chosen first, those that have finished the current word, the registers
named by long-latency destinations, and what it is parked on (R23, R48, R50, R342). -/
structure Run where
  key : RunKey
  start : DWord
  words : List Word
  pos : Nat := 0
  wlen : Nat := 1
  members : List TRef
  done : List TRef := []
  crewRun : Option Nat := none
  /-- The lane port that it holds (R342). -/
  lane : Nat := 0
  hazards : List Nat := []
  parked : Option ParkWhy := none
  /-- The column's clock, and TIME in ns, when the current word first parked (R161, R199). -/
  parkedAt : Option Nat := none
  /-- What a parked word keeps for a thread: the seal or the count of durable writes it waits for. -/
  kept : List (TRef × Nat) := []
  /-- Its threads that a tb.wait has parked (R199). -/
  tbWaits : List TbWaiting := []
  /-- The moment in ns for which a wait.time has parked it, and TIME at the first clock edge that reached it (R161). -/
  waitsFor : Option (Nat × Option DWord) := none
  deriving DecidableEq, Repr

/-! ## Workgroups, launches, contexts -/

/-- A named barrier (R194). -/
structure Barrier where
  gen : Word := 0
  arr : Nat := 0
  exp : Nat := 0
  deriving DecidableEq, Repr

/-- One filled sector of a stash entry: its scratchpad key, the key of its global sector under the present
translation (none while its page is not resident), its IA, whether it is dirty, and its place in the order in
which the workgroup's sectors became dirty (R192, R276, R283). -/
structure StashSector where
  skey : Nat
  gkey : Option Nat
  ia : Nat := 0
  dirty : Bool := false
  order : Nat := 0
  deriving DecidableEq, Repr

/-- A stash entry: its index, the scratchpad range, the global pointer, the IA of the global range, and the
filled sectors (R191, R192, R283). -/
structure StashEntry where
  idx : Nat
  off : Nat
  len : Nat
  base : DWord
  ia : Nat := 0
  sectors : List StashSector := []
  deriving DecidableEq, Repr

/-- A continuation record (R31), the launch it belongs to, where it came from, and the index a resumed
workgroup keeps (R360). `addr` is delivered in g1 (R19). -/
structure Record where
  code : DWord
  frame : DWord
  join : Word
  threads : Byte
  flags : Byte
  deadline : DWord
  addr : DWord := 0
  lid : Nat := 0
  index : Option Nat := none
  /-- The reserved bytes 22 and 23 (R33). -/
  resv : BitVec 16 := 0
  /-- Which redundant copy named it, and after how many yields (14 R373). -/
  copy : Nat := 0
  part : Nat := 0
  deriving DecidableEq, Repr

/-- A deferred write of a deterministic workgroup's log (14 R368, R369): the crew (16 for the sequencer)
and thread that made it, its pointer, its memory key, what it does, how many earlier entries the thread
has. -/
structure LogEntry where
  crew : Nat
  tid : Nat
  ea : DWord
  key : Nat
  op : StoreOp
  count : Nat
  deriving DecidableEq, Repr

/-- Where a workgroup fault came from, for its record: crew, thread, ACCESS and IA (R350). -/
structure FaultBy where
  crew : Nat := 0
  tid : Nat := 0
  access : Byte := 0
  ia : Nat := 0
  deriving DecidableEq, Repr

/-- A workgroup fault: CAUSE, DETAIL, PC, ADDR and the rest of its record (R350, R355). -/
structure WgFault where
  cause : Byte
  detail : Byte := 0
  pc : DWord := 0
  addr : DWord := 0
  by_ : FaultBy := {}
  /-- The context generation under which a walk ran, where the fault comes from one. -/
  gen : Word := 0
  deriving DecidableEq, Repr

/-- A workgroup (R9). Its crews and threads are found by `wid`. -/
structure Workgroup where
  wid : Nat
  lid : Nat
  index : Option Nat := none
  coords : DWord := 0
  col : Nat
  scratchBase : Nat := 0
  scratchSize : Nat := 0
  task : Bool := false
  deadline : DWord := 0
  record : Record
  bars : Vector Barrier 16 := .replicate 16 {}
  stash : List StashEntry := []
  /-- How many times one of its stash sectors became dirty. -/
  dirtied : Nat := 0
  /-- Tokens taken for it (R329). -/
  tokens : Nat := 0
  hasSeq : Bool := false
  ticket : Bool := false
  yielding : Bool := false
  /-- Records named by yield, with the index of the crew that named each (R165). -/
  yields : List (Nat × Record) := []
  /-- A workgroup fault that has been raised (R355); its effects of R356 have taken place. -/
  fault : Option WgFault := none
  faulted : Bool := false
  log : List LogEntry := []
  /-- Which redundant copy it is, for a redundant launch; the comparator has decided, and chose it; its log
  has been applied (14 R370, R373). -/
  copy : Nat := 0
  /-- How many times its index has yielded before. -/
  part : Nat := 0
  judged : Bool := false
  chosen : Bool := false
  applied : Bool := false
  /-- For each transaction barrier, by key, the highest crew and thread index that has arrived in its phase (14
  R372). -/
  arrTops : List (Nat × Nat) := []
  /-- It was started from a deque's record (R337). -/
  fromDeque : Bool := false
  /-- How the workgroup was placed: a number that rises with each placement (R363). -/
  placed : Nat := 0
  deriving DecidableEq, Repr

/-- A range register: its four words (R269). -/
structure RangeReg where
  base : DWord := 0
  limit : DWord := 0
  xlat : DWord := 0
  ctl : DWord := 0
  deriving DecidableEq, Repr

/-- An entry of a bounds table (R270). -/
structure BoundsEnt where
  lo : Nat := 0
  hi : Nat := 0
  ctl : Byte := 0
  deriving DecidableEq, Repr

/-- A decode table installed in a context (R61, R62, R64): its number, the entries of the lane and uniform
sets (none: not valid) and the first 4 bytes of its image's digest. -/
structure DecodeTable where
  num : Nat
  lane : List (Option (BitVec 10))
  uniform : List (Option (BitVec 10))
  digest : Word
  deriving DecidableEq, Repr

/-- A context (R269 to R276, R353, R61). -/
structure Context where
  num : Nat
  ranges : Vector RangeReg 8 := .replicate 8 {}
  root : Nat := 0
  boundsAddr : DWord := 0
  /-- The published bounds entries, by region identifier (R270). -/
  bounds : List BoundsEnt := []
  tables : List DecodeTable := []
  deriving DecidableEq, Repr

/-- A leaf in a controller's translation cache: the controller, the context number, IA[51:0] of the page, level,
the leaf (R275). -/
structure TlbEntry where
  ctl : Nat := 0
  ctx : Nat
  page : Nat
  level : Nat
  leaf : DWord
  deriving DecidableEq, Repr

/-! ## Faults -/

/-- What waits on an entry of the pending-fault table (R349). -/
inductive Attached where
  | thread (t : TRef)
  | sequencer (c : Nat)
  | engine (id : Nat)
  /-- A crew's vector load (R170). -/
  | vector (cid : Nat)
  deriving DecidableEq, Repr

/-- An access that waits on a page fault: the PC of its word, its pointer, its IA and kind (R349, R350). -/
structure Waiter where
  who : Attached
  pc : DWord
  ea : DWord
  ia : Nat
  access : Byte
  deriving DecidableEq, Repr

/-- An entry of the pending-fault table of a controller pair (R349). -/
structure FaultEntry where
  id : Nat
  ctx : Nat
  unit : Nat
  attached : List Attached
  from_ : List Waiter := []
  deriving DecidableEq, Repr

/-- A fault record, without SEQ (R350). -/
structure FaultRecord where
  cause : Byte
  kind : Byte
  detail : Byte := 0
  access : Byte := 0
  who : Word := 0
  addr : DWord := 0
  ia : DWord := 0
  pc : DWord := 0
  gen : Word := 0
  faultId : Word := 0
  wg : DWord := 0xffffffffffffffff#64
  time : DWord := 0
  launch : Word := 0
  deriving DecidableEq, Repr

/-- A replay in a hold list (R353): its entry, generation, FAIL, when it was held, and its pair. -/
structure HeldReplay where
  id : Nat
  gen : Word
  fail : Bool
  since : Nat
  pair : Nat
  deriving DecidableEq, Repr

/-- One port's page commands (R352). -/
structure PageCmd where
  r0 : DWord := 0
  r1 : DWord := 0
  r2 : DWord := 0
  err : Bool := false
  busy : Bool := false
  /-- A replay that waits because the hold list is full (R353). -/
  pending : Option (Nat × Word × Bool) := none
  deriving DecidableEq, Repr

/-! ## The front end -/

/-- A bound field of a launch: pointer, target, semaphore, record offset (R321, R422). -/
structure BoundField where
  ptr : DWord
  target : DWord
  sem : Nat
  field : Nat
  deriving DecidableEq, Repr

/-- A role-entry table (R422). -/
structure Roles where
  prodPc : DWord := 0
  consPc : DWord := 0
  seqPc : DWord := 0
  prodCrews : Nat := 1
  consCrews : Nat := 1
  crewSize : Nat := 1
  prodAllot : Nat := 32
  consAllot : Nat := 32
  scratch : Nat := 0
  deriving DecidableEq, Repr

/-- An entry of an ownership table (14 R367). -/
structure OwnEnt where
  base : Nat
  len : Nat
  kind : Nat
  chunk : Nat
  first : Nat
  deriving DecidableEq, Repr

/-- The values of the deterministic block and the ownership table read at dequeue (R327, 14 R367). -/
structure DetInfo where
  ownTable : DWord := 0
  logBase : DWord := 0
  cairn : DWord := 0
  logSize : Nat := 0
  logSlots : Nat := 0
  redStride : Nat := 0
  ownCount : Nat := 0
  redMode : Nat := 0
  own : List OwnEnt := []
  deriving DecidableEq, Repr

/-- The phases of a launch's life (R321 to R327). -/
inductive LaunchPhase where
  | binding | queued | eligible | done
  deriving DecidableEq, Repr

/-- A launch (R9, R323, R422). -/
structure Launch where
  lid : Nat
  queue : Nat
  packet : Nat := 0
  handle : Nat := 0
  ctx : Nat := 0
  record : List Byte := []
  /-- The table at ENTRIES when LAUNCH checked it, and DEGRADE_ENTRY's prodPc, consPc and seqPc. -/
  roles : Roles := {}
  degradeRoles : Roles := {}
  phase : LaunchPhase := .binding
  bounds : List BoundField := []
  /-- When it became eligible, by `State.ticks` (R324). -/
  eligibleAt : Nat := 0
  decided : Bool := false
  degraded : Bool := false
  lateStart : Bool := false
  shed : Bool := false
  refused : Option Byte := none
  fault : Option (Byte × Nat) := none
  /-- When that fault was raised, by `State.ticks` (R357). -/
  faultAt : Nat := 0
  /-- Which of its grid's workgroups have been placed, with their copies, and which have ended, by index; those
  whose first two copies differ (14 R373). -/
  placed : List (Nat × Nat) := []
  ended : List Nat := []
  thirds : List Nat := []
  total : Nat := 0
  tasks : Nat := 0
  lastCol : Option Nat := none
  lastSpan : Option Nat := none
  status : Option Word := none
  det : DetInfo := {}
  /-- Cores whose instruction cache was invalidated for the launch (R278). -/
  cores : List Nat := []
  deriving DecidableEq, Repr

/-- What a queue's Curd program is parked on (R419, R421). -/
inductive CurdPark where
  | running | sem (n : Nat) (target : DWord) | time (t : DWord) | launch (handle : Nat)
  | lwait (handle : Nat) (dst : BitVec 4) | command | fault (id : Nat)
  deriving DecidableEq, Repr

/-- A command being executed by CMD (R424). -/
structure Command where
  op : Byte
  arg : Word
  src : DWord
  len : DWord
  dst : DWord
  /-- The register of CMD that takes the result code. -/
  reg : BitVec 4
  resv : Bool := true
  deriving DecidableEq, Repr

/-- A packet or completion run in progress (R421). -/
structure CurdRun where
  index : Nat
  budget : Nat := 512
  completion : Bool := false
  park : CurdPark := .running
  packet : List Byte := []
  cmd : Option Command := none
  /-- The operation number under which its accesses fault (R349, R419). -/
  eng : Option Nat := none
  deriving DecidableEq, Repr

/-- An error record of a queue that waits for its page (R423, R452): the operation number under which it waits, the
context and the pointer with which it is written, its bytes. -/
structure CurdErr where
  id : Nat
  ctx : Nat
  at_ : DWord
  bytes : List Byte
  deriving DecidableEq, Repr

/-- A queue (R319, R418, R419). -/
structure Queue where
  installed : Bool := false
  ring : DWord := 0
  slots : Nat := 0
  ctx : Nat := 0
  ownerSem : Nat := 255
  admin : Bool := false
  program : Nat := 0
  errAt : DWord := 0
  tail : DWord := 0
  head : DWord := 0
  tailErr : Bool := false
  stopped : Bool := false
  w : Vector DWord 16 := .replicate 16 0
  record : List Byte := []
  run : Option CurdRun := none
  nextHandle : Nat := 0
  /-- Handle, launch and status of the issued launches, newest first (R422, R423). -/
  handles : List (Nat × Nat × Option Word) := []
  /-- Error records that wait for their pages, the oldest first (R452). -/
  errWait : List CurdErr := []
  /-- Completions whose ENTRY_DONE has not run: handle and status (R421). -/
  completions : List (Nat × Word) := []
  deriving DecidableEq, Repr

/-- An installed Curd program (R419, R426). -/
structure CurdProgram where
  num : Nat
  entryPkt : Nat
  entryDone : Option Nat
  ops : List Word
  digest : List Byte := []
  deriving DecidableEq, Repr

/-! ## Columns -/

/-- A released access of a core that the service layer has not applied yet: its store sequence number
(R291). -/
structure Released where
  seq : Nat
  cid : Nat
  store : HeldStore
  /-- A release at span scope or wider: every earlier access of the core comes first (R304). -/
  rel : Bool := false
  /-- It is numbered, and waits for the seal of its commit point (R291). -/
  hold : Bool := false
  deriving DecidableEq, Repr

/-- A line of an L1 data cache (R277): its tag and set are the line number IA / 128; the key of its first byte,
the crew whose miss filled it, its retention class, the sectors held with their bytes. -/
structure L1Line where
  line : Nat
  key : Nat
  cid : Nat
  ef : Bool := false
  sectors : List (Nat × List Byte) := []
  deriving DecidableEq, Repr

/-- A miss-status entry (R279): its line, the key of the line's first byte, the sectors of its fill request, the
clock of its allocation, the crew that missed, and whether the fill enters L1, at the lowest retention. -/
structure Miss where
  line : Nat
  key : Nat
  sectors : List Nat
  at_ : Nat
  cid : Nat
  allocate : Bool := true
  ef : Bool := false
  deriving DecidableEq, Repr

/-- A line of the device cache (R280 to R282): the key of its first byte, its home slice, its retention class,
the sectors held: none for a clean sector, for a dirty one the bytes that its target still holds. -/
structure DcLine where
  key : Nat
  home : Nat
  ef : Bool := false
  sectors : List (Nat × Option (List Byte)) := []
  deriving DecidableEq, Repr

/-- A line of a peer card's memory that the device cache holds: its first key, and its sectors' bytes (R281). -/
structure PeerLine where
  key : Nat
  sectors : List (Nat × List Byte) := []
  deriving DecidableEq, Repr

/-- A performed store that the agents of a span do not see yet (R308): the span, the key, the bytes that they still
read, the threads that have read the store. -/
structure Lag where
  span : Nat
  key : Nat
  old : List Byte
  readers : List TRef := []
  deriving DecidableEq, Repr

/-- A write to the persistent window that is not durable yet (R190, R292, R318): its key and bytes, the thread
that stored them, and the persist fences that this thread had executed. -/
structure KeepWrite where
  key : Nat
  data : List Byte
  by_ : Option TRef := none
  epoch : Nat := 0
  deriving DecidableEq, Repr

/-- An entry of a victim-tag array (R344). -/
structure VictimTag where
  tag : Nat
  cid : Nat
  deriving DecidableEq, Repr

/-! ## The tile sequencer -/

/-- An operand tile or a staging buffer: 16 rows of 192 bytes, and the scale row (R16, R208). -/
structure Tile where
  rows : Vector (List Byte) 16 := .replicate 16 (List.replicate 192 0)
  scales : Vector (List Byte) 16 := .replicate 16 (List.replicate 12 0)
  deriving DecidableEq, Repr

/-- An accumulator and its checksums (R208, R226): rows of 16 FP32 patterns. -/
structure Accum where
  rows : Vector (Vector Word 16) 16 := .replicate 16 (.replicate 16 0)
  ckCol : Vector Word 16 := .replicate 16 0
  ckRow : Vector Word 16 := .replicate 16 0
  ckValid : Bool := true
  deriving DecidableEq, Repr

/-- A staging buffer: its rows, which of them are full, and the crew that fed each (R219, R221). -/
structure Staging where
  tile : Tile := {}
  full : BitVec 16 := 0
  crews : List Nat := []
  deriving DecidableEq, Repr

/-- An outlier of mmo (R225). -/
structure Outlier where
  value : BitVec 16
  row : Nat
  k : Nat
  deriving DecidableEq, Repr

/-- The tile sequencer (R208). -/
structure Sequencer where
  holder : Option Nat := none
  /-- The workgroup whose program acquired it last: what it holds is that workgroup's until that one ends (R209,
  R237). -/
  owner : Option Nat := none
  running : Bool := false
  pc : DWord := 0
  g : Vector DWord 256 := .replicate 256 0
  a : Vector Accum 8 := .replicate 8 {}
  x : Vector Tile 4 := .replicate 4 {}
  staging : Vector Staging 4 := .replicate 4 {}
  cb : Vector (Option (List Byte)) 8 := .replicate 8 none
  cbA : Option Nat := none
  cbB : Option Nat := none
  outliers : List Outlier := []
  outTarget : Option Nat := none
  drain : Vector (List Word) 4 := .replicate 4 []
  /-- The pending-fault entry the sequencer is parked on, and another reason to be parked (R155, R161, R222). -/
  faultWait : Option Nat := none
  parked : Option ParkWhy := none
  /-- The same as in a run for a wait.time (R161). -/
  waitsFor : Option (Nat × Option DWord) := none
  refaultCnt : Nat := 0
  refaultUnit : Option (Nat × Nat) := none
  deriving DecidableEq, Repr

/-! ## Engines -/

/-- The kinds of transfer command (R246). -/
inductive XeKind where
  | copy | ragged | btab | gather | cbx | fill
  deriving DecidableEq, Repr

/-- A transfer descriptor as read at issue (R246). -/
structure XeDesc where
  src : DWord
  dst : DWord
  aux : DWord
  chanAt : DWord
  ext : List Nat
  spitch : List Nat
  dpitch : List Nat
  ctl : Word
  pad : Word
  resv : Bool
  deriving DecidableEq, Repr

/-- A transfer command handed over and not complete (R247 to R250): how many elements and bytes of the
current element it has written, the sectors posted already, and the failure that stopped it. -/
structure XeCmd where
  id : Nat
  cid : Nat
  kind : XeKind
  desc : XeDesc
  tb : Option DWord
  table : List Byte := []
  tableBad : Bool := false
  vlen : Nat := 1
  /-- WPTR at the command's end, its sequence number. -/
  wend : Nat
  seq : Nat
  /-- Elements written, and the sectors posted. -/
  pos : Nat := 0
  posted : List Nat := []
  /-- The xe.lut whose table the command waits for (R252). -/
  lut : Option Nat := none
  /-- CAUSE and STEP of the access that stopped it (R248), and its objects whose page has failed for good. -/
  failed : Option (Byte × Byte) := none
  lost : List DWord := []
  deriving DecidableEq, Repr

/-- A transfer channel of a workgroup (R245, R248). -/
structure Channel where
  wptr : Nat := 0
  /-- WPTR when every command handed over is complete. -/
  wend : Nat := 0
  seq : Nat := 0
  cmds : List XeCmd := []
  /-- The commands accepted: crew, its sequence number, the d that it received (R244). -/
  accepted : List (Nat × Nat × Word) := []
  deriving DecidableEq, Repr

/-- An xe.lut that is not complete: its operation, crew, table pointer, VLEN (R252). -/
structure LutLoad where
  id : Nat
  cid : Nat
  ptr : DWord
  vlen : Nat
  deriving DecidableEq, Repr

/-- A codebook slot of the transfer engine (R252): the loads in progress, oldest first, and the table held. -/
structure LutSlot where
  loads : List LutLoad := []
  vlen : Nat := 1
  table : Option (List Byte) := none
  deriving DecidableEq, Repr

/-- The transfer engine's state of one workgroup. -/
structure XeState where
  wid : Nat
  chans : Vector Channel 8 := .replicate 8 {}
  luts : Vector LutSlot 4 := .replicate 4 {}
  deriving DecidableEq, Repr

/-- The values that smp.cfg reads (R253). -/
structure SmpCfg where
  vocab : Nat := 1
  temp : Word := 0
  topk : Nat := 0
  topp : Word := 0
  pass : Nat := 0
  first : Nat := 0
  count : Nat := 0
  bsumAt : DWord := 0
  deriving DecidableEq, Repr

/-- A sampling context as some workgroup names it: the workgroup, its pointer. -/
structure CtxRef where
  wid : Nat
  ptr : DWord
  deriving DecidableEq, Repr

/-- Work on a sampling context (R255): a smp.push, a value pushed through a queue register, a smp.draw, the
values of a smp.cfg, each with the context as its thread names it. -/
inductive SmpWork where
  | push (id cid : Nat) (at_ : CtxRef) (addr : DWord)
  | value (at_ : CtxRef) (w : Word)
  | draw (id : Nat) (t : TRef) (at_ : CtxRef)
  | cfg (at_ : CtxRef) (c : SmpCfg)
  deriving DecidableEq, Repr

/-- A sampling context that has passed smp.cfg (R253, R254): its key, the values held, the logits received, a failed
push, the work in issue order. -/
structure SmpCtx where
  key : Nat
  cfg : SmpCfg
  /-- The operation number under which the unit's own writes wait (R349). -/
  op : Nat := 0
  logits : List Word := []
  failed : Bool := false
  work : List SmpWork := []
  /-- The accesses whose page has failed for good: the operation, the pointer (R353, R354). -/
  lost : List (Nat × DWord) := []
  deriving DecidableEq, Repr

/-- A hit record (R261). -/
structure HitRec where
  words : List Word
  final : Bool
  /-- The ray, and how many of its words have been popped. -/
  ray : Nat
  popped : Nat := 0
  deriving DecidableEq, Repr

/-- Where a ray stands (R260 to R262). -/
inductive RayPhase where
  | traced | sending | waiting | final | done
  deriving DecidableEq, Repr

/-- A ray held by a traversal unit (R259). -/
structure Ray where
  id : Nat
  cid : Nat
  tid : Nat
  /-- The HIT-bound queue register that takes its records (R259). -/
  q : Nat
  scene : DWord
  regs : List Word
  flags : Word
  phase : RayPhase := .traced
  /-- Candidates still to send, the accepted one, and the step-1 hit: the words of their records (R260). -/
  cands : List (List Word) := []
  accepted : Option (List Word) := none
  final : List Word := []
  /-- The candidate sent and not answered. -/
  offered : Option (List Word) := none
  deriving DecidableEq, Repr

/-- A HIT queue of a thread: its queue register, its records in order (R259, R261). -/
structure HitQueue where
  cid : Nat
  tid : Nat
  q : Nat
  recs : List HitRec := []
  deriving DecidableEq, Repr

/-- What an engine operation waits for or has met: the pending-fault entry it is attached to, the accesses that have
faulted and are not complete, with pointer, unit and refault count, the cause with which it failed (R349, R353,
R354). -/
structure EngWait where
  id : Nat
  entry : Option Nat := none
  refaults : List (DWord × (Nat × Nat) × Nat) := []
  failed : Option Byte := none
  deriving DecidableEq, Repr

/-! ## Seals and columns -/

/-- The state of a column that a seal records (R189, R236, R287): its crews and threads, its
sequencer, its rays and their records (09 R262), the released entries, the scratchpad bytes. -/
structure SealBody where
  threads : List Thread
  crews : List Crew
  wgs : List Workgroup
  /-- The launches of those workgroups, which firmware gives back after a loss of card power (R364). -/
  launches : List Launch
  rays : List Ray
  hits : List HitQueue
  seqr : Sequencer
  released : List Released
  scratch : List Host.Cell
  deriving DecidableEq, Repr

/-- A seal record with what it seals (R289, R290): SEQ, CORE, REASON, MSLOT, the manifest's slot bits (bit b set:
block b lies in slot B), TIME, SQ_NEXT. -/
structure Seal where
  seq : Nat
  core : Nat := 0
  reason : Byte
  mslot : Nat
  slots : Nat := 0
  time : DWord
  sqNext : Nat
  body : SealBody
  valid : Bool := false
  /-- A block of it fails its digest (R290, R358). -/
  torn : Bool := false
  deriving DecidableEq, Repr

/-- Blocks of a core written into shadow slots (R288): their numbers, as bits, and the state that they were written
from. -/
structure ShadowWrite where
  blocks : Nat
  body : SealBody
  deriving DecidableEq, Repr

/-- A column (R20, R285, R291, R331, R332, R337, R344, R361; 08 R230). -/
structure Column where
  clock : Nat := 0
  /-- POOL_SPLIT: BUSY, CURRENT, TARGET (R285). -/
  poolBusy : Bool := false
  poolCurrent : Nat := 8
  poolTarget : Nat := 8
  /-- COL_GATE: GATED, LOST, REQ (R361). -/
  gated : Bool := false
  lost : Bool := false
  gateReq : Bool := false
  /-- The column has power; it issues (R290, R361). -/
  powered : Bool := true
  stopIssue : Bool := false
  /-- COL_SWALLOW: FW_LEVEL, HW_LEVEL; whether a rail that feeds the column is above its limit (R331). -/
  fwLevel : BitVec 4 := 0
  hwLevel : BitVec 4 := 0
  railOver : Bool := false
  /-- What the column's sensor reads, in °C (R331, R432). -/
  temp : Nat := 0
  /-- COL_ENERGY (R332). -/
  energyLast : Word := 0
  energyCur : Word := 0
  /-- MX_INJECT (R230). -/
  injArm : Bool := false
  injAcc : Nat := 0
  injRow : Nat := 0
  injCol : Nat := 0
  injBit : Nat := 0
  /-- PICK_CTL.LOCALITY_T, and the victim tags per partition (R344). -/
  localityT : Nat := 64
  victims : List (Nat × VictimTag) := []
  /-- How many times each partition's LOSS has been halved (R344). -/
  halved : Vector Nat 8 := .replicate 8 0
  /-- VBT_STATUS, the buses whose last pattern failed, and withdrawal (R293, 16 R417). -/
  retired : BitVec 9 := 0
  lastFail : BitVec 9 := 0
  withdrawn : Bool := false
  poolCe : Word := 0
  /-- The deque, old end first, the last victim, PASSED_BY of the old-end record (R337 to R339). -/
  deque : List Record := []
  lastVictim : Option Nat := none
  /-- The records that ended workgroups have named by yield, each until the core's seal of this SEQ is valid (R165). -/
  yielded : List (Nat × Record) := []
  passedBy : List Nat := []
  /-- Core store order (R291, R301). -/
  nextSeq : Nat := 0
  released : List Released := []
  /-- The core's stores that the service layer has taken over and not yet performed at their homes (R308). -/
  banked : List Released := []
  lastApplied : Nat := 0
  atomicOld : List (Nat × DWord) := []
  /-- The seal in progress, then the seals, newest first (R289, R290). -/
  sealing : Option Seal := none
  seals : List Seal := []
  /-- The reasons for which seals are asked for, the oldest first (R289, R291, R361). -/
  sealReqs : List Byte := []
  /-- What has been written into the slots that the latest valid seal does not reference, newest first; what was written
  again during the seal in progress, in the column's shadow buffer (R288). -/
  shadow : List ShadowWrite := []
  shadowBuf : List ShadowWrite := []
  /-- Workgroups placed since the latest valid seal, and ended since (R363). -/
  endedSince : List Nat := []
  seqr : Sequencer := {}
  /-- Engine completions held while the column is gated: crew and operation (R362). -/
  heldDone : List (Nat × Nat) := []
  /-- The L1 data cache, the line used last first, and its miss-status entries, oldest first (R277, R279). -/
  l1 : List L1Line := []
  misses : List Miss := []
  /-- The instruction cache: the 128-B lines it holds, newest first, by context and IA / 128 (R278). -/
  icache : List (Nat × List Byte) := []
  /-- The leader of each lane port's last run, by partition and port (R343). -/
  leaders : List (Nat × Nat × TRef) := []
  deriving DecidableEq, Repr

/-! ## Streams, time, ropes -/

/-- A frame that a receive stream has claimed (R383, R384): its RTP timestamp, buffer, first arrival in ns,
PRES, how many frames came before it, its object; the segments written (line, byte, length); the sequence
numbers seen, carried by each path, taken from path B; which paths carry a later timestamp. -/
structure RxFrame where
  rtp : Word
  buffer : Nat
  first : Nat
  pres : DWord
  number : Nat
  obj : DWord
  got : List (Nat × Nat × Nat) := []
  seen : List Word := []
  pathA : List Word := []
  pathB : List Word := []
  tookB : List Word := []
  laterA : Bool := false
  laterB : Bool := false
  settled : Bool := false
  /-- A KIND 3 record has been written for it (R452). -/
  reported : Bool := false
  deriving DecidableEq, Repr

/-- What a transmit stream sends for an instant (R390): its number and its I_k as it was chosen, the object being
sent or none for a repeat, the buffer, how many packets have left, when the first left. -/
structure TxSend where
  instant : Nat
  ik : Nat
  obj : Option Nat
  buf : DWord
  sent : Nat := 0
  first : Nat := 0
  deriving DecidableEq, Repr

/-- A configured stream (R380): its descriptor's bytes, the context of its accesses (R452), and what R382 to
R391 keep. -/
structure Stream where
  num : Nat
  transmit : Bool
  desc : List Byte
  ctx : Nat
  /-- Sequence numbers taken, newest first. -/
  taken : List Word := []
  /-- Frames claimed, oldest first, until they and every earlier one have settled; the timestamps seen; the latest
  timestamp on each path. -/
  frames : List RxFrame := []
  stamps : List Word := []
  latestA : Option Word := none
  latestB : Option Word := none
  lastBuffer : Option Nat := none
  claimed : Nat := 0
  /-- Lines of the frames that have left `frames`, bytes of a byte ring, lines sent. -/
  lines : Nat := 0
  /-- Frames settled, records written, frames presented. -/
  frameCount : Nat := 0
  /-- RTP_TS, PRES, FIRST and object address of the latest claimed frame or record. -/
  latest : Option (Word × DWord × DWord × DWord) := none
  lostA : Nat := 0
  lostB : Nat := 0
  /-- Transmit: the number and the I_k of the latest instant, what is being sent, the departure of that instant's
  first packet, the latest SENT object (R390, R391). -/
  instant : Option Nat := none
  instantNs : Option Nat := none
  /-- The time up to which instants have been chosen (R390), the extended sequence number of the next packet (R378). -/
  lastIk : Option Nat := none
  txSeq : Word := 0
  sends : List TxSend := []
  departed : Option Nat := none
  lastSent : Option Nat := none
  repeats : Nat := 0
  missed : Nat := 0
  /-- The TIME, or the instants, for which a KIND 3 record has been written (R452). -/
  reported : List Nat := []
  deriving DecidableEq, Repr

/-- The decision of one frame of a rope (R396, R398): whether it was presented, and this card's CONSEC. -/
structure RopeDecision where
  k : Nat
  presented : Bool
  consec : Nat
  deriving DecidableEq, Repr

/-- A member cut from a rope (R396, R397): the first frame without it, and the frame of its admission, once there
is one. -/
structure Expulsion where
  member : Nat
  first : Nat
  back : Option Nat := none
  deriving DecidableEq, Repr

/-- A rope (R393 to R398). -/
structure Rope where
  enable : Bool := false
  self : Nat := 0
  mask : Word := 0
  num : Word := 0
  den : Word := 1
  guard : Word := 0
  /-- Latencies of the last heartbeats: member and nanoseconds, newest first. -/
  lats : List (Nat × Nat) := []
  subst : Word := 0
  consec : List (Nat × Nat) := []
  /-- Arrivals that reached this card: frame and member. -/
  arrivals : List (Nat × Nat) := []
  /-- This card's rope.arrive results: frame, ON_TIME or not, crew and operation. -/
  own : List (Nat × Bool × Nat × Nat) := []
  /-- Decisions, newest first. -/
  decided : List RopeDecision := []
  /-- The next frame to be decided. -/
  next : Nat := 0
  expelled : List Expulsion := []
  deriving DecidableEq, Repr

/-! ## Links and collectives -/

/-- A collective entry that is READY (R406, R407): the table, the index, its fields, the members heard
from with their contribution. -/
structure CollEntry where
  id : Nat
  ctx : Nat
  table : DWord
  index : Nat
  cid : Nat
  fields : List Byte
  readiedAt : Nat
  /-- Contribution of each member heard from: card and LOCAL's bytes. -/
  heard : List (Nat × List Byte) := []
  /-- This card's own contribution, once it has been read and sent to the other members (R407). -/
  mine : Option (List Byte) := none
  /-- The status and cause of an entry that is over, while a page fault or a pool holds the write of its status. -/
  ending : Option (Nat × Byte) := none
  deriving DecidableEq, Repr

/-- An installed tile table (R406, R425). -/
structure TileTable where
  ctx : Nat
  addr : DWord
  len : Nat
  deriving DecidableEq, Repr

/-- An inbound window (R416). -/
structure InWindow where
  base : DWord := 0
  limit : DWord := 0
  ctl : DWord := 0
  deriving DecidableEq, Repr

/-- A Treldy Link port (R416). -/
structure Link where
  up : Bool := false
  lanes : BitVec 4 := 0
  retries : Byte := 0
  deriving DecidableEq, Repr

/-- A firmware image (R426): its envelope, its kind, version and digest, its body. -/
structure Image where
  head : List Byte := []
  kind : Byte := 1
  version : Word := 0
  digest : List Byte := []
  body : List Byte := []
  deriving DecidableEq, Repr

/-- A packet of a transmit stream (R378, R380, R390): the stream and its instant, the path (`true` for B) with its
sub-port, addresses and UDP port, the RTP header, one sample-row data header, the bytes. -/
structure TxPacket where
  stream : Nat
  instant : Nat
  pathB : Bool
  subport : Nat
  dst : List Byte
  src : List Byte
  port : Nat
  pt : Nat
  ssrc : Word
  seq : Word
  rtp : Word
  marker : Bool
  row : Nat
  offset : Nat
  data : List Byte
  deriving DecidableEq, Repr

/-- What carries a message to another member of a rope (15 R393): Treldy Link, or UDP on the sub-port that carries
PTP. -/
inductive Carrier where
  | link | udp (subport : Nat)
  deriving DecidableEq, Repr

/-- Something the device sends out (15 R378, R390, R393, R395; 16 R401, R405, R407, R413): a packet of a transmit
stream, a membership report for a receive stream, messages of ropes and collectives, a read completion for the host,
an answer to a peer, a completion of a configuration request. -/
inductive Sent where
  | packet (p : TxPacket)
  /-- IGMPv3, or MLDv2 where `v6`, on a sub-port: a join of a group, from one source or from any (R378). -/
  | join (v6 : Bool) (subport : Nat) (group : List Byte) (source : Option (List Byte))
  | arrival (rope k : Nat) (members : List (Nat × Carrier))
  | heartbeat (rope : Nat) (members : List (Nat × Carrier))
  | collBeat (cards : List Nat)
  /-- This card's contribution to a collective, under its EPOCH, for the members' staging areas at REMOTE (16 R407). -/
  | collData (cards : List Nat) (epoch : Word) (remote : DWord) (data : List Byte)
  | hostRead (port : Port) (addr : Nat) (data : List Byte)
  | peerData (card : Nat) (data : List Byte)
  | refused (card : Nat)
  | unsupported (port : Port)
  /-- The completion of a PCIe configuration request: with Retry Status, or a normal one (R435). -/
  | config (port : Port) (retry : Bool)
  deriving DecidableEq, Repr

/-- What the SENSE pins of a power input say: its capability, or both pins open (R430). -/
inductive Sense where
  | w600 | w450 | w300 | w150 | absent
  deriving DecidableEq, Repr

/-- A power input (R430 to R432): its SENSE pins, whether its voltage is within its limits, whether it has been out of
them, and been removed, since the card lost its power. -/
structure PowerIn where
  sense : Sense := .absent
  inLimits : Bool := true
  left : Bool := false
  removed : Bool := false
  deriving DecidableEq, Repr

/-- The phases of the card's power (R430 to R435). -/
inductive Phase where
  | off | held | step (n : Nat) | live
  deriving DecidableEq, Repr

/-! ## The whole machine -/

/-- Whose word the next step executes. -/
inductive Turn where
  | idle
  | run (k : RunKey)
  | seq (c : Nat)
  | curd (q : Nat)
  deriving DecidableEq, Repr

/-- Where a soft error falls (R358): at a byte of memory, in a workgroup's registers, in a pool's clean cache
sectors, in a dirty sector of the device cache at a key and IA, in the shadow blocks of a seal, in a line, IA / 128, of
a core's L1 and instruction cache. -/
inductive SoftError where
  | memory (key : Nat) (correctable : Bool)
  | registers (wid : Nat) (correctable : Bool)
  | pool (c : Nat) (correctable : Bool)
  | dirty (key ia : Nat)
  | shadow (c seq : Nat)
  | line (c line : Nat)
  deriving DecidableEq, Repr

/-- What happens next: an input of the model (log entry 1). An event of the opcode table, a change of
whose word is executed, time that passes in a column and on the PTP clock, a soft error, an error answer of
the host or of a peer at a key, a host read of the MMIO map, energy counted, what the power inputs' SENSE pins say,
their voltages within limits or not, a column's rail above its limit or not, what a column's sensor or another one
reads, the card's input power, limits that firmware lowers, a column's own firmware, the contents of a firmware bank, a
PCIe configuration request, the split of a stream port, a miss whose fill arrives, a core's store that the
service layer takes over, one that reaches its home, one that reaches its home while some spans still read what was
there before it, such a store that its span sees from now on, a line that leaves the device cache, the write to the
persistent window that becomes durable next, bytes that the host or a peer card writes in its own memory, a block of the
rind that fails its write verification, the links of the PCIe ports up or down and whether the ports are
merged. -/
inductive Move where
  | event (i : Instr)
  | select (t : Turn)
  | elapse (clocks ns : Nat)
  | softError (e : SoftError)
  | hostError (key : Nat) (on : Bool)
  | mmioRead (port : Port) (off size : Nat)
  | energy (c : Nat) (uj : Nat)
  | sense (in0 in1 : Sense)
  | supply (ok0 ok1 : Bool)
  | rail (c : Nat) (on : Bool)
  | sensor (c : Option Nat) (deg : Nat)
  | cardPower (w : Nat)
  | lowerLimits (watts deg cut : Nat)
  | bankImage (i : Nat) (head body : List Byte)
  | configRequest (port : Port)
  | columnFirmware (c : Nat) (level : BitVec 4)
  | splitPort (port n : Nat)
  | fill (c i : Nat)
  | bank (c : Nat)
  | perform (c i : Nat)
  | performLate (c i : Nat) (spans : List Nat)
  | reach (i : Nat)
  | evict (key : Nat)
  | keepNext (i : Nat)
  | world (key : Nat) (data : List Byte)
  | spare (block : Nat)
  | hostLinks (a b merge : Bool)
  deriving DecidableEq, Repr

/-- What stops the machine with a fault. Each is safe: the model stops where the spec gives no behaviour. -/
inductive Fault where
  /-- Raised by the meaning of a lane, uniform or matrix word when no run or sequencer is at a word: the
  word is in no stream, and the spec gives a word outside a stream no effect. Safe. -/
  | noRun
  /-- Raised by the meaning of a Curd operation when no packet or completion run is in progress. Safe. -/
  | noPacket
  deriving DecidableEq, Repr

/-- What the model refuses. -/
inductive Refusal where
  /-- Raised by the dispatcher for an instruction without a meaning. Safe. -/
  | notModelled (mnemonic : String)
  /-- Raised by the step for an agenda entry whose instruction is a word of a stream and no event: the
  outside cannot make one happen. Safe. -/
  | notAnEvent
  deriving DecidableEq, Repr

/-- The whole device (INVENTORY.md, State). -/
structure State where
  -- the model's own
  agenda : List Move := []
  turn : Turn := .idle
  freeCtr : Nat := 0
  nextId : Nat := 0
  /-- How many times time has passed: what happens between two of them happens in one clock. -/
  ticks : Nat := 0
  outbox : List Sent := []
  /-- Sectors with an uncorrectable error, and keys at which the host or a peer card refuses an access. -/
  bad : List Nat := []
  hostErrs : List Nat := []
  -- threads and work
  threads : List Thread := []
  crews : List Crew := []
  wgs : List Workgroup := []
  launches : List Launch := []
  runs : List Run := []
  contexts : List Context := []
  /-- G of the contexts that have one other than 0 (R353). -/
  gens : List (Nat × Word) := []
  columns : Vector Column 96 := .replicate 96 {}
  xe : List XeState := []
  smps : List SmpCtx := []
  /-- The draws that have been delivered, and their results (R256, R441). -/
  drawn : List (Nat × Word) := []
  rays : List Ray := []
  hits : List HitQueue := []
  engs : List EngWait := []
  /-- Readyings of tile-table entries that the service layer has accepted: crew, entry, how many (R244). -/
  collAcc : List ((Nat × DWord × Nat) × Nat) := []
  -- memory
  mem : List Host.Cell := []
  /-- Keys of the transaction barriers that an instruction or an engine has named (R196). -/
  tbs : List Nat := []
  /-- Those of them whose PENDING and SECTORS are both zero, each with the runs that have executed a word since: where
  one of these executes another, a clock has started (R197). -/
  tbDue : List (Nat × List RunKey) := []
  tlb : List TlbEntry := []
  /-- The device cache, and the lines of peer cards that it holds; the line used last comes first (R280, R281). -/
  dcache : List DcLine := []
  peerLines : List PeerLine := []
  /-- The performed stores that some spans do not see yet (R308). -/
  lags : List Lag := []
  /-- The keys, in units of a code word, at which a read will correct a single-bit error (R295). -/
  weak : List Nat := []
  /-- The rind's blocks that spare blocks stand in for (R287). -/
  spares : List (Nat × Nat) := []
  /-- The persistent window's durable contents, and the applied writes to it that are not durable yet,
  oldest first (R292, R318). -/
  keep : List Host.Cell := []
  keepQ : List KeepWrite := []
  /-- How many writes to it have become durable. -/
  keepDone : Nat := 0
  -- faults
  pending : List FaultEntry := []
  nextFault : Nat := 0
  waiting : List FaultRecord := []
  fqBase : DWord := 0
  fqLog2 : Nat := 0
  fqTail : Nat := 0
  fqHead : Nat := 0
  fqDropped : Nat := 0
  fqBroken : Bool := false
  pgA : PageCmd := {}
  pgB : PageCmd := {}
  held : List HeldReplay := []
  -- time
  timeNs : Nat := 0
  ptpEnable : Bool := false
  ptpDomain : Byte := 127
  ptpSubport : BitVec 4 := 0
  ptpOffset : Int := 0
  ptpGood : Nat := 0
  -- power
  phase : Phase := .held
  /-- The two 12 V inputs; L as the last cold reset read it; the card's input power over 10 ms, in watts (R430, R431). -/
  inputs : Vector PowerIn 2 := .replicate 2 {}
  limitW : Nat := 0
  powerW : Nat := 0
  /-- The limits as firmware has lowered them: power in watts, the two temperatures in °C (R331, R431, R432). -/
  wattLimit : Nat := 800
  tempLimit : Nat := 105
  tempCut : Nat := 120
  /-- What the hottest sensor outside the columns reads; the card is latched off (R432). -/
  cardTemp : Nat := 0
  latched : Bool := false
  pwrTokens : Nat := 0
  pwrCost : Vector Nat 16 := .replicate 16 0
  framePeriod : Nat := 0
  /-- The PTP time of the last energy period's end (R332). -/
  periodAt : Option Nat := none
  -- host
  sems : Vector DWord 64 := .replicate 64 0
  stagedA : Option (Nat × Word) := none
  stagedB : Option (Nat × Word) := none
  merged : Bool := false
  portAUp : Bool := false
  portBUp : Bool := false
  queues : Vector Queue 256 := .replicate 256 {}
  lastServed : Nat := 255
  programs : List CurdProgram := []
  /-- Launches whose completions are held by a hand-over, in completion order (R427). -/
  doneHeld : List Nat := []
  banks : Vector Image 2 := .replicate 2 {}
  activeBank : Nat := 0
  staged : Option Image := none
  linkImages : Vector Image 4 := .replicate 4 {}
  linkStaged : Vector (Option Image) 4 := .replicate 4 none
  linkStopped : Vector Bool 4 := .replicate 4 false
  -- streams, ropes, links
  streams : List Stream := []
  ropes : Vector Rope 4 := .replicate 4 {}
  cardId : Nat := 0
  routeLo : DWord := 0
  routeHi : DWord := 0
  links : Vector Link 4 := .replicate 4 {}
  /-- Into how many sub-ports each stream port is split: 1, 2 or 4 (R378). -/
  portSplit : Vector Nat 4 := .replicate 4 1
  collTimeout : Nat := 2000000
  inwins : Vector InWindow 16 := .replicate 16 {}
  tiles : List TileTable := []
  colls : List CollEntry := []
  /-- The last heartbeat of each card, and the status with which each tile-table entry last completed: its
  context, table and index. -/
  beats : List (Nat × Nat) := []
  collDone : List ((Nat × DWord × Nat) × Nat) := []
  dramCe : Vector Word 16 := .replicate 16 0
  rindCe : Word := 0
  deriving DecidableEq, Repr

/-- The machine right after cold reset: every field at its Reset value, nothing resident, the card held
before bring-up (R433, R435; log entry 7, DESIGN CHOICE for the fields without a stated value). -/
def State.reset : State := {}

end Sys2Proof.Machine
end

