-- ==== Sys2Proof/Config.lean ====
section
/-!
DEFINITION. What an implementation fixes and what the spec leaves open: constants without a body, so that
nothing in Lean can evaluate them or prove a value of them.
-/

namespace Sys2Proof.Config

/-- The result bits of a special-function instruction where R136 gives a bound and no value: the opcode
index of 0x268 to 0x270, and the operand (log entry 10, DESIGN CHOICE). -/
opaque freeSpecial : Nat → Word → Word

/-- A byte that the spec does not state: a place name and the draw number (log entry 11, DESIGN CHOICE). -/
opaque freeByte : Nat → Nat → Byte

/-- A word that the spec does not state (log entry 11, DESIGN CHOICE). -/
opaque freeWord : Nat → Nat → Word

/-- A 64-bit value that the spec does not state (log entry 11, DESIGN CHOICE). -/
opaque freeDWord : Nat → Nat → DWord

/-- The device's ML-DSA-44 signature of some bytes (17 R427; log entry 12, DESIGN CHOICE). -/
opaque sign : List Byte → List Byte

/-- The fused SHA3-256 digest of a public key, and the fused minimum version of an image kind (17 R426;
log entry 12, DESIGN CHOICE). -/
opaque fusedDigest : Nat → List Byte
opaque fusedVersion : Nat → Nat

/-- The bytes of the identity public key (17 R428; log entry 12, DESIGN CHOICE). -/
opaque identityKey : Nat → Byte

/-- The digest of a shadow block that holds registers or control state, whose layout the spec does not give, and the
CRC-32C of a manifest, whose layout it does not give (10 R289; log entry 98, DESIGN CHOICE). -/
opaque shadowDigest : Machine.SealBody → Nat → Word
opaque manifestCrc : List (Bool × Word) → Word

end Sys2Proof.Config
end

