-- ==== Sys2Proof/Machine/Bytes.lean ====
section
/-!
DEFINITION. Bytes and words (00 R5: little-endian), T64 values (03 R77), and the memory's canonical list.
-/

namespace Sys2Proof.Machine

/-- A list of bytes as a number, the first byte least significant (R5). -/
def leNat : List Byte → Nat
  | [] => 0
  | b :: bs => b.toNat + 256 * leNat bs

/-- The `n` low bytes of a number, the least significant first (R5). -/
def toLe : Nat → Nat → List Byte
  | 0, _ => []
  | n + 1, x => BitVec.ofNat 8 x :: toLe n (x / 256)

/-- The `n` bytes of `bs` at `off`, zero beyond its end. -/
def bytesAt (bs : List Byte) (off n : Nat) : List Byte :=
  (List.range n).map fun i => bs.getD (off + i) 0#8

/-- The number held in `n` bytes of `bs` at `off`. -/
def natAt (bs : List Byte) (off n : Nat) : Nat := leNat (bytesAt bs off n)

/-- An 8-byte field. -/
def dwAt (bs : List Byte) (off : Nat) : DWord := BitVec.ofNat 64 (natAt bs off 8)

/-- A 4-byte field. -/
def wAt (bs : List Byte) (off : Nat) : Word := BitVec.ofNat 32 (natAt bs off 4)

/-- Whether some byte of a field is nonzero. -/
def nonzeroAt (bs : List Byte) (off n : Nat) : Bool := natAt bs off n != 0

/-- Bytes of `bs` at `off` replaced by `new`. -/
def setBytes (bs : List Byte) (off : Nat) (new : List Byte) : List Byte :=
  bs.take off ++ new ++ bs.drop (off + new.length)

/-- The nanoseconds of a T64 value (R77). -/
def t64ToNs (t : DWord) : Nat := fieldNat t 63 30 * 1000000000 + fieldNat t 29 0

/-- The T64 value of some nanoseconds (R77). -/
def nsToT64 (ns : Nat) : DWord :=
  BitVec.ofNat 64 ((ns / 1000000000) * 2 ^ 30 + ns % 1000000000)

/-- A signed 64-bit difference is not negative (R6: serial comparison). -/
def serialGe (a b : DWord) : Bool := !(a - b).msb

/-! ## The memory list -/

/-- What a byte that no entry lists reads as (log entry 2, DESIGN CHOICE). -/
def memDefault : Byte := 0#8

/-- The byte at a key. Log entry 2, DESIGN CHOICE. -/
def memGet : List Host.Cell → Nat → Byte
  | [], _ => memDefault
  | (a, b) :: r, k => if a = k then b else memGet r k

/-- Writes a byte and keeps the canonical form: keys rise, and no entry holds the default.
Log entry 2, DESIGN CHOICE. -/
def memSet : List Host.Cell → Nat → Byte → List Host.Cell
  | [], k, b => if b = memDefault then [] else [(k, b)]
  | (a, x) :: r, k, b =>
    if k < a then if b = memDefault then (a, x) :: r else (k, b) :: (a, x) :: r
    else if k = a then if b = memDefault then r else (k, b) :: r
    else (a, x) :: memSet r k b

/-- The canonical form: keys strictly rise from `lo`, and no entry holds the default. -/
def memSorted : Nat → List Host.Cell → Bool
  | _, [] => true
  | lo, (a, b) :: r => decide (lo ≤ a) && b != memDefault && memSorted (a + 1) r

/-- The canonical form of a memory. Log entry 2, DESIGN CHOICE. -/
def Memory.wf (m : List Host.Cell) : Bool := memSorted 0 m

/-- Writes bytes from a key upwards. -/
def memSetBytes : List Host.Cell → Nat → List Byte → List Host.Cell
  | m, _, [] => m
  | m, k, b :: bs => memSetBytes (memSet m k b) (k + 1) bs

/-! ## Keys: one number for every byte that the device reaches -/

/-- The key of a byte: the region of R273 and R287 that holds it, and its address there. -/
def mkKey (region off : Nat) : Nat := region * 2 ^ 60 + off
/-- The region of a key. -/
def keyRegion (k : Nat) : Nat := k / 2 ^ 60
/-- The address of a key in its region. -/
def keyOff (k : Nat) : Nat := k % 2 ^ 60
/-- G7 DRAM (R273, R294). -/
def regDram : Nat := 0
/-- The persistent window (R287). -/
def regKeep : Nat := 1
/-- A peer card's physical memory (R273). -/
def regPeer (card : Nat) : Nat := 2 + card
/-- Host memory, by PCIe address (R273). -/
def regHost : Nat := 34
/-- The scratchpad of a column (R284). -/
def regScratch (c : Nat) : Nat := 40 + c
/-- G7 DRAM's size, 120 GiB (R273). -/
def dramSize : Nat := 120 * 2 ^ 30
/-- The persistent window's size, 512 MiB (R273). -/
def keepSize : Nat := 512 * 2 ^ 20

/-- The lowest subcode whose condition holds. -/
def firstSub (cs : List (Bool × Byte)) : Option Byte := (cs.find? (·.1)).map (·.2)

end Sys2Proof.Machine
end

