-- ==== Sys2Proof/Machine/Access.lean ====
section
/-!
DEFINITION. Reading and updating the parts of the state by their identifiers; pointers, the access checks
(07 R174, R175, 10 R271), translation (10 R272 to R276) and the bytes of memory behind stashes (10 R283).
-/

namespace Sys2Proof.Machine

/-! ## Parts of the state by identifier -/

/-- Whether a thread is the one named. -/
def Thread.is (x : Thread) (t : TRef) : Bool := x.cid == t.cid && x.tid == t.tid
/-- The name of a thread. -/
def Thread.ref (x : Thread) : TRef := ⟨x.cid, x.tid⟩
/-- A thread by name; a thread that has exited stands for one that is not there. -/
def State.thread (s : State) (t : TRef) : Thread :=
  (s.threads.find? fun x => x.is t).getD { cid := t.cid, tid := t.tid, exited := true }
/-- One thread updated. -/
def State.updThread (s : State) (t : TRef) (f : Thread → Thread) : State :=
  { s with threads := s.threads.map fun x => if x.is t then f x else x }
/-- A crew by identifier. -/
def State.crew (s : State) (cid : Nat) : Crew :=
  (s.crews.find? fun c => c.cid == cid).getD { cid := cid, wid := 0 }
/-- One crew updated. -/
def State.updCrew (s : State) (cid : Nat) (f : Crew → Crew) : State :=
  { s with crews := s.crews.map fun c => if c.cid == cid then f c else c }
/-- A workgroup that does not exist. -/
def noWg (wid : Nat) : Workgroup :=
  { wid := wid, lid := 0, col := 0, record :=
    { code := 0, frame := 0, join := 0, threads := 0, flags := 0, deadline := 0 } }
/-- A workgroup by identifier. -/
def State.wg (s : State) (wid : Nat) : Workgroup := (s.wgs.find? fun w => w.wid == wid).getD (noWg wid)
/-- One workgroup updated. -/
def State.updWg (s : State) (wid : Nat) (f : Workgroup → Workgroup) : State :=
  { s with wgs := s.wgs.map fun w => if w.wid == wid then f w else w }
/-- A launch by identifier. -/
def State.launch (s : State) (lid : Nat) : Launch :=
  (s.launches.find? fun l => l.lid == lid).getD { lid := lid, queue := 0 }
/-- One launch updated. -/
def State.updLaunch (s : State) (lid : Nat) (f : Launch → Launch) : State :=
  { s with launches := s.launches.map fun l => if l.lid == lid then f l else l }
/-- The launch of a crew. -/
def State.crewLaunch (s : State) (cid : Nat) : Launch := s.launch (s.wg (s.crew cid).wid).lid
/-- A column. -/
def State.col (s : State) (c : Nat) : Column := s.columns[c]?.getD {}
/-- One column updated. -/
def State.updCol (s : State) (c : Nat) (f : Column → Column) : State :=
  { s with columns := s.columns.setIfInBounds c (f (s.col c)) }
/-- A run by its key. -/
def State.run? (s : State) (k : RunKey) : Option Run := s.runs.find? fun r => r.key == k
/-- One run updated. -/
def State.updRun (s : State) (k : RunKey) (f : Run → Run) : State :=
  { s with runs := s.runs.map fun r => if r.key == k then f r else r }
/-- A context, if it is installed. -/
def State.ctx? (s : State) (n : Nat) : Option Context := s.contexts.find? fun c => c.num == n
/-- One context updated. -/
def State.updCtx (s : State) (n : Nat) (f : Context → Context) : State :=
  { s with contexts := s.contexts.map fun c => if c.num == n then f c else c }
/-- G of a context (R353). -/
def State.genOf (s : State) (n : Nat) : Word := ((s.gens.find? fun x => x.1 == n).map (·.2)).getD 0
/-- G of a context set (R353). -/
def State.setGen (s : State) (n : Nat) (g : Word) : State :=
  { s with gens := (n, g) :: s.gens.filter fun x => x.1 != n }
/-- The column of a crew's workgroup. -/
def State.crewCol (s : State) (cid : Nat) : Nat := (s.wg (s.crew cid).wid).col
/-- TIME (R157, R379). -/
def State.time (s : State) : DWord := nsToT64 s.timeNs
/-- The threads of a crew. -/
def State.crewThreads (s : State) (cid : Nat) : List Thread := s.threads.filter fun t => t.cid == cid
/-- The crews of a workgroup. -/
def State.wgCrews (s : State) (wid : Nat) : List Crew := s.crews.filter fun c => c.wid == wid
/-- The workgroups on a column. -/
def State.colWgs (s : State) (c : Nat) : List Workgroup := s.wgs.filter fun w => w.col == c
/-- The transfer engine's state of a workgroup. -/
def State.xeOf (s : State) (wid : Nat) : XeState := (s.xe.find? fun x => x.wid == wid).getD { wid := wid }
/-- That state updated, made if it is not there. -/
def State.updXe (s : State) (wid : Nat) (f : XeState → XeState) : State :=
  if s.xe.any fun x => x.wid == wid then
    { s with xe := s.xe.map fun x => if x.wid == wid then f x else x }
  else { s with xe := s.xe ++ [f { wid := wid }] }
/-- A queue. -/
def State.queue (s : State) (q : Nat) : Queue := s.queues[q]?.getD {}
/-- One queue updated. -/
def State.updQueue (s : State) (q : Nat) (f : Queue → Queue) : State :=
  { s with queues := s.queues.setIfInBounds q (f (s.queue q)) }
/-- A fresh identifier. Log entry 86, DESIGN CHOICE. -/
def State.fresh (s : State) : Nat × State := (s.nextId, { s with nextId := s.nextId + 1 })
/-- The position of a column's span, and its span (R3). -/
def spanOf (c : Nat) : Nat := c / 4

/-! ## The device cache (R280 to R282) -/

/-- The column whose slice homes an IA (R282). -/
def homeSlice (ia : Nat) : Nat :=
  let h := ia % 2 ^ 60 / 128
  (h % 65536 ^^^ h / 2 ^ 16 % 65536 ^^^ h / 2 ^ 32 % 65536 ^^^ h / 2 ^ 48 % 32) % 96

/-- The controller whose translation cache serves an IA; its pair is that number mod 8 (R275, R282). Which
controller of the pair does, the spec does not state: the next bit of the IA chooses (log entry 96, DESIGN
CHOICE). -/
def ctlOf (ia : Nat) : Nat := ia % 2 ^ 60 / 65536 % 16

/-- The code word that protects a byte: 32 B of G7 DRAM (R294), a sector of 16 B elsewhere (R358). -/
def codeWord (k : Nat) : Nat := if keyRegion k = regDram then k / 32 * 32 else k / 16 * 16

/-- A saturating counter one higher. -/
def satInc (w : Word) : Word := if w = BitVec.allOnes 32 then w else w + 1

/-- A single-bit error corrected and counted where it lies (R294, R295, R358). Log entry 67, DESIGN CHOICE. -/
def State.countCe (s : State) (key : Nat) : State :=
  let i := keyOff key / 1920 % 16
  if keyRegion key = regDram then
    { s with dramCe := s.dramCe.setIfInBounds i (satInc (s.dramCe[i]?.getD 0)) }
  else if keyRegion key = regKeep then { s with rindCe := satInc s.rindCe }
  else if 40 ≤ keyRegion key then
    s.updCol (keyRegion key - 40) fun x => { x with poolCe := satInc x.poolCe }
  else s

/-- A read of the memory behind the device cache corrects the code word of a key (R295).
Log entry 67, DESIGN CHOICE. -/
def State.correct (s : State) (k : Nat) : State :=
  if s.weak.contains (codeWord k) then
    { s with weak := s.weak.filter fun w => w != codeWord k }.countCe k
  else s

/-- A line of the device cache holds the sector of a key. -/
def DcLine.holds (l : DcLine) (k : Nat) : Bool :=
  l.key == k / 128 * 128 && l.sectors.any fun x => x.1 == k % 128 / 16
/-- The device cache holds the sector of a key. -/
def State.dcHolds (s : State) (k : Nat) : Bool := s.dcache.any fun l => l.holds k

/-- The sector of a key would be read with an uncorrectable error (R182, R295). -/
def State.badAt (s : State) (k : Nat) : Bool := s.bad.contains (codeWord k) && !s.dcHolds k

/-- A sector within `n` bytes of a key that has an uncorrectable error (R182, R295). -/
def State.eccAt (s : State) (k n : Nat) : Option Nat :=
  ((List.range ((k + n - 1) / 16 - k / 16 + 1)).map fun i => (k / 16 + i) * 16).find? fun x => s.badAt x

/-- How many lines a slice holds (R280, R285). Log entry 97, DESIGN CHOICE. -/
def Column.dcLines (x : Column) : Nat := (12 - x.poolCurrent) * 4096

/-- The line that a full slice evicts: of the lowest retention class, the one used longest ago. What the spec
leaves open of the ways' sets the model leaves out: log entry 97, DESIGN CHOICE. -/
def dcVictim (home : Nat) (ls : List DcLine) : Option DcLine :=
  let mine := ls.filter fun l => l.home == home
  (mine.filter (·.ef)).getLast? <|> mine.getLast?

/-- The lines of a slice cut to its capacity: each eviction writes its dirty sectors back (R280).
Log entry 97, DESIGN CHOICE. -/
def dcTrim (home cap : Nat) : Nat → List DcLine → List DcLine
  | 0, ls => ls
  | n + 1, ls =>
    if (ls.filter fun l => l.home == home).length ≤ cap then ls
    else match dcVictim home ls with
      | none => ls
      | some v => dcTrim home cap n (ls.filter fun l => l.key != v.key)

/-- The sector of a key enters the device cache, clean, on its line, which is used last from now on (R280).
Log entry 97, DESIGN CHOICE. -/
def State.dcInsert (s : State) (k home : Nat) : State :=
  let line := k / 128 * 128
  let l := (s.dcache.find? fun l => l.key == line).getD { key := line, home := home }
  let l' := if l.holds k then l else { l with sectors := (k % 128 / 16, none) :: l.sectors }
  let rest := s.dcache.filter fun x => x.key != line
  { s with dcache := dcTrim l'.home (s.col l'.home).dcLines 1 (l' :: rest) }

/-- An access of space 0 or 5 at its home slice: the sector is filled from memory unless it is held or has an
uncorrectable error (R280, R281, R295). -/
def State.dcFill (s : State) (k home : Nat) : State :=
  if keyRegion k ≠ regDram ∧ keyRegion k ≠ regKeep then s
  else if s.dcHolds k then s.dcInsert k home
  else if s.badAt k then s
  else (s.correct k).dcInsert k home

/-- The home slice's accesses of the sectors of `n` bytes for the host or a peer card (R281). A line that no core has
brought in is homed as its physical address says. Log entry 97, DESIGN CHOICE. -/
def State.dcFillAll (s : State) (k n : Nat) : State :=
  (List.range ((k + n - 1) / 16 - k / 16 + 1)).foldl
    (fun acc i => acc.dcFill ((k / 16 + i) * 16) (homeSlice (keyOff k))) s

/-- A write at a key whose sector is held: a sector of G7 DRAM becomes dirty, and remembers the 16 bytes that
memory still holds (R280); one of the persistent window is written through (R292). -/
def dcWrite (k : Nat) (old : List Byte) (ls : List DcLine) : List DcLine :=
  if keyRegion k ≠ regDram then ls
  else ls.map fun l =>
    if l.key == k / 128 * 128 then
      { l with sectors := l.sectors.map fun x =>
          if x.1 == k % 128 / 16 then (x.1, x.2 <|> some old) else x }
    else l

/-- The sector of a key leaves the device cache (R176, R283). -/
def dcDrop (k : Nat) (ls : List DcLine) : List DcLine :=
  ls.map fun l => if l.key == k / 128 * 128 then
    { l with sectors := l.sectors.filter fun x => x.1 != k % 128 / 16 } else l

/-- The line of a key has the lowest retention (R176). -/
def State.dcLow (s : State) (k : Nat) : State :=
  { s with dcache := s.dcache.map fun l => if l.key == k / 128 * 128 then { l with ef := true } else l }

/-! ## Bytes behind stashes -/

/-- The stash sector that holds a global byte (R283). -/
def State.stashOf (s : State) (k : Nat) : Option StashSector :=
  s.wgs.findSome? fun w => w.stash.findSome? fun e => e.sectors.find? fun x => x.gkey == some (k / 16 * 16)
/-- Where a byte is served: the stash copy once its sector is filled (R283). -/
def State.route (s : State) (k : Nat) : Nat :=
  match s.stashOf k with
  | some x => x.skey + k % 16
  | none => k
/-- The byte at a key, as the agent that homes it serves it. -/
def State.byte (s : State) (k : Nat) : Byte := memGet s.mem (s.route k)
/-- `n` bytes from a key upwards. -/
def State.bytes (s : State) (k n : Nat) : List Byte := (List.range n).map fun i => s.byte (k + i)

/-- The stash sectors of a workgroup. -/
def Workgroup.sectors (w : Workgroup) : List StashSector := w.stash.flatMap (·.sectors)
/-- Every stash sector of a workgroup changed. -/
def Workgroup.mapSectors (f : StashSector → StashSector) (w : Workgroup) : Workgroup :=
  { w with stash := w.stash.map fun e => { e with sectors := e.sectors.map f } }

/-- The stash sectors that `p` names are dirty (R192, R283). -/
def Workgroup.markDirty (p : StashSector → Bool) (w : Workgroup) : Workgroup :=
  if w.sectors.any fun x => p x && !x.dirty then
    { w.mapSectors (fun x => if p x && !x.dirty then { x with dirty := true, order := w.dirtied } else x) with
      dirtied := w.dirtied + 1 }
  else w

/-- A stash sector's contents written to its global bytes, where its page is resident (R192, R276). -/
def writeBack (m : List Host.Cell) (x : StashSector) : List Host.Cell :=
  match x.gkey with
  | some g => memSetBytes m g ((List.range 16).map fun i => memGet m (x.skey + i))
  | none => m

/-- A stash sector that can be written back: dirty, its page resident. -/
def StashSector.ready (x : StashSector) : Bool := x.dirty && x.gkey.isSome

/-- The dirty sectors that an eviction writes back: all but the 4,096 youngest (R283). -/
def Workgroup.evicted (w : Workgroup) : List StashSector :=
  let ds := (w.sectors.filter (·.ready)).mergeSort fun x y => x.order ≤ y.order
  ds.take (ds.length - 4096)

/-- Every stash sector that `p` names is dirty, and a workgroup with too many dirty sectors evicts (R283). -/
def State.markDirty (s : State) (p : StashSector → Bool) : State :=
  let wgs := s.wgs.map (Workgroup.markDirty p)
  { s with
    mem := (wgs.flatMap Workgroup.evicted).foldl writeBack s.mem
    wgs := wgs.map fun w =>
      let out := w.evicted
      if out.isEmpty then w
      else w.mapSectors fun x => if out.any fun y => y.skey == x.skey then { x with dirty := false } else x }

/-- Some bytes laid over the ones from a key on, at another key. -/
def layBytes (at_ : Nat) (new : List Byte) (k : Nat) (bs : List Byte) : List Byte :=
  (List.range bs.length).map fun i =>
    if at_ ≤ k + i ∧ k + i < at_ + new.length then new.getD (k + i - at_) 0 else bs.getD i 0

/-- A write to a peer card goes through the local copy of its sector (R176, R281). -/
def peerPut (k : Nat) (bs : List Byte) (ls : List PeerLine) : List PeerLine :=
  ls.map fun l => if l.key == k / 128 * 128 then
    { l with sectors := l.sectors.map fun x => (x.1, layBytes k bs (l.key + 16 * x.1) x.2) } else l

/-- The sector of a key leaves the local copies of a peer card's memory (R176). -/
def peerDrop (k : Nat) (ls : List PeerLine) : List PeerLine :=
  ls.map fun l => if l.key == k / 128 * 128 then
    { l with sectors := l.sectors.filter fun x => x.1 != k % 128 / 16 } else l

/-- Two ranges overlap. -/
def overlaps (a n b m : Nat) : Bool := decide (a < b + m ∧ b < a + n)

/-- A store that a span does not see yet touches some bytes (R308). -/
def Lag.touches (l : Lag) (k n : Nat) : Bool := overlaps l.key l.old.length k n

/-- Bytes written at a key by a thread's store or by nobody's: through a stash copy, which becomes dirty, while
the home slice's copy goes; a write to the persistent window becomes durable later, one to a peer card goes through the
local copy (R190, R281, R283, R292). At most one sector is touched. Log entry 21, DEDUCED. -/
def State.putBy (s : State) (o : Option (TRef × Nat)) (k : Nat) (bs : List Byte) : State :=
  let old := (List.range 16).map fun i => memGet s.mem (k / 16 * 16 + i)
  let s1 := { s with
    mem := memSetBytes s.mem (s.route k) bs
    peerLines := peerPut k bs s.peerLines
    lags := s.lags.filter fun l => !l.touches k bs.length
    keepQ := if keyRegion k = regKeep then
      s.keepQ ++ [(⟨k, bs, o.map Prod.fst, (o.map Prod.snd).getD 0⟩ : KeepWrite)] else s.keepQ }
  match s.stashOf k with
  | some x => ({ s1 with dcache := dcDrop k s1.dcache } : State).markDirty fun y => y.gkey == x.gkey
  | none =>
    if 40 ≤ keyRegion k ∧ s.wgs.any (fun w => w.stash.any fun e => e.sectors.any fun x =>
        x.skey == k / 16 * 16) then s1.markDirty fun y => y.skey == k / 16 * 16
    else { s1 with dcache := dcWrite k old s1.dcache }

/-- Bytes written at a key by no thread's store. -/
def State.put (s : State) (k : Nat) (bs : List Byte) : State := s.putBy none k bs

/-- The parts of some bytes at an address that lie in one sector each: where a part begins among the bytes, and the
part. -/
def sectorParts (k : Nat) (bs : List Byte) : List (Nat × List Byte) :=
  (List.range ((k % 16 + bs.length + 15) / 16)).map fun i =>
    let lo := 16 * i - k % 16
    (lo, (bs.drop lo).take (16 * (i + 1) - k % 16 - lo))

/-- Bytes of any number written at a key, sector by sector (R318). -/
def State.putAll (s : State) (k : Nat) (bs : List Byte) : State :=
  (sectorParts k bs).foldl (fun acc p => acc.put (k + p.1) p.2) s

/-! ## Translation -/

/-- The IA bits below a page of a level (R272). -/
def levelShift : Nat → Nat
  | 0 => 16 | 1 => 21 | 2 => 30 | _ => 36
/-- How many entries a table of a level has (R272). -/
def levelEntries : Nat → Nat
  | 0 => 32 | 1 => 512 | 2 => 64 | _ => 65536

/-- What a walk or a translation-cache look-up gives: the key of the byte, or the kind of page fault
(R274). -/
inductive Walk where
  | leaf (level : Nat) (entry : DWord) (at_ : Option Nat)
  | fault (kind : Nat)
  deriving DecidableEq, Repr

/-- The memory region of a leaf's TARGET, its size, and the TARGET that a space needs (R273). -/
def spaceTarget (space : Nat) : Nat :=
  match space with
  | 0 => 0 | 3 => 2 | 4 => 3 | 5 => 1 | _ => 15
/-- The frame of an entry, FRAME[51:16] followed by sixteen zeros (R273). -/
def pteFrame (e : DWord) : Nat := fieldNat e 51 16 * 65536
/-- Reserved bits of an entry are zero (R273). -/
def pteResvOk (e : DWord) : Bool :=
  fieldNat e 54 52 == 0 && fieldNat e 7 4 == 0 && (fieldNat e 63 60 == 2 || fieldNat e 59 55 == 0)
/-- The key that a leaf gives a byte (R273). -/
def leafKey (level : Nat) (e : DWord) (ia : Nat) : Nat :=
  let off := pteFrame e + ia % 2 ^ levelShift level
  match fieldNat e 63 60 with
  | 0 => mkKey regDram off
  | 1 => mkKey regKeep off
  | 2 => mkKey (regPeer (fieldNat e 59 55)) off
  | _ => mkKey regHost off
/-- The checks of a leaf for one access: its kind of page fault, if any (R274). -/
def leafFault (level : Nat) (e : DWord) (ia space : Nat) (write : Bool) : Option Nat :=
  let off := pteFrame e + ia % 2 ^ levelShift level
  if fieldNat e 15 8 ≠ 0 ∨ pteFrame e % 2 ^ levelShift level ≠ 0 then some 1
  else if fieldNat e 63 60 ≠ spaceTarget space then some 2
  else if (space = 0 ∧ dramSize ≤ off) ∨ (space = 5 ∧ keepSize ≤ off) then some 3
  else if write ∧ ¬ bit e 2 then some 4
  else none

/-- The eight bytes of a page-table entry, read from G7 DRAM and from no stash copy (R276). What a walk does with an
entry whose read finds an uncorrectable error the spec does not say: it goes on with a free value (R295; log entry 67,
DESIGN CHOICE). -/
def State.pte (s : State) (addr : Nat) : DWord :=
  if s.bad.contains (codeWord (mkKey regDram addr)) then Config.freeDWord 19 addr
  else BitVec.ofNat 64 (leNat ((List.range 8).map fun i => memGet s.mem (mkKey regDram addr + i)))

/-- A walk from a table of a level (R272, R274). -/
def State.walkFrom (s : State) (ia space : Nat) (write : Bool) : Nat → Nat → Walk
  | level, tbl =>
    let addr := tbl + 8 * (ia / 2 ^ levelShift level % levelEntries level)
    let e := s.pte addr
    if dramSize < addr + 8 then .fault 3
    else if ¬ bit e 0 then .fault 0
    else if ¬ pteResvOk e then .fault 1
    else if bit e 1 then
      match leafFault level e ia space write with
      | some k => .fault k
      | none => .leaf level e (some addr)
    else match level with
      | 0 => .fault 1
      | l + 1 =>
        let next := pteFrame e + fieldNat e 15 8 * 256
        if fieldNat e 63 60 ≠ 0 then .fault 1
        else if next % (8 * levelEntries l) ≠ 0 then .fault 1
        else s.walkFrom ia space write l next

/-- The entries that a walk from a table of a level reads. -/
def State.walkAddrs (s : State) (ia : Nat) : Nat → Nat → List Nat
  | level, tbl =>
    let addr := tbl + 8 * (ia / 2 ^ levelShift level % levelEntries level)
    let e := s.pte addr
    if dramSize < addr + 8 then []
    else match level with
      | 0 => [addr]
      | l + 1 => addr :: if ¬ bit e 0 ∨ bit e 1 then [] else s.walkAddrs ia l (pteFrame e + fieldNat e 15 8 * 256)

/-- What the reads of an address's walk correct (R295). Log entry 67, DESIGN CHOICE. -/
def State.walkFix (s : State) (ia : Nat) : State :=
  match s.ctx? (ia / 2 ^ 52 % 256) with
  | none => s
  | some c => (s.walkAddrs (ia % 2 ^ 52) 3 c.root).foldl (fun acc a => acc.correct (mkKey regDram a)) s

/-- The entry of an address in its controller's translation cache (R275). Log entry 96, DESIGN CHOICE. -/
def State.tlbFind (s : State) (ctx ia : Nat) : Option TlbEntry :=
  s.tlb.find? fun t => t.ctl == ctlOf ia && t.ctx == ctx && t.page == ia / 2 ^ levelShift t.level

/-- The translation of IA[51:0] in a context: the cached leaf, or a walk. A write through a clean leaf
walks, so that the walker sets DIRTY (R273, R275, R276). -/
def State.lookup (s : State) (ctx ia space : Nat) (write : Bool) : Walk :=
  let walk := match s.ctx? ctx with
    | some c => s.walkFrom ia space write 3 c.root
    | none => .fault 0
  match s.tlbFind ctx ia with
  | some t =>
    if write ∧ ¬ bit t.leaf 3 then walk
    else match leafFault t.level t.leaf ia space write with
      | some k => .fault k
      | none => .leaf t.level t.leaf none
  | none => walk

/-- How many entries a controller's translation cache has (R275). Log entry 96, DESIGN CHOICE. -/
def tlbSize : Nat := 4096

/-- An entry is used: it comes first, and the one used longest ago leaves a full cache. The sets that R275 speaks of
have no stated size: the model takes each cache as one set (log entry 96, DESIGN CHOICE). -/
def tlbUse (e : TlbEntry) (ts : List TlbEntry) : List TlbEntry :=
  let same (t : TlbEntry) : Bool := t.ctl == e.ctl && t.ctx == e.ctx && t.page == e.page && t.level == e.level
  let rest := ts.filter fun t => !same t
  e :: ((rest.filter fun t => t.ctl == e.ctl).take (tlbSize - 1) ++ rest.filter fun t => t.ctl != e.ctl)

/-- A leaf taken into the translation cache, with DIRTY set in G7 DRAM by a write (R273, R275, R276). -/
def State.fillTlb (s : State) (ctx ia level : Nat) (e : DWord) (addr : Nat) (write : Bool) : State :=
  let e' := if write then e ||| 8#64 else e
  let s1 := if e' = e then s else { s with mem := memSetBytes s.mem (mkKey regDram addr) (toLe 8 e'.toNat) }
  let new : TlbEntry := { ctl := ctlOf ia, ctx := ctx, page := ia / 2 ^ levelShift level, level := level, leaf := e' }
  let rest := s1.tlb.filter fun t => !(t.ctl == ctlOf ia && t.ctx == ctx && t.page == ia / 2 ^ levelShift t.level)
  { s1 with tlb := tlbUse new rest }

/-- Where an access goes: a key, or a page fault with its kind and IA. -/
inductive Loc where
  | at (s : State) (k : Nat)
  | pageFault (kind ia space : Nat)

/-- An IA translated: the state with the translation cached and the sector at its home slice, and the key (R273,
R274, R281). -/
def State.translate (s : State) (ia space : Nat) (write : Bool) : Loc :=
  let ctx := ia / 2 ^ 52 % 256
  let a := ia % 2 ^ 52
  match s.lookup ctx a space write with
  | .fault k => .pageFault k ia space
  | .leaf l e none =>
    let s1 : State := { s with tlb := ((s.tlbFind ctx a).map fun t => tlbUse t s.tlb).getD s.tlb }
    .at (s1.dcFill (leafKey l e a) (homeSlice ia)) (leafKey l e a)
  | .leaf l e (some addr) =>
    .at (((s.walkFix ia).fillTlb ctx a l e addr write).dcFill (leafKey l e a) (homeSlice ia)) (leafKey l e a)

/-- The stash sectors that `p` names, translated once more: as a write where they are dirty (R276). Log entry 30,
DEDUCED. -/
def State.remapStash (s : State) (p : StashSector → Bool) : State :=
  ((s.wgs.flatMap Workgroup.sectors).filter p).foldl (fun acc x =>
    let set (s : State) (g : Option Nat) : State :=
      { s with wgs := s.wgs.map (Workgroup.mapSectors fun y => if y.skey == x.skey then { y with gkey := g } else y) }
    match acc.translate x.ia 0 x.dirty with
    | .at a k => set a (some (k / 16 * 16))
    | .pageFault .. => set acc none) s

/-! ## The access checks -/

/-- The permissions of R269: R, W, A, X. -/
def permR : BitVec 4 := 1#4
def permW : BitVec 4 := 2#4
def permRWA : BitVec 4 := 7#4
def permX : BitVec 4 := 8#4

/-- The cause of a failed step of R174. -/
def stepCause : Nat → Byte
  | 1 => 0x40#8 | 2 => 0x41#8 | 3 => 0x42#8 | 4 => 0x43#8 | 5 => 0x44#8 | _ => 0x47#8

/-- SPACE of a pointer (R268). -/
def ptrSpace (p : DWord) : Nat := fieldNat p 63 60
/-- OFFSET of a pointer (R268). -/
def ptrOff (p : DWord) : Nat := fieldNat p 51 0
/-- A pointer moved within its space and region (R173). -/
def ptrAdd (p : DWord) (n : Nat) : DWord :=
  (bits p 63 52 ++ BitVec.ofNat 52 (ptrOff p + n) : BitVec 64)

/-- Whether a range register takes part in matching a pointer (R271). -/
def RangeReg.matches (r : RangeReg) (p : DWord) : Bool :=
  bit r.ctl 7 && fieldNat r.base 63 60 == ptrSpace p &&
    decide (fieldNat r.base 51 16 ≤ fieldNat p 51 16 ∧ fieldNat p 51 16 ≤ fieldNat r.limit 51 16)

/-- Steps 4 and 5 of R174 (R271): the IA, or the failing step. -/
def Context.check (c : Context) (p : DWord) (size : Nat) (need : BitVec 4) : Except Nat Nat :=
  match c.ranges.toList.find? fun r => r.matches p with
  | none => .error 4
  | some rr =>
    let e := ptrOff p + size - 1
    if 2 ^ 52 ≤ e ∨ fieldNat rr.limit 51 16 < e / 65536 then .error 4
    else
      let ia := fieldNat rr.xlat 59 52 * 2 ^ 52 + (ptrOff p + fieldNat rr.xlat 51 16 * 65536) % 2 ^ 52
      let ent := c.bounds.getD (fieldNat p 59 52) {}
      if ¬ bit ent.ctl 7 ∨ ia < ent.lo ∨ ent.hi < ia + size - 1 then .error 4
      else if need &&& (rr.ctl.setWidth 4 &&& ent.ctl.setWidth 4) = need then .ok ia
      else .error 5

/-- Who makes an access: the context whose tables check it, and the workgroup whose scratchpad spaces 1 and
2 name, if any. -/
structure Who where
  ctx : Nat
  wid : Option Nat
  deriving DecidableEq, Repr

/-- The workgroup that a crew acts for. -/
def State.whoCrew (s : State) (cid : Nat) : Who :=
  ⟨(s.crewLaunch cid).ctx, some (s.crew cid).wid⟩
/-- Accesses on behalf of a workgroup (R250, R271). -/
def State.whoWg (s : State) (wid : Nat) : Who := ⟨(s.launch (s.wg wid).lid).ctx, some wid⟩

/-- SPAN of a launch (R422). -/
def Launch.span (l : Launch) : Bool := bit (l.record.getD 115 0) 7
/-- DETERMINISTIC of a launch. -/
def Launch.deterministic (l : Launch) : Bool := bit (l.record.getD 115 0) 5

/-- The workgroup that a space-2 pointer names: that of the same launch placed with `w` at the span
position (R175, R335). -/
def State.spanPeer (s : State) (w : Workgroup) (pos : Nat) : Option Workgroup :=
  if (s.launch w.lid).span then
    s.wgs.find? fun x => x.lid == w.lid && x.col == spanOf w.col * 4 + pos &&
      x.index.map (· / 4) == w.index.map (· / 4) && !x.task
  else none

/-- The scratchpad rule (R175, R285): the allocation's workgroup and the offset in it, or none. -/
def State.scratchCheck (s : State) (w : Who) (p : DWord) (size : Nat) : Option (Workgroup × Nat) :=
  let fits (x : Workgroup) (o : Nat) : Option (Workgroup × Nat) :=
    if o + size ≤ x.scratchSize ∧ x.scratchBase + o + size ≤ (s.col x.col).poolCurrent * 524288 then
      some (x, o) else none
  match w.wid with
  | none => none
  | some wid =>
    let me := s.wg wid
    if ptrSpace p = 1 then
      if fieldNat p 59 52 = 0 then fits me (ptrOff p) else none
    else if fieldNat p 59 52 = 0 ∧ fieldNat p 51 24 = 0 then
      match s.spanPeer me (fieldNat p 23 22) with
      | some x => fits x (fieldNat p 21 0)
      | none => none
    else none

/-- Where a checked pointer goes: scratchpad of a workgroup, or an IA. -/
inductive Dest where
  | scratch (wid off : Nat)
  | global (space ia : Nat)
  deriving DecidableEq, Repr

/-- Steps 1 to 5 of R174; `align` is whether step 1 applies (R250). -/
def State.check (s : State) (w : Who) (p : DWord) (size : Nat) (need : BitVec 4) (align : Bool := true) :
    Except Nat Dest :=
  if align ∧ ptrOff p % size ≠ 0 then .error 1
  else if 6 ≤ ptrSpace p then .error 2
  else if ptrSpace p = 1 ∨ ptrSpace p = 2 then
    match s.scratchCheck w p size with
    | some (x, o) => .ok (.scratch x.wid o)
    | none => .error 3
  else match s.ctx? w.ctx with
    | none => .error 4
    | some c => match c.check p size need with
      | .ok ia => .ok (.global (ptrSpace p) ia)
      | .error e => .error e

/-! ## The stores of a core that are not performed yet -/

/-- The bytes that an atomic touches: 16 and 17 are the two cas forms, 18 is join.dec's decrement (R164, R184, R185). -/
def atomicSize (k : BitVec 5) : Nat :=
  if k = 17#5 then 8 else if 16 ≤ k.toNat then 4 else atomSize (k.setWidth 4)

/-- The bytes that a store, a reduction or an atomic touches. -/
def StoreOp.size : StoreOp → Nat
  | .write bs => bs.length
  | .reduce k _ => redSize k
  | .mark _ => 0
  | .atomic k _ _ => atomicSize k

/-- The core's stores, reductions and atomics that are not performed, in core store order (R301). -/
def Column.pendingStores (x : Column) : List Released := x.banked ++ x.released

/-- A store touches some of the `n` bytes at a key. Both are taken where they are served (R283). -/
def HeldStore.touches (s : State) (k n : Nat) (h : HeldStore) : Bool :=
  overlaps (s.route h.key) h.op.size (s.route k) n

/-- Where an access lies in a stash entry of the launch's span: the workgroup, the entry, the offset of the
sector (R283). -/
def State.stashAt (s : State) (ia : Nat) : Option (Nat × StashEntry × Nat) :=
  s.wgs.findSome? fun w => (w.stash.find? fun e => decide (e.ia ≤ ia ∧ ia < e.ia + e.len)).map fun e =>
    (w.wid, e, e.off + (ia - e.ia) / 16 * 16)

/-- A stash sector filled on its first touch (R192): the global sector is translated and copied.
Log entry 30, DEDUCED. -/
def State.fillSector (s : State) (wid : Nat) (e : StashEntry) (sec : Nat) : Loc :=
  let w := s.wg wid
  let skey := mkKey (regScratch w.col) (w.scratchBase + sec)
  if e.sectors.any fun x => x.skey == skey then .at s skey
  else match (s.check (s.whoWg wid) (ptrAdd e.base (sec - e.off)) 16 permR) with
    | .error _ => .at s skey
    | .ok (.scratch _ _) => .at s skey
    | .ok (.global sp ia) => match s.translate ia sp false with
      | .pageFault k i p => .pageFault k i p
      | .at s1 g =>
        let s2 := { s1 with mem := memSetBytes s1.mem skey (s1.bytes g 16) }
        .at (s2.updWg wid fun x => { x with stash := x.stash.map fun y =>
          if y.idx == e.idx then
            { y with sectors := y.sectors ++ [{ skey := skey, gkey := some (g / 16 * 16), ia := ia }] } else y }) skey

/-- The stash entry whose global range holds a key, under the present translation: its workgroup and the offset of the
sector (R283). -/
def State.mappedAt (s : State) (k : Nat) : Option (Nat × StashEntry × Nat) :=
  s.wgs.findSome? fun w => w.stash.findSome? fun e => (List.range (e.len / 65536 + 2)).findSome? fun j =>
    let page := (e.ia / 65536 + j) * 65536
    match s.lookup (page / 2 ^ 52 % 256) (page % 2 ^ 52) 0 false with
    | .fault _ => none
    | .leaf l x _ =>
      let base := leafKey l x (page % 2 ^ 52)
      let ia := page + (k - base)
      if base ≤ k ∧ k < base + 65536 ∧ e.ia ≤ ia ∧ ia < e.ia + e.len then
        some (w.wid, e, e.off + (ia - e.ia) / 16 * 16)
      else none

/-- A write that reaches the home of a key in a stash entry's global range is performed on the stash copy, which is
filled first (R283). -/
def State.fillAt (s : State) (k : Nat) : State :=
  if (s.stashOf k).isSome ∨ s.wgs.all (fun w => w.stash.isEmpty) then s
  else match s.mappedAt k with
    | none => s
    | some (wid, e, sec) => match s.fillSector wid e sec with
      | .at s1 _ => s1
      | .pageFault .. => s

/-- The same for every sector of `n` bytes at a key. -/
def State.fillAll (s : State) (k n : Nat) : State :=
  ((List.range ((k % 16 + n + 15) / 16)).map fun i => k / 16 * 16 + 16 * i).foldl (fun acc x => acc.fillAt x) s

/-- The L1 of a workgroup's core holds no line of the entries' global ranges (R183, R192, R277): what the core's threads
wrote through the scratchpad is read anew. -/
def State.dropStashLines (s : State) (wid : Nat) (es : List StashEntry) : State :=
  if es.isEmpty then s
  else s.updCol (s.wg wid).col fun x => { x with l1 := x.l1.filter fun l =>
    !(es.any fun e => decide (e.ia / 128 ≤ l.line ∧ l.line < (e.ia + e.len + 127) / 128)) }

/-- The key of an access: translation, or the scratchpad byte behind a stash entry that is filled first
(R174 step 7, R192). A write to a stash entry's global range is performed on the stash copy, filled first (R283); one
through the scratchpad is a write to the global page too. An access lies in one sector. Log entry 30, DEDUCED. -/
def State.locate (s : State) (d : Dest) (write : Bool) : Loc :=
  match d with
  | .global sp ia =>
    match (if write && sp == 0 then s.stashAt ia else none) with
    | none => s.translate ia sp write
    | some (wid, e, sec) => match s.fillSector wid e sec with
      | .at s1 _ => s1.translate ia sp write
      | .pageFault a b c => .pageFault a b c
  | .scratch wid off =>
    let w := s.wg wid
    let k := mkKey (regScratch w.col) (w.scratchBase + off)
    match w.stash.find? fun e => decide (e.off ≤ off ∧ off < e.off + e.len) with
    | none => .at s k
    | some e => match s.fillSector wid e (off / 16 * 16) with
      | .pageFault a b c => .pageFault a b c
      | .at s1 _ =>
        if ¬ write then .at s1 k
        else match s1.translate (e.ia + (off - e.off)) 0 true with
          | .at s2 _ => .at s2 k
          | .pageFault a b c => .pageFault a b c

/-! ## Ownership of lines in a deterministic launch -/

/-- The classes of a line (R367). -/
inductive LineClass where
  | priv | foreign | readOnly | shared
  deriving DecidableEq, Repr

/-- The class of the line of an address for a workgroup (R367). -/
def classify (d : DetInfo) (index : Option Nat) (ea : DWord) : LineClass :=
  if ptrSpace ea ≠ 0 then .shared
  else match d.own.find? fun e => decide (e.base ≤ ptrOff ea ∧ ptrOff ea < e.base + e.len) with
    | none => .shared
    | some e =>
      if e.kind = 1 then
        if index = some (e.first + (ptrOff ea - e.base) / e.chunk) then .priv else .foreign
      else if e.kind = 2 then .readOnly else .shared

/-- The workgroup runs redundantly (R373). -/
def Launch.redundant (l : Launch) (index : Option Nat) : Bool :=
  l.deterministic && match l.det.redMode, index with
    | 1, some _ => true
    | 2, some i => i % l.det.redStride == 0
    | _, _ => false

/-- The pointer that an access acts on: in a deterministic launch, the global one of a scratchpad address in a stash
entry, unless its line is private to the workgroup and not redundant (R192, R368, R373). -/
def State.actEa (s : State) (wid : Nat) (ea : DWord) : DWord :=
  let w := s.wg wid
  let l := s.launch w.lid
  if ¬ l.deterministic ∨ ptrSpace ea ≠ 1 then ea
  else match w.stash.find? fun e => decide (e.off ≤ ptrOff ea ∧ ptrOff ea < e.off + e.len) with
    | none => ea
    | some e =>
      let g := ptrAdd e.base (ptrOff ea - e.off)
      if classify l.det w.index g = .priv ∧ ¬ l.redundant w.index then ea else g

/-- What a deterministic launch forbids an engine to write (R368). -/
def State.engWriteFails (s : State) (wid : Nat) (ea : DWord) : Bool :=
  let p := s.actEa wid ea
  let w := s.wg wid
  let l := s.launch w.lid
  l.deterministic &&
    if ptrSpace p = 1 then false
    else if ptrSpace p = 2 then fieldNat p 23 22 != w.col % 4
    else l.redundant w.index || classify l.det w.index p != .priv

/-! ## Pools without power -/

/-- The columns whose pools an access reaches: of its scratchpad; of its home slice, and of the stash copy that serves it
(R281, R283, R362). -/
def State.poolCols (s : State) : Dest → List Nat
  | .scratch wid _ => [(s.wg wid).col]
  | .global sp ia =>
    (if sp = 0 ∨ sp = 5 then [homeSlice ia] else []) ++ match s.stashAt ia with
      | some (wid, _) => [(s.wg wid).col]
      | none => []

/-- The column has power and is not gated: its pool and its barrier logic answer (R362). -/
def Column.awake (x : Column) : Bool := x.powered && !x.gated

/-- A column whose pool an access reaches has no power (R362, R363). -/
def State.poolDown (s : State) (d : Dest) : Bool := (s.poolCols d).any fun c => !(s.col c).awake

/-- An access to pools clears REQ of those of their columns that are gated (R362). Log entry 40, DEDUCED. -/
def State.wakePool (s : State) (d : Dest) : State :=
  (s.poolCols d).foldl (fun acc c => acc.updCol c fun x => if x.gated then { x with gateReq := false } else x) s

end Sys2Proof.Machine
end

