-- ==== Sys2Proof/Machine/Queues.lean ====
section
/-!
DEFINITION. Engine counters (01 R22, 11 R311), registers written by results that land (R26), and queue
registers: rings (07 R203), feed channels (08 R218 to R221), hit queues (09 R261), sampling contexts (R253 to
R255).
-/

namespace Sys2Proof.Machine

/-! ## Engine counters -/

/-- The value of a counter of ENGINE_CNT: the operations of the class that have not retired (R22, R311). -/
def Crew.count (c : Crew) (cls : EngClass) : Nat := (c.ops.filter fun o => o.cls == cls).length

/-- Operations that retire: complete, with no older operation of their class that is not (R311). -/
def retireOps (open_ : List EngClass) : List EngOp → List EngOp
  | [] => []
  | o :: os =>
    if o.done ∧ ¬ open_.contains o.cls then retireOps open_ os
    else o :: retireOps (o.cls :: open_) os

/-- An operation enters its crew's counter (R22). -/
def State.addOp (s : State) (cid : Nat) (cls : EngClass) (id : Nat) : State :=
  s.updCrew cid fun c => { c with ops := c.ops ++ [⟨cls, id, false⟩] }

/-- An operation completes; while the column is gated the completion is held (R311, R362). Log entry 72, DEDUCED. -/
def State.completeOp (s : State) (cid id : Nat) : State :=
  let c := s.crewCol cid
  if (s.col c).gated ∨ ¬ (s.col c).powered then
    s.updCol c fun x => { x with heldDone := x.heldDone ++ [(cid, id)] }
  else s.updCrew cid fun c =>
    { c with ops := retireOps [] (c.ops.map fun o => if o.id == id then { o with done := true } else o) }

/-! ## Registers that results land in -/

/-- Words written to consecutive lane registers; code 120 takes nothing (R40, R450). -/
def Thread.landWords (t : Thread) (dst : Code) (ws : List Word) : Thread :=
  if dst.toNat < 96 then
    let v' := ((List.range ws.length).zip ws).foldl
      (fun v p => v.setIfInBounds (dst.toNat + p.1) p.2) t.v
    { t with v := v' }
  else t

/-- A pending result lands now: the clock is noted with its registers (R341). -/
def State.noteLand (s : State) (t : TRef) (p : Pend) : State :=
  s.updThread t fun x => { x with lands := (p.dst.toNat, p.n, (s.col (s.crewCol t.cid)).clock) :: x.lands }

/-! ## Queues -/

/-- What a queue register reaches, so that threads that share a queue can be told: a ring, a drain queue of the sequencer
for one workgroup, a HIT queue (R202, R203, R209). -/
inductive QueueId where
  | none | ring (wid off : Nat) | drain (wid n : Nat) | hit (cid tid q : Nat)
  deriving DecidableEq, Repr

/-- The answer of a push or a pop: done, to wait, a trap of R451, a failed step of R174, or a page fault
behind a stash entry. -/
inductive QOut where
  | ok (s : State) (w : Word)
  | wait
  | trap (cause sub : Byte) (addr : Option DWord)
  | acc (step : Nat) (ea : DWord)
  | fault (kind ia space : Nat) (ea : DWord)

/-- The binding of a queue register. -/
def Thread.bind (t : Thread) (q : BitVec 3) : QBind := t.q[q.toNat]?.getD .unbound

/-- A ring's header: its key and its fields LOG2CAP, TAIL, HEAD, once checked (R203). -/
inductive RingHdr where
  | ok (s : State) (key k tail head : Nat)
  | bad (q : QOut)

/-- A deterministic launch reaches no other column's scratchpad (R368). -/
def State.otherPool (s : State) (w : Who) (p : DWord) : Bool :=
  w.wid.any fun i => (s.launch (s.wg i).lid).deterministic && ptrSpace p == 2 && fieldNat p 23 22 != (s.wg i).col % 4

/-- Reads a ring's header (R203). -/
def State.ringHdr (s : State) (w : Who) (p : DWord) : RingHdr :=
  match s.check w p 16 permR with
  | .error st => .bad (.acc st p)
  | .ok d =>
    if s.otherPool w p then .bad (.acc 5 p)
    else if s.poolDown d then .bad .wait
    else match s.locate d true with
    | .pageFault a b c => .bad (.fault a b c p)
    | .at s1 key =>
      let h := s1.bytes key 16
      let k := natAt h 8 1
      if k < 2 ∨ 16 < k ∨ natAt h 9 7 ≠ 0 then .bad (.trap 0x96#8 0#8 (some p))
      else .ok s1 key k (natAt h 4 4) (natAt h 0 4)

/-- A pop acquires at the ring's scope: the popping core's L1 is invalidated at span scope (R203, R304). -/
def State.ringAcquire (s : State) (w : Who) (p : DWord) : State :=
  if ptrSpace p ≠ 2 then s
  else match w.wid with
    | some i => s.updCol (s.wg i).col fun x => { x with l1 := [] }
    | none => s

/-- A pop from a ring (R203). -/
def State.ringPop (s : State) (w : Who) (p : DWord) : QOut :=
  match s.ringHdr w p with
  | .bad q => q
  | .ok s1 key k tail head =>
    if tail = head then .wait
    else
      let ea := ptrAdd p (16 + 4 * (head % 2 ^ k))
      match s1.check w ea 4 permR with
      | .error st => .acc st ea
      | .ok d => match s1.locate d false with
        | .pageFault a b c => .fault a b c ea
        | .at s2 x => .ok ((s2.put key (toLe 4 (head + 1))).ringAcquire w p) (BitVec.ofNat 32 (leNat (s2.bytes x 4)))

/-- A push to a ring (R203). -/
def State.ringPush (s : State) (w : Who) (p : DWord) (v : Word) : QOut :=
  match s.ringHdr w p with
  | .bad q => q
  | .ok s1 key k tail head =>
    if (tail + 2 ^ 32 - head) % 2 ^ 32 = 2 ^ k then .wait
    else
      let ea := ptrAdd p (16 + 4 * (tail % 2 ^ k))
      match s1.check w ea 4 permW with
      | .error st => .acc st ea
      | .ok d => match s1.locate d true with
        | .pageFault a b c => .fault a b c ea
        | .at s2 x => .ok ((s2.put x (toLe 4 v.toNat)).put (key + 4) (toLe 4 (tail + 1))) 0

/-- The queue that a thread's inbound queue register reaches. Log entry 92, DEDUCED. -/
def State.queueId (s : State) (t : TRef) (q : BitVec 3) : QueueId :=
  match (s.thread t).bind q with
  | .mxdrain n => .drain (s.crew t.cid).wid n
  | .hit => .hit t.cid t.tid q.toNat
  | .ringIn p => match s.check (s.whoCrew t.cid) p 16 permR with
    | .ok (.scratch wid off) => .ring wid off
    | _ => .none
  | _ => .none

/-- A hit queue is the one of a thread's queue register. -/
def HitQueue.is (h : HitQueue) (t : TRef) (q : BitVec 3) : Bool :=
  h.cid == t.cid && h.tid == t.tid && h.q == q.toNat

/-- The words that stand in a HIT queue (R261). -/
def State.hitWords (s : State) (t : TRef) (q : BitVec 3) : List Word :=
  match s.hits.find? fun h => h.is t q with
  | some h => h.recs.flatMap fun r => r.words.drop r.popped
  | none => []

/-- One word popped off hit records: a record leaves when its last word goes (R261). Log entry 37, DEDUCED. -/
def popHit : List HitRec → List HitRec
  | [] => []
  | r :: rs => if r.words.length ≤ r.popped + 1 then rs else { r with popped := r.popped + 1 } :: rs

/-- The record whose word is popped next. -/
def State.hitHead (s : State) (t : TRef) (q : BitVec 3) : Option HitRec :=
  (s.hits.find? fun h => h.is t q).bind fun h => h.recs.head?

/-- A word popped from a HIT queue: when word 0 of a candidate goes, the candidate may be answered (R261,
R262); when the last word of a final record goes, the core no longer holds the ray (R259). Log entry 37, DEDUCED. -/
def State.popHitWord (s : State) (t : TRef) (q : BitVec 3) : QOut :=
  match s.hitHead t q with
  | none => .wait
  | some r =>
    let s1 := { s with hits := s.hits.map fun h => if h.is t q then { h with recs := popHit h.recs } else h }
    let s2 := if r.popped = 0 ∧ ¬ r.final then
      s1.updThread t fun x => { x with cands := x.cands ++ [r.ray] } else s1
    let s3 := if r.final ∧ r.words.length ≤ r.popped + 1 then
      { s2 with rays := s2.rays.filter fun y => y.id != r.ray } else s2
    .ok s3 (r.words.getD r.popped 0)

/-- The elements of a drain queue, for a thread of the workgroup that the sequencer's contents belong to (R209, R237).
-/
def State.drainOf (s : State) (t : TRef) (n : Nat) : List Word :=
  let x := (s.col (s.crewCol t.cid)).seqr
  if x.owner = some (s.crew t.cid).wid then x.drain[n]?.getD [] else []

/-- The front element of an inbound queue, whoever it is reserved for (R201, R202). -/
def State.takeFront (s : State) (t : TRef) (q : BitVec 3) : QOut :=
  match (s.thread t).bind q with
  | .unbound => .trap 0x94#8 0#8 none
  | .mxdrain n =>
    let c := s.crewCol t.cid
    match s.drainOf t n with
    | [] => .wait
    | w :: ws => .ok (s.updCol c fun x => { x with seqr := { x.seqr with
        drain := x.seqr.drain.setIfInBounds n ws } }) w
  | .hit => s.popHitWord t q
  | .ringIn p => s.ringPop (s.whoCrew t.cid) p
  | _ => .trap 0x95#8 0#8 none

/-- The oldest reservation of a queue: its thread and its order (R202). Log entry 92, DEDUCED. -/
def State.oldestReservation (s : State) (id : QueueId) : Option (TRef × Nat) :=
  (s.threads.flatMap fun t => t.pend.filterMap fun p => match p.val with
      | .element q o => if s.queueId t.ref q == id then some (t.ref, o) else none
      | _ => none).foldl
    (fun best x => match best with
      | none => some x
      | some b => if x.2 < b.2 then some x else some b) none

/-- The oldest reservation of a queue lands, if its element is there (R202). Log entry 92, DEDUCED. -/
def State.landReservation (s : State) (id : QueueId) : Option State :=
  match s.oldestReservation id with
  | none => none
  | some (t, o) =>
    match (s.thread t).pend.find? fun p => match p.val with | .element _ k => k == o | _ => false with
    | none => none
    | some p => match p.val with
      | .element q _ => match s.takeFront t q with
        | .ok s1 w => some ((s1.noteLand t p).updThread t fun x =>
            ({ x with pend := x.pend.filter fun y => match y.val with
              | .element _ k => k != o | _ => true }).landWords p.dst [w])
        | _ => none
      | _ => none

/-- Reservations of a queue land in their order, at most `n` of them. -/
def State.landReservations (s : State) (id : QueueId) : Nat → State
  | 0 => s
  | n + 1 => match s.landReservation id with
    | some s1 => s1.landReservations id n
    | none => s

/-- A pop (R201): earlier reservations are served first. A helper thread's pop reads zero and removes
nothing, once the queue is bound and inbound. Log entry 80, DEDUCED. -/
def State.popWord (s : State) (t : TRef) (q : BitVec 3) : QOut :=
  match (s.thread t).bind q with
  | .unbound => .trap 0x94#8 0#8 none
  | .mxdrain _ | .hit | .ringIn _ =>
    if (s.thread t).helper then .ok s 0
    else
      let id := s.queueId t q
      let n := (s.threads.map fun x => x.pend.length).foldl (· + ·) 0
      let s1 := s.landReservations id n
      if (s1.oldestReservation id).isSome then .wait else s1.takeFront t q
  | _ => .trap 0x95#8 0#8 none

/-! ## Feed channels -/

/-- Blocks per row of WIDTH (R218). -/
def feedBlocks (width : Nat) : Nat := if width = 0 then 3 else if width = 1 then 6 else 12
/-- The scale words of a packet (R218). -/
def feedScaleWords (h : Word) : Nat :=
  if bit h 5 then (fieldNat h 7 6 + feedBlocks (fieldNat h 9 8) - 1) / 4 + 1 else 0
/-- The subcode of a discarded header, if any (R220). A header with both faults gets 1; the spec does not say which (log
entry 100, DESIGN CHOICE). -/
def feedHeaderErr (h : Word) : Option Byte :=
  if fieldNat h 31 24 ≠ 0xa5 ∨ fieldNat h 23 10 ≠ 0 ∨ bit h 4 ∨ (fieldNat h 7 6 ≠ 0 ∧ ¬ bit h 5) then
    some 1#8
  else if fieldNat h 9 8 = 3 then some 2#8 else none
/-- The scale byte of block `k` of a packet (R218). -/
def feedScale (h : Word) (ws : List Word) (k : Nat) : Byte :=
  if bit h 5 ∧ k < feedBlocks (fieldNat h 9 8) then
    let j := fieldNat h 7 6 + k
    BitVec.ofNat 8 ((ws.getD (j / 4) 0).toNat / 2 ^ (8 * (j % 4)))
  else 0x7f#8
/-- The row and the scale row of a whole packet (R218). -/
def feedRow (h : Word) (ws : List Word) : List Byte × List Byte :=
  ((ws.drop (feedScaleWords h)).flatMap fun w => toLe 4 w.toNat, (List.range 12).map (feedScale h ws))

/-- A word pushed to a feed channel (R218 to R221). `addr` is the pushing instruction word. Of several words discarded
before the thread's next run boundary the first one's trap stands; the spec does not say which (log entry 100, DESIGN
CHOICE). A row goes to the staging buffer only while the sequencer's contents are the workgroup's; otherwise no xpop
will serve the push, and it stays parked (R209, R237). -/
def State.feedWord (s : State) (t : TRef) (q : BitVec 3) (x : Nat) (addr : DWord) (w : Word) : QOut :=
  let th := s.thread t
  let c := s.crewCol t.cid
  let setPacket (s : State) (ws : List Word) : State :=
    s.updThread t fun y => { y with packet := y.packet.setIfInBounds q.toNat ws }
  match th.packet[q.toNat]?.getD [] with
  | [] =>
    match feedHeaderErr w with
    | some sub =>
      let trap : TrapInfo := ⟨0x71#8, 0, addr, (0#16 ++ sub ++ 0#8 ++ w : BitVec 64)⟩
      .ok (s.updThread t fun y => { y with boundary := y.boundary <|> some trap }) 0
    | none =>
      if 255 ≤ (s.crew t.cid).count .matrix then .wait
      else
        let (id, s1) := s.fresh
        .ok (setPacket (s1.addOp t.cid .matrix id) [w]) 0
  | h :: ws =>
    let ws' := ws ++ [w]
    if ws'.length < feedScaleWords h + 48 then .ok (setPacket s (h :: ws')) 0
    else
      let st := (s.col c).seqr.staging[x]?.getD {}
      let row := fieldNat h 3 0
      if bit st.full row ∨ (s.col c).seqr.owner ≠ some (s.crew t.cid).wid then .wait
      else
        let (data, scales) := feedRow h ws'
        let st' : Staging := {
          tile := { rows := st.tile.rows.setIfInBounds row data
                    scales := st.tile.scales.setIfInBounds row scales }
          full := st.full ||| BitVec.ofNat 16 (2 ^ row)
          crews := st.crews ++ [t.cid] }
        .ok (setPacket (s.updCol c fun y => { y with seqr := { y.seqr with
          staging := y.seqr.staging.setIfInBounds x st' } }) []) 0

/-- The oldest counted rows of a crew complete: xpop took them, or they were discarded (R221). -/
def State.dropRows (s : State) (cid n : Nat) : State :=
  s.updCrew cid fun c => { c with ops := (c.ops.foldl (fun (acc : Nat × List EngOp) o =>
    if o.cls == .matrix && acc.1 != 0 then (acc.1 - 1, acc.2) else (acc.1, acc.2 ++ [o])) (n, [])).2 }

/-- A partial packet of a channel is discarded (R220, R221). -/
def State.dropPacket (s : State) (t : TRef) (q : Nat) : State :=
  match (s.thread t).packet[q]?.getD [] with
  | [] => s
  | _ => (s.updThread t fun y => { y with packet := y.packet.setIfInBounds q [] }).dropRows t.cid 1

/-- The sampling context of a key (R253). -/
def State.smpCtx? (s : State) (key : Nat) : Option SmpCtx := s.smps.find? fun c => c.key == key
/-- One sampling context updated. -/
def State.updSmp (s : State) (key : Nat) (f : SmpCtx → SmpCtx) : State :=
  { s with smps := s.smps.map fun c => if c.key == key then f c else c }
/-- N of a pass (R255). -/
def SmpCfg.total (c : SmpCfg) : Nat :=
  if c.pass = 0 then c.vocab
  else min c.vocab (256 * (c.first + c.count)) - 256 * c.first
/-- RECEIVED has reached N (R256). -/
def SmpCtx.full (c : SmpCtx) : Bool := decide (c.cfg.total ≤ c.logits.length)
/-- Logits received; values beyond N are discarded (R255). -/
def SmpCtx.receive (c : SmpCtx) (ws : List Word) : SmpCtx :=
  { c with logits := c.logits ++ ws.take (c.cfg.total - c.logits.length) }

/-- The push or value that acts next: a draw that still waits for logits lets later ones pass (R255, R256).
Log entry 35, DEDUCED. -/
def SmpCtx.nextPush (full : Bool) : List SmpWork → Option SmpWork
  | .draw .. :: ws => if full then none else SmpCtx.nextPush full ws
  | .cfg .. :: _ => none
  | w :: _ => some w
  | [] => none

/-- The values of smp.cfg held from now on; RECEIVED is 0 (R253, R254). -/
def SmpCtx.configure (x : SmpCtx) (c : SmpCfg) : SmpCtx := { x with cfg := c, logits := [], failed := false }

/-- The work that needs no memory, with the context as its thread names it: a smp.cfg whose turn it is, a value that may
be received (R255). Log entry 35, DEDUCED. -/
def SmpCtx.act (c : SmpCtx) : Option (CtxRef × SmpCtx) :=
  match c.work with
  | .cfg a v :: ws => some (a, { c with work := ws }.configure v)
  | ws => match SmpCtx.nextPush c.full ws with
    | some (.value a w) => some (a, { c with work := ws.erase (.value a w) }.receive [w])
    | _ => none

/-- The key of a sampling context: the span's unit, and its pointer's scratchpad byte or its IA (R253, R255).
Log entry 35, DEDUCED. -/
def State.smpKey (s : State) (cid : Nat) (p : DWord) : Nat :=
  match s.check (s.whoCrew cid) p 64 permR with
  | .ok (.scratch wid off) => mkKey (regScratch (s.wg wid).col) ((s.wg wid).scratchBase + off)
  | .ok (.global _ ia) => mkKey (200 + spanOf (s.crewCol cid)) ia
  | .error _ => mkKey 300 p.toNat

end Sys2Proof.Machine
end

