-- ==== Sys2Proof/Machine/Faults.lean ====
section
/-!
DEFINITION. Fault records and the fault queue (13 R350, R351, R452), page faults (R349, R354), workgroup
faults as they are raised (R355), and the new values of atomics and reductions (07 R184).
-/

namespace Sys2Proof.Machine

/-! ## The fault queue -/

/-- The 64 bytes of a fault record with its SEQ (R350). -/
def FaultRecord.toBytes (r : FaultRecord) (seq : Nat) : List Byte :=
  [r.cause, r.kind, r.detail, r.access] ++ toLe 4 r.who.toNat ++ toLe 8 r.addr.toNat ++
  toLe 8 r.ia.toNat ++ toLe 8 r.pc.toNat ++ toLe 4 r.gen.toNat ++ toLe 4 r.faultId.toNat ++
  toLe 8 r.wg.toNat ++ toLe 8 r.time.toNat ++ toLe 4 r.launch.toNat ++ toLe 4 seq

/-- The queue takes a record now: it is enabled and not full (R351). -/
def State.fqOpen (s : State) : Bool :=
  decide (4 ≤ s.fqLog2 ∧ s.fqLog2 ≤ 16) && !s.fqBroken && decide (s.fqTail - s.fqHead < 2 ^ s.fqLog2)

/-- The key of the next slot, written as a 64-byte store of context 0 (R351, R452). -/
def State.fqSlot (s : State) : Option (State × Nat) :=
  let p : DWord := ptrAdd s.fqBase (64 * (s.fqTail % 2 ^ s.fqLog2))
  if ptrSpace p ≠ 0 ∧ ptrSpace p ≠ 4 then none
  else match s.check ⟨0, none⟩ p 64 permW with
    | .error _ => none
    | .ok d => match s.locate d true with
      | .pageFault .. => none
      | .at s1 k => if (s1.eccAt k 64).isSome then none else some (s1, k)

/-- A record written, made to wait (KIND 0 and 1), or dropped and counted (KIND 2 and 3) (R351). -/
def State.writeRecord (s : State) (r : FaultRecord) : State :=
  let stay (s : State) : State :=
    if r.kind.toNat < 2 then { s with waiting := s.waiting ++ [r] }
    else { s with fqDropped := min 65535 (s.fqDropped + 1) }
  if s.fqOpen then
    match s.fqSlot with
    | some (s1, k) => { s1.putAll k (r.toBytes s.fqTail) with fqTail := s.fqTail + 1 }
    | none => stay { s with fqBroken := true }
  else stay s

/-- Records that waited are written while the queue takes them (R351). -/
def State.flushRecords (s : State) : State :=
  s.waiting.foldl (fun acc r => acc.writeRecord r) { s with waiting := [] }

/-- WHO of a fault record (R350). Log entry 69, DEDUCED. -/
def whoWord (ctx col crew tid : Nat) : Word :=
  BitVec.ofNat 32 (ctx + col * 2 ^ 8 + crew * 2 ^ 16 + tid * 2 ^ 20)
/-- LAUNCH of a fault record (R350). -/
def launchWord (l : Launch) : Word := BitVec.ofNat 32 (l.queue % 256 + (l.packet % 2 ^ 24) * 256)
/-- WG of a fault record (R350). Log entry 69, DEDUCED. -/
def wgWord (w : Workgroup) : DWord :=
  match w.index with
  | some i => BitVec.ofNat 64 i
  | none => 0xffffffffffffffff#64

/-- The cause codes that the device may raise or write (R346). Log entry 53, DEDUCED. -/
def causeCodes : List Byte :=
  ((List.range 15).map fun i => BitVec.ofNat 8 (i + 1)) ++ ((List.range 15).map fun i => BitVec.ofNat 8 (0x40 + i)) ++
  ((List.range 13).map fun i => BitVec.ofNat 8 (0x70 + i)) ++ ((List.range 8).map fun i => BitVec.ofNat 8 (0x90 + i)) ++
  (List.range 10).map fun i => BitVec.ofNat 8 (0xb0 + i)
/-- One of those codes. Log entry 53, DEDUCED. -/
def anyCause (b : Byte) : Byte := causeCodes.getD (b.toNat % causeCodes.length) 0x7b#8

/-! ## Workgroup faults -/

/-- The launch's fault: the earliest raised, and of those raised at one time the one of the lowest index; in a
deterministic launch the one of the lowest index (R357, R371). Log entry 68, DEDUCED. -/
def Launch.noteFault (l : Launch) (cause : Byte) (i at_ : Nat) : Launch :=
  match l.fault with
  | none => { l with fault := some (cause, i), faultAt := at_ }
  | some f =>
    if i < f.2 ∧ (l.deterministic ∨ at_ = l.faultAt) then { l with fault := some (cause, i), faultAt := at_ } else l

/-- A workgroup fault is raised; the first one of a workgroup stands, and its launch has it from now on (R355, R356,
R357). Log entry 94, DEDUCED. Log entry 68, DEDUCED. -/
def State.faultWg (s : State) (wid : Nat) (f : WgFault) : State :=
  let w := s.wg wid
  if w.fault.isSome then s
  else
    let s1 := s.updWg wid fun x => { x with fault := some f }
    s1.updLaunch w.lid fun l => l.noteFault f.cause (w.index.getD l.total) s.ticks

/-! ## Page faults -/

/-- Who a walk's access belongs to, for the record and the pending-fault table (R349, R350). -/
structure FaultWho where
  who : Attached
  ctx : Nat
  col : Nat
  crew : Nat := 0
  tid : Nat := 0
  pc : DWord := 0
  wg : DWord := 0xffffffffffffffff#64
  launch : Word := 0
  access : Byte

/-- A page fault attaches to the entry of its key, or opens one and writes its record; `none` when the
pair's table is full (R349). -/
def State.openFault (s : State) (f : FaultWho) (kind ia : Nat) (ea : DWord) : Option (Nat × State) :=
  let ctx := ia / 2 ^ 52 % 256
  let unit := ia % 2 ^ 60 / 65536
  match s.pending.find? fun e => e.ctx == ctx && e.unit == unit with
  | some e => some (e.id, { s with pending := s.pending.map fun x =>
      if x.id == e.id then { x with attached := x.attached ++ [f.who]
                                    from_ := x.from_ ++ [⟨f.who, f.pc, ea, ia, f.access⟩] } else x })
  | none =>
    if 1024 ≤ (s.pending.filter fun e => e.unit % 8 == unit % 8).length then none
    else
      let id := s.nextFault
      let gen := s.genOf ctx
      let rec_ : FaultRecord := {
        cause := 0x4a, kind := 0, detail := BitVec.ofNat 8 kind, access := f.access
        who := whoWord f.ctx f.col f.crew f.tid, addr := ea, ia := BitVec.ofNat 64 ia, pc := f.pc
        gen := gen, faultId := BitVec.ofNat 32 id, wg := f.wg, time := s.time, launch := f.launch }
      let ent : FaultEntry := ⟨id, ctx, unit, [f.who], [⟨f.who, f.pc, ea, ia, f.access⟩]⟩
      some (id, { s.walkFix ia with nextFault := (id + 1) % 2 ^ 32
                                    pending := s.pending ++ [ent] }.writeRecord rec_)

/-- An attachment given up (R349). -/
def State.detach (s : State) (a : Attached) : State :=
  { s with pending := s.pending.map fun e => { e with attached := e.attached.filter fun x => x != a } }

/-- The report fields of a thread's access. -/
def State.faultWhoThread (s : State) (t : TRef) (pc : DWord) (access : Byte) : FaultWho :=
  let c := s.crew t.cid
  let w := s.wg c.wid
  let l := s.launch w.lid
  { who := .thread t, ctx := l.ctx, col := w.col, crew := c.idx, tid := t.tid, pc := pc, wg := wgWord w,
    launch := launchWord l, access := access }

/-- A page fault of a thread: REFAULT_CNT, the limit, the entry (R349, R354). The thread's wait is set by
`mk` of the entry, and it waits at the walker when the table is full. Log entry 84, DEDUCED. -/
def State.threadFault (s : State) (t : TRef) (f : FaultWho) (kind ia : Nat) (ea : DWord)
    (mk : Nat → ThreadWait) : State :=
  let unit := (ia / 2 ^ 52 % 256, ia % 2 ^ 60 / 65536)
  let th := s.thread t
  let n := if th.refaultUnit == some unit then th.refaultCnt + 1 else 0
  let s1 := s.updThread t fun x => { x with refaultCnt := n, refaultUnit := some unit }
  if 3 ≤ n then s1.faultWg (s.crew t.cid).wid ⟨0x4b#8, 0, f.pc, ea, ⟨f.crew, f.tid, f.access, ia⟩, s.genOf (ia / 2 ^ 52 % 256)⟩
  else match s1.openFault f kind ia ea with
    | some (id, s2) => s2.updThread t fun x => { x with wait := mk id }
    | none => s1.updThread t fun x => { x with wait := .walker (ia / 2 ^ 52 % 256) ia f.access f.pc ea }

/-! ## What an engine operation waits for -/

/-- The entry of an operation. -/
def State.eng (s : State) (id : Nat) : EngWait := (s.engs.find? fun e => e.id == id).getD { id := id }
/-- The entry of an operation updated, made if it is not there. -/
def State.updEng (s : State) (id : Nat) (f : EngWait → EngWait) : State :=
  { s with engs := f (s.eng id) :: s.engs.filter fun e => e.id != id }
/-- The entry of an operation that is complete goes. -/
def State.dropEng (s : State) (id : Nat) : State := { s with engs := s.engs.filter fun e => e.id != id }
/-- An operation is held by no page fault. -/
def State.engFree (s : State) (id : Nat) : Bool := (s.eng id).entry.isNone

/-- The report fields of an engine access (R350). -/
def State.faultWhoEng (s : State) (id wid : Nat) (access : Byte) : FaultWho :=
  let w := s.wg wid
  let l := s.launch w.lid
  { who := .engine id, ctx := l.ctx, col := w.col, wg := wgWord w, launch := launchWord l
    access := access ||| 0x10#8 }

/-- The accesses of an operation so far are complete: they count no refaults any more (R354). Log entry 24, DEDUCED. -/
def State.engPast (s : State) (id : Nat) : State :=
  if (s.eng id).refaults.isEmpty then s else s.updEng id fun x => { x with refaults := [] }

/-- An operation gives up what it waits for, or what failed it. -/
def State.engQuit (s : State) (id : Nat) : State := (s.detach (.engine id)).dropEng id

/-- A page fault of an access that waits under an operation number (R349, R354): each access counts its own refaults; it
waits on an entry, or has failed for good. A full table leaves it at the walker. Log entry 24, DEDUCED. -/
def State.opFault (s : State) (id : Nat) (f : FaultWho) (kind ia : Nat) (ea : DWord) : State :=
  let unit := (ia / 2 ^ 52 % 256, ia % 2 ^ 60 / 65536)
  let n := match (s.eng id).refaults.find? fun x => x.1 == ea && x.2.1 == unit with
    | some x => x.2.2 + 1
    | none => 0
  let s1 := s.updEng id fun x => { x with refaults := (ea, unit, n) :: x.refaults.filter fun y => y.1 != ea }
  if 3 ≤ n then s1.updEng id fun x => { x with failed := some 0x4b#8 }
  else match s1.openFault f kind ia ea with
    | some (entry, s2) => s2.updEng id fun x => { x with entry := some entry }
    | none => s

/-- A page fault of an engine access. -/
def State.engFault (s : State) (id wid : Nat) (kind ia : Nat) (ea : DWord) (access : Byte) : State :=
  s.opFault id (s.faultWhoEng id wid access) kind ia ea

/-! ## Released stores -/

/-- The new value of atom k or red k, for operand size `sz` (R184); floating point is passed in. -/
def atomNew (fadd : Word → Word → Word) (k : BitVec 4) (old x : DWord) : DWord :=
  let o32 : Word := old.setWidth 32
  let x32 : Word := x.setWidth 32
  match k.toNat with
  | 0 => (o32 + x32).setWidth 64
  | 1 => old + x
  | 2 => (fadd o32 x32).setWidth 64
  | 3 => (if o32.slt x32 then o32 else x32).setWidth 64
  | 4 => (if o32.ult x32 then o32 else x32).setWidth 64
  | 5 => (if o32.slt x32 then x32 else o32).setWidth 64
  | 6 => (if o32.ult x32 then x32 else o32).setWidth 64
  | 7 => (o32 &&& x32).setWidth 64
  | 8 => (o32 ||| x32).setWidth 64
  | 9 => (o32 ^^^ x32).setWidth 64
  | 10 => x32.setWidth 64
  | 11 => x
  | _ => (if x32.ule o32 then 0 else o32 + 1).setWidth 64

end Sys2Proof.Machine
end

