-- ==== Sys2Proof/Machine/Hash.lean ====
section
/-!
DEFINITION. SHA3-256 (02 R64, 14 R374, 17 R426, R428) and CRC-32C (10 R289, 14 R373). The spec names them and
does not define them: they are taken from FIPS 202, SHAKE with them, and from the Castagnoli polynomial (log entry 13).
-/

namespace Sys2Proof.Machine

/-! ## SHA3-256 -/

/-- A Keccak state: lane (x, y) at x + 5 y. -/
abbrev Keccak := List DWord

/-- A lane. -/
def Keccak.at (a : Keccak) (x y : Nat) : DWord := a.getD (x % 5 + 5 * (y % 5)) 0
/-- A state from its lanes. -/
def keccakOf (f : Nat → Nat → DWord) : Keccak := (List.range 25).map fun i => f (i % 5) (i / 5)

/-- The rotation offsets of ρ, by lane. -/
def keccakRot : List Nat :=
  [0, 1, 62, 28, 27, 36, 44, 6, 55, 20, 3, 10, 43, 25, 39, 41, 45, 15, 21, 8, 18, 2, 61, 56, 14]

/-- The round constants of ι. -/
def keccakRc : List DWord :=
  [0x0000000000000001, 0x0000000000008082, 0x800000000000808a, 0x8000000080008000, 0x000000000000808b,
   0x0000000080000001, 0x8000000080008081, 0x8000000000008009, 0x000000000000008a, 0x0000000000000088,
   0x0000000080008009, 0x000000008000000a, 0x000000008000808b, 0x800000000000008b, 0x8000000000008089,
   0x8000000000008003, 0x8000000000008002, 0x8000000000000080, 0x000000000000800a, 0x800000008000000a,
   0x8000000080008081, 0x8000000000008080, 0x0000000080000001, 0x8000000080008008]

/-- One round: θ, ρ and π, χ, ι. -/
def keccakRound (a : Keccak) (rc : DWord) : Keccak :=
  let c := (List.range 5).map fun x => a.at x 0 ^^^ a.at x 1 ^^^ a.at x 2 ^^^ a.at x 3 ^^^ a.at x 4
  let d := (List.range 5).map fun x => c.getD ((x + 4) % 5) 0 ^^^ (c.getD ((x + 1) % 5) 0).rotateLeft 1
  let t := keccakOf fun x y => a.at x y ^^^ d.getD x 0
  -- π moves lane (x, y) to (y, 2x + 3y)
  let b := keccakOf fun x y =>
    let x0 := (x + 3 * y) % 5
    (t.at x0 x).rotateLeft (keccakRot.getD (x0 + 5 * x) 0)
  let e := keccakOf fun x y => b.at x y ^^^ (~~~ b.at (x + 1) y &&& b.at (x + 2) y)
  (e.headD 0 ^^^ rc) :: e.drop 1

/-- Keccak-f[1600]. Log entry 13, PRESUMED. -/
def keccakF (a : Keccak) : Keccak := keccakRc.foldl keccakRound a

/-- A block of bytes, at most 200 of them, added into a state, which is then permuted. -/
def absorb (a : Keccak) (block : List Byte) : Keccak :=
  keccakF ((List.range 25).map fun i => a.getD i 0 ^^^ dwAt block (8 * i))

/-- The padding of a message of `n` bytes at a rate, after the suffix that names the function. -/
def spongePad (rate : Nat) (suffix : Byte) (n : Nat) : List Byte :=
  let k := rate - n % rate
  if k = 1 then [suffix ||| 0x80#8] else suffix :: (List.replicate (k - 2) 0#8 ++ [0x80#8])

/-- The state that has taken a message. -/
def spongeIn (rate : Nat) (suffix : Byte) (m : List Byte) : Keccak :=
  let p := m ++ spongePad rate suffix m.length
  (List.range (p.length / rate)).foldl (fun a i => absorb a (bytesAt p (rate * i) rate)) (List.replicate 25 0)

/-- `n` blocks of output of a state. -/
def squeeze (rate : Nat) : Nat → Keccak → List Byte
  | 0, _ => []
  | n + 1, a => (a.flatMap fun w => toLe 8 w.toNat).take rate ++ squeeze rate n (keccakF a)

/-- `n` bytes of output for a message. -/
def sponge (rate : Nat) (suffix : Byte) (m : List Byte) (n : Nat) : List Byte :=
  (squeeze rate ((n + rate - 1) / rate) (spongeIn rate suffix m)).take n

/-- SHA3-256 of some bytes. Log entry 13, PRESUMED. -/
def sha3 (m : List Byte) : List Byte := sponge 136 0x06#8 m 32
/-- SHAKE128. Log entry 13, PRESUMED. -/
def shake128 (m : List Byte) (n : Nat) : List Byte := sponge 168 0x1f#8 m n
/-- SHAKE256. Log entry 13, PRESUMED. -/
def shake256 (m : List Byte) (n : Nat) : List Byte := sponge 136 0x1f#8 m n

/-! ## CRC-32C -/

/-- One bit of CRC-32C, in reflected order. -/
def crcBit (c : Word) : Word := if c.getLsbD 0 then (c >>> 1) ^^^ 0x82f63b78#32 else c >>> 1
/-- One byte. -/
def crcByte (c : Word) (b : Byte) : Word :=
  (List.range 8).foldl (fun c _ => crcBit c) (c ^^^ b.setWidth 32)
/-- CRC-32C of some bytes. Log entry 13, PRESUMED. -/
def crc32c (bs : List Byte) : Word := ~~~ bs.foldl crcByte 0xffffffff#32

end Sys2Proof.Machine
end

