-- ==== Sys2Proof/Machine/Numbers.lean ====
section
/-!
DEFINITION. Number formats, exact values, rounding and narrowing (03 R71 to R95).
-/

namespace Sys2Proof.Machine

/-! ## Exact values -/

/-- An exact value: NaN, an infinity, or a sign with a magnitude `num / den` (`den` is never 0); zeros keep
their sign. -/
inductive Ex where
  | nan
  | inf (neg : Bool)
  | fin (neg : Bool) (num den : Nat)
  deriving DecidableEq, Repr

/-- +0. -/
def Ex.zero : Ex := .fin false 0 1
/-- An integer as an exact value. -/
def Ex.ofInt (i : Int) : Ex := .fin (decide (i < 0)) i.natAbs 1
/-- A power of two. -/
def Ex.pow2 (e : Int) : Ex := .fin false (2 ^ e.toNat) (2 ^ (-e).toNat)
/-- The value is NaN. -/
def Ex.isNan : Ex → Bool
  | .nan => true | _ => false
/-- The value is zero. -/
def Ex.isZero : Ex → Bool
  | .fin _ 0 _ => true | _ => false
/-- The sign bit of a value that is not NaN. -/
def Ex.neg? : Ex → Bool
  | .nan => false | .inf n => n | .fin n _ _ => n
/-- The value with the other sign. -/
def Ex.negate : Ex → Ex
  | .nan => .nan | .inf n => .inf !n | .fin n a b => .fin (!n) a b
/-- The magnitude. -/
def Ex.abs : Ex → Ex
  | .nan => .nan | .inf _ => .inf false | .fin _ a b => .fin false a b
/-- A product (R82). -/
def Ex.mul : Ex → Ex → Ex
  | .nan, _ => .nan
  | _, .nan => .nan
  | .inf m, .inf n => .inf (m != n)
  | .inf m, .fin n a _ => if a = 0 then .nan else .inf (m != n)
  | .fin m a _, .inf n => if a = 0 then .nan else .inf (m != n)
  | .fin m a b, .fin n c d => .fin (m != n) (a * c) (b * d)
/-- The exact quotient of R89. -/
def Ex.div : Ex → Ex → Ex
  | .nan, _ => .nan
  | _, .nan => .nan
  | .inf _, .inf _ => .nan
  | .inf m, .fin n _ _ => .inf (m != n)
  | .fin m _ _, .inf n => .fin (m != n) 0 1
  | .fin m a b, .fin n c d =>
    if c = 0 then if a = 0 then .nan else .inf (m != n)
    else if a = 0 then .fin (m != n) 0 1 else .fin (m != n) (a * d) (b * c)
/-- A finite value as a signed numerator over a denominator. -/
def signed (n : Bool) (a : Nat) : Int := if n then -(a : Int) else a
/-- The finite values of a sum, over one denominator. -/
def sumFin : List Ex → Int × Nat
  | [] => (0, 1)
  | .fin n a b :: xs =>
    let r := sumFin xs
    if b = r.2 then (signed n a + r.1, b) else (signed n a * r.2 + r.1 * b, b * r.2)
  | _ :: xs => sumFin xs
/-- An exact sum (R82): `down` is rounding toward −∞. -/
def Ex.sum (down : Bool) (xs : List Ex) : Ex :=
  if xs.any Ex.isNan then .nan
  else if xs.contains (.inf true) then if xs.contains (.inf false) then .nan else .inf true
  else if xs.contains (.inf false) then .inf false
  else
    let r := sumFin xs
    if r.1 = 0 then
      .fin (!xs.isEmpty && xs.all (fun x => x.isZero && x.neg?) || down) 0 1
    else .fin (decide (r.1 < 0)) r.1.natAbs r.2
/-- `x < y` for values that are not NaN. -/
def Ex.lt : Ex → Ex → Bool
  | .nan, _ => false
  | _, .nan => false
  | .inf m, .inf n => m && !n
  | .inf m, .fin .. => m
  | .fin .., .inf n => !n
  | .fin m a b, .fin n c d => decide (signed m a * d < signed n c * b)
/-- Numerical equality of values that are not NaN: zeros of both signs are equal. -/
def Ex.eq : Ex → Ex → Bool
  | .inf m, .inf n => m == n
  | .fin m a b, .fin n c d => decide (signed m a * d = signed n c * b)
  | _, _ => false
/-- `x ≤ y`. -/
def Ex.le (x y : Ex) : Bool := x.lt y || x.eq y

/-- The floor of the base-2 logarithm of `num / den`, both positive. -/
def floorLog2 (num den : Nat) : Int :=
  let e : Int := (Nat.log2 num : Int) - Nat.log2 den
  -- e - 1 ≤ log2 < e + 1
  if num * 2 ^ (-e).toNat < den * 2 ^ e.toNat then e - 1 else e

/-! ## Formats -/

/-- A floating-point format (R71): width, fraction bits, minimum normal exponent, largest finite code,
codes of infinity and NaN where they exist. -/
structure Fmt where
  width : Nat
  m : Nat
  emin : Int
  maxCode : Nat
  inf : Option Nat
  nan : Option Nat
  deriving DecidableEq, Repr

/-- FP32. -/
def fp32 : Fmt := ⟨32, 23, -126, 0x7f7fffff, some 0x7f800000, some 0x7fc00000⟩
/-- FP16. -/
def fp16 : Fmt := ⟨16, 10, -14, 0x7bff, some 0x7c00, some 0x7e00⟩
/-- BF16. -/
def bf16 : Fmt := ⟨16, 7, -126, 0x7f7f, some 0x7f80, some 0x7fc0⟩
/-- E4M3. -/
def e4m3 : Fmt := ⟨8, 3, -6, 0x7e, none, some 0x7f⟩
/-- E5M2. -/
def e5m2 : Fmt := ⟨8, 2, -14, 0x7b, some 0x7c, some 0x7e⟩
/-- E3M2. -/
def e3m2 : Fmt := ⟨6, 2, -2, 0x1f, none, none⟩
/-- E2M3. -/
def e2m3 : Fmt := ⟨6, 3, 0, 0x1f, none, none⟩
/-- E2M1. -/
def e2m1 : Fmt := ⟨4, 1, 0, 0x7, none, none⟩

/-- The magnitude bits of a code. -/
def Fmt.mag (f : Fmt) (c : Nat) : Nat := c % 2 ^ (f.width - 1)
/-- The sign bit of a code. -/
def Fmt.sign (f : Fmt) (c : Nat) : Bool := c / 2 ^ (f.width - 1) % 2 == 1
/-- A code with a sign. -/
def Fmt.code (f : Fmt) (neg : Bool) (mag : Nat) : Nat := b2n neg * 2 ^ (f.width - 1) + mag
/-- The value of a code (R71, R72). -/
def Fmt.value (f : Fmt) (c : Nat) : Ex :=
  let g := f.mag c
  if f.maxCode < g then if f.inf == some g then .inf (f.sign c) else .nan
  else
    let e := g / 2 ^ f.m
    let fr := g % 2 ^ f.m
    let n := if e = 0 then fr else 2 ^ f.m + fr
    let q : Int := f.emin - f.m + ((if e = 0 then 1 else e) - 1 : Nat)
    .fin (f.sign c) (n * 2 ^ q.toNat) (2 ^ (-q).toNat)
/-- A subnormal code that is not zero (R85). -/
def Fmt.subnormal (f : Fmt) (c : Nat) : Bool := decide (0 < f.mag c ∧ f.mag c < 2 ^ f.m)
/-- A subnormal code flushed to a zero of its sign (R85). -/
def Fmt.flush (f : Fmt) (on : Bool) (c : Nat) : Nat := if on && f.subnormal c then f.code (f.sign c) 0 else c

/-! ## Rounding -/

/-- A rounding mode with its stochastic draw (R83, R86). -/
inductive Rnd where
  | rn | rz | rm | rp | ra
  | rs (u : Nat)
  deriving DecidableEq, Repr

/-- Whether the neighbour of larger magnitude is taken: the integer part `k`, the remainder `r` of a
division by `d`, the sign (R83, R86). -/
def roundUp (md : Rnd) (neg : Bool) (k r d : Nat) : Bool :=
  if r = 0 then false
  else match md with
    | .rn => decide (d < 2 * r) || (decide (2 * r = d) && k % 2 == 1)
    | .rz => false
    | .rm => neg
    | .rp => !neg
    | .ra => decide (d ≤ 2 * r)
    | .rs u => decide (u < r * 2 ^ 24 / d)

/-- A magnitude rounded to the format with its exponent range unbounded above: its code's magnitude bits,
counted on past the largest finite code (R84 step 2). -/
def Fmt.roundMag (f : Fmt) (md : Rnd) (neg : Bool) (num den : Nat) : Nat :=
  if num = 0 then 0
  else
    let q : Int := max (floorLog2 num den) f.emin - f.m
    let n := num * 2 ^ (-q).toNat
    let d := den * 2 ^ q.toNat
    let k := n / d
    let k' := if roundUp md neg k (n % d) d then k + 1 else k
    (q - (f.emin - f.m)).toNat * 2 ^ f.m + k'

/-- What an overflow becomes in a format with an infinity (R84 step 4). -/
def Fmt.overflow (f : Fmt) (md : Rnd) (neg : Bool) : Nat :=
  let toMax := match md with
    | .rz => true | .rm => !neg | .rp => neg | _ => false
  f.code neg (if toMax then f.maxCode else f.inf.getD f.maxCode)

/-- The canonical NaN (R80). -/
def Fmt.canonNan (f : Fmt) : Nat := f.nan.getD 0

/-- round_to_format (R84). -/
def Fmt.round (f : Fmt) (md : Rnd) : Ex → Nat
  | .nan => f.canonNan
  | .inf n => f.code n (f.inf.getD f.maxCode)
  | .fin n a b =>
    let g := f.roundMag md n a b
    if g ≤ f.maxCode then f.code n g else f.overflow md n

/-- A magnitude rounded to an integer (R83). -/
def roundIntMag (md : Rnd) (neg : Bool) (num den : Nat) : Nat :=
  if roundUp md neg (num / den) (num % den) den then num / den + 1 else num / den

/-- narrow to an integer range (R88). -/
def narrowInt (lo hi : Int) (md : Rnd) : Ex → Int
  | .nan => 0
  | .inf n => if n then lo else hi
  | .fin n a b => max lo (min hi (signed n (roundIntMag md n a b)))

/-- narrow to a floating-point format (R88). -/
def Fmt.narrow (f : Fmt) (md : Rnd) (sat : Bool) (x : Ex) : Nat :=
  match f.inf, f.nan with
  | some _, _ => match x with
    | .nan => f.canonNan
    | .inf n => if sat then f.code n f.maxCode else f.round md x
    | .fin n a b =>
      if f.maxCode < f.roundMag md n a b ∧ sat then f.code n f.maxCode else f.round md x
  | none, some nn => match x with
    | .nan => nn
    | .inf n => if sat then f.code n f.maxCode else nn
    | .fin n a b =>
      let g := f.roundMag md n a b
      if g ≤ f.maxCode then f.code n g else if sat then f.code n f.maxCode else nn
  | none, none => match x with
    | .nan => 0
    | .inf n => f.code n f.maxCode
    | .fin n a b => f.code n (min f.maxCode (f.roundMag md n a b))

/-- The value of an E8M0 scale (R76). -/
def e8m0 (c : Byte) : Ex := if c = 0xff#8 then .nan else .pow2 ((c.toNat : Int) - 127)

/-- A two's-complement number of `w` bits. -/
def sextNat (w x : Nat) : Int := if x % 2 ^ w < 2 ^ (w - 1) then x % 2 ^ w else (x % 2 ^ w : Nat) - (2 ^ w : Nat)

/-! ## Random numbers -/

/-- mulhilo (R95). -/
def mulhilo (m : Nat) (x : Word) : Word × Word :=
  (BitVec.ofNat 32 (m * x.toNat / 2 ^ 32), BitVec.ofNat 32 (m * x.toNat))

/-- One round of Philox (R95). -/
def philoxRound (c : Word × Word × Word × Word) (k0 k1 : Word) : Word × Word × Word × Word :=
  let (h0, l0) := mulhilo 0xd2511f53 c.1
  let (h1, l1) := mulhilo 0xcd9e8d57 c.2.2.1
  (h1 ^^^ c.2.1 ^^^ k0, l1, h0 ^^^ c.2.2.2 ^^^ k1, l0)

/-- `n` rounds of Philox from a key (R95). -/
def philoxRounds : Nat → Word × Word × Word × Word → Word → Word → Word × Word × Word × Word
  | 0, c, _, _ => c
  | n + 1, c, k0, k1 => philoxRounds n (philoxRound c k0 k1) (k0 + 0x9e3779b9#32) (k1 + 0xbb67ae85#32)

/-- philox_4x32_10 (R95), word 0. -/
def philox (c0 c1 c2 c3 : Word) (key : DWord) : Word :=
  (philoxRounds 10 (c0, c1, c2, c3) (key.setWidth 32) (key.extractLsb' 32 32)).1

/-- stoch_draw (R95). -/
def stochDraw (key : DWord) (c0 c1 c2 c3 : Word) : Nat := (philox c0 c1 c2 c3 key).toNat / 256

/-! ## FP32 shorthands -/

/-- The value of an FP32 pattern. -/
def f32 (w : Word) : Ex := fp32.value w.toNat
/-- rnd (R95). -/
def rnd (x : Ex) : Word := BitVec.ofNat 32 (fp32.round .rn x)
/-- FP32 addition to nearest-even, subnormals kept (R184). -/
def addF32 (a b : Word) : Word := rnd (.sum false [f32 a, f32 b])

end Sys2Proof.Machine
end

