-- ==== Sys2Proof/Machine/Ops.lean ====
section
/-!
DEFINITION. The shared operations: applying and releasing stores (07 R178, 10 R291, 11 R301), committing a
region (01 R30, 04 R120), seals as they are captured (10 R290), raising a trap, entering a trap handler
(06 R169 to R171), leaving a thread (04 R115), aborting a region (04 R121), and the walk of one word over
the threads of a run (01 R23, 12 R342).
-/

namespace Sys2Proof.Machine

/-! ## Stores applied at their home -/

/-- Which card a key belongs to, when it is a peer's (R273). -/
def keyPeer (k : Nat) : Option Nat :=
  if 2 ≤ keyRegion k ∧ keyRegion k < 34 then some (keyRegion k - 2) else none

/-- The ports through which a card can be reached (R401). Log entry 82, DEDUCED. Log entry 109, DESIGN CHOICE. -/
def State.portFor (s : State) (card : Nat) : Option Nat :=
  let r := if card < 16 then s.routeLo else s.routeHi
  let m := fieldNat r (4 * (card % 16) + 3) (4 * (card % 16))
  if card = s.cardId then none
  else (List.range 4).find? fun p => m.testBit p && (s.links[p]?.getD {}).up

/-- A peer card is unreachable (R401). -/
def State.unreachable (s : State) (k : Nat) : Bool :=
  match keyPeer k with
  | some c => (s.portFor c).isNone
  | none => false

/-- The host, or a peer card, refuses an access at these bytes (R186, R403). Log entry 83, DEDUCED. -/
def State.refusedAt (s : State) (k n : Nat) : Bool := s.hostErrs.any fun h => decide (h < k + n ∧ k ≤ h)

/-- A peer access that no card admits (R403). -/
def State.peerFails (s : State) (k n : Nat) : Bool :=
  s.unreachable k || (keyPeer k).isSome && s.refusedAt k n

/-- The host answers an access at these bytes with an error status (R186). -/
def State.hostFails (s : State) (k n : Nat) : Bool := keyRegion k == regHost && s.refusedAt k n

/-- A boundary trap is due for a thread; the first one stands (R182, R186, R403). Log entry 83, DEDUCED. -/
def State.dueTrap (s : State) (t : TRef) (ti : TrapInfo) : State :=
  s.updThread t fun x => { x with boundary := x.boundary <|> some ti }

/-- The crew identifiers that stand for the sequencers, for their stores: the columns' numbers above it. No crew has
one. -/
def noCid : Nat := 2 ^ 64

/-- TRAP_DATA of R174: the word and the step. -/
def stepData (w : Word) (step : Nat) : DWord := (0#24 ++ BitVec.ofNat 8 step ++ w : BitVec 64)

/-- A peer card has refused a store (R403): a trap is due for its thread, for every thread that gathered at a uniform
word, and the workgroup of a sequencer's store faults (R169, R171, R346). -/
def State.refuseStore (s : State) (cid : Nat) (h : HeldStore) : State :=
  let ti : TrapInfo := ⟨0x44#8, 0, h.ea, stepData h.word 9⟩
  if noCid ≤ cid then
    match (s.col (cid - noCid)).seqr.owner with
    | some wid => s.faultWg wid ⟨0x44#8, 0, h.pc, h.ea, { access := 0x22#8 }, 0⟩
    | none => s
  else (h.tid :: h.also).foldl (fun acc i => acc.dueTrap ⟨cid, i⟩ ti) s

/-! ## Stores that a span does not see yet (R308) -/

/-- Bytes at a key as the agents of a core's span read them at their home (R308). Log entry 105, DESIGN CHOICE. -/
def State.spanBytes (s : State) (c k n : Nat) : List Byte :=
  (s.lags.filter fun l => l.span == spanOf c && l.touches k n).foldl (fun bs l => layBytes l.key l.old k bs) (s.bytes k n)

/-- Every store that some span does not see yet is seen from now on: what a release or a fence from device scope up waits
for (R303, R307). Log entry 105, DESIGN CHOICE. -/
def State.reachAll (s : State) : State := { s with lags := [] }

/-- A store that a span does not see yet is seen there from now on (R308). Log entry 105, DESIGN CHOICE. -/
def State.reachAt (s : State) (i : Nat) : State := { s with lags := s.lags.take i ++ s.lags.drop (i + 1) }

/-- A thread's store or atomic comes to its home: what the thread has read is seen everywhere (R299, R308).
Log entry 105, DESIGN CHOICE. -/
def State.reachFor (s : State) (t : TRef) : State :=
  { s with lags := s.lags.filter fun l => !l.readers.contains t }

/-- A store or reduction performed at the coherence point of its bytes (R184, R187, R299); one that a peer
card or the host refuses has no effect, and the thread of a peer access or of a reduction is told (R186,
R403). A store with policy .lu leaves no sector in the device cache, one with .ef the lowest retention (R176). A
reduction at a sector with an uncorrectable error computes on the bytes as they stand there: the spec gives the error of
a load and of a store's write, not of a reduction's own read (log entry 106, DESIGN CHOICE). Log entry 83, DEDUCED. -/
def State.applyStore (s0 : State) (cid : Nat) (h : HeldStore) : State :=
  let t : TRef := ⟨cid, h.tid⟩
  let n := h.op.size
  let s := (s0.fillAt h.key).reachFor t
  if s.peerFails h.key n then s.refuseStore cid h
  else match h.op with
    | .write bs =>
      if s.hostFails h.key n then s
      else
        let s1 := s.putBy (some (t, h.epoch)) h.key bs
        if h.policy = 2#2 then s1.dcLow h.key
        else if h.policy = 3#2 then
          { s1 with dcache := dcDrop h.key s1.dcache, peerLines := peerDrop h.key s1.peerLines }
        else s1
    | .reduce k x =>
      if s.hostFails h.key n then
        { s.dueTrap t ⟨0x48#8, 0, h.ea, Config.freeDWord 1 s.freeCtr⟩ with freeCtr := s.freeCtr + 1 }
      else
        let old : DWord := BitVec.ofNat 64 (leNat (s.bytes h.key n))
        s.putBy (some (t, h.epoch)) h.key (toLe n (atomNew addF32 k old x).toNat)
    | _ => s

/-- The words of a number, the least significant first. -/
def wordsNat (n x : Nat) : List Word := (List.range n).map fun i => BitVec.ofNat 32 (x / 2 ^ (32 * i))

/-- The numbers that stand for the two cas forms and for join.dec's decrement among the atomics (R164, R185). -/
def cas32Op : BitVec 5 := 16#5
def cas64Op : BitVec 5 := 17#5
def joinOp : BitVec 5 := 18#5

/-- The value that an atomic writes; none where a comparison fails, or where JOIN is zero (R164, R184, R185). -/
def atomicNew (k : BitVec 5) (x y old : DWord) : Option DWord :=
  if k = cas32Op then (if old.setWidth 32 = x.setWidth 32 then some y else none)
  else if k = cas64Op then (if old = x then some y else none)
  else if k = joinOp then (if old.setWidth 32 = 0#32 then none else some ((old.setWidth 32 - 1#32).setWidth 64))
  else some (atomNew addF32 (k.setWidth 4) old x)

/-- The pointer of the sector that holds an access. -/
def sectorPtr (ea : DWord) : DWord := ea &&& ~~~ 15#64

/-- The failure of a read at a key by the word at an address, if it fails: an uncorrectable error, a refused peer or
host access (R182, R186, R403). -/
def State.readFailure (s : State) (pc : DWord) (w : Word) (ea : DWord) (k n : Nat) : Option PendVal :=
  if (s.eccAt (s.route k) n).isSome then some (.ecc (sectorPtr ea) pc)
  else if s.peerFails k n then some (.peer ea (stepData w 9))
  else if s.hostFails k n then some (.host ea pc)
  else none

/-! ## The L1 data cache (R277) -/

/-- Bytes of a sector laid over at an offset in it. -/
def overSector (off : Nat) (bs old : List Byte) : List Byte := (old.take off ++ bs ++ old.drop (off + bs.length)).take 16

/-- A performed store of the core updates every L1 copy of its sector, or, with policy .nl1, invalidates the line
(R176, R277). -/
def l1Store (key : Nat) (drop : Bool) (bs : List Byte) (ls : List L1Line) : List L1Line :=
  if drop then ls.filter fun l => l.key != key / 128 * 128
  else ls.map fun l => if l.key == key / 128 * 128 then
    { l with sectors := l.sectors.map fun x =>
        if x.1 == key % 128 / 16 then (x.1, overSector (key % 16) bs x.2) else x } else l

/-- The L1 of a core after its own access wrote `n` bytes at a key (R277). -/
def State.l1Update (s : State) (c key n : Nat) (drop : Bool) : State :=
  s.updCol c fun x => { x with l1 := l1Store key drop (s.bytes key n) x.l1 }

/-! ## The core store order (R291, R301, R308) -/

/-- A pending result gets its value. -/
def State.givePend (s : State) (t : TRef) (v w : PendVal) : State :=
  s.updThread t fun x => { x with pend := x.pend.map fun p => if p.val = v then { p with val := w } else p }

/-- A released atomic performed at its coherence point (R184, R291): its old value is kept, and goes to the thread
that waits for it; a read that fails gives the failure (R182, R186, R403). -/
def State.applyAtomic (s0 : State) (c : Nat) (r : Released) (k : BitVec 5) (x y : DWord) : State :=
  let h := r.store
  let t : TRef := ⟨r.cid, h.tid⟩
  let n := atomicSize k
  let s := (s0.fillAt h.key).reachFor t
  match s.readFailure h.pc h.word h.ea h.key n with
  | some v => s.givePend t (.atomic r.seq) v
  | none =>
    let old : DWord := BitVec.ofNat 64 (leNat (s.bytes h.key n))
    let s1 := (match atomicNew k x y old with
      | some new => s.putBy (some (t, h.epoch)) h.key (toLe n new.toNat)
      | none => s).l1Update c h.key n false
    (s1.updCol c fun x => { x with atomicOld := (r.seq, old) :: x.atomicOld.take 255 }).givePend t (.atomic r.seq)
      (.words (wordsNat (n / 4) old.toNat))

/-- A core's store, reduction or atomic performed at its home (R291, R299); a release from span scope up comes after
what its thread has seen is seen everywhere (R304, R308). -/
def State.performOne (s0 : State) (c : Nat) (r : Released) : State :=
  let s := if r.rel then s0.reachAll else s0
  match r.store.op with
  | .atomic k x y => s.applyAtomic c r k x y
  | op => (s.applyStore r.cid r.store).l1Update c r.store.key op.size (r.store.policy == 1#2)

/-- A store that some spans, none of them its core's, still do not see once it is performed (R308): they keep what was
there. A release, a reduction and an atomic are seen by all at once. Log entry 105, DESIGN CHOICE. -/
def State.performLate (s : State) (c : Nat) (r : Released) (spans : List Nat) : State :=
  let k := r.store.key
  match r.store.op with
  | .write bs =>
    let s1 := s.performOne c r
    if r.rel ∨ s.peerFails k bs.length then s1
    else { s1 with lags := ((spans.filter fun x => x != spanOf c).eraseDups.map fun x =>
        (⟨x, k, s.bytes k bs.length, []⟩ : Lag)) ++ s1.lags }
  | _ => s.performOne c r

/-- The service layer takes the oldest released store of a core, unless it waits for its commit point's seal: it is
applied for LAST_APPLIED (R291). -/
def Column.takeHead (x : Column) : Option (Released × Column) :=
  match x.released with
  | [] => none
  | r :: rs => if r.hold then none else some (r, { x with released := rs, lastApplied := max x.lastApplied r.seq })

/-- The oldest store of a core that is not performed is performed: one that the service layer has taken over, or
else the oldest released one (R291). -/
def State.applyHead (s : State) (c : Nat) : State :=
  match (s.col c).banked with
  | r :: rs => (s.updCol c fun x => { x with banked := rs }).performOne c r
  | [] => match (s.col c).takeHead with
    | some (r, x) => (s.updCol c fun _ => x).performOne c r
    | none => s

/-- Every store of a core that may be performed is performed, in order: what a fence waits for (R188, R301, R307). -/
def State.drainCol (s : State) (c : Nat) : Nat → State
  | 0 => s
  | n + 1 => (s.applyHead c).drainCol c n

/-- `drainCol` to the end. -/
def State.drain (s : State) (c : Nat) : State := s.drainCol c (s.col c).pendingStores.length

/-- The service layer takes over the oldest released store of a core into its banks (R308). -/
def State.bankHead (s : State) (c : Nat) : State :=
  match (s.col c).takeHead with
  | some (r, x) => s.updCol c fun _ => { x with banked := x.banked ++ [r] }
  | none => s

/-- A store may reach its home before an earlier one of its core (R299, R304, R308): it is no release at span scope
or wider, the earlier one touches other bytes, the store's thread has not read it, and it is no atomic of that
thread. -/
def Released.mayPass (s : State) (r e : Released) : Bool :=
  let t : TRef := ⟨r.cid, r.store.tid⟩
  let own : Bool := match e.store.op with | .atomic .. => decide (e.cid = r.cid ∧ e.store.tid = r.store.tid) | _ => false
  !r.rel && !e.store.touches s r.store.key r.store.op.size && !e.store.readers.contains t && !own

/-- A store in the banks reaches its home, if every earlier one lets it pass; `spans` do not see it yet (R308). -/
def State.performAt (s : State) (c i : Nat) (spans : List Nat) : State :=
  let bs := (s.col c).banked
  match bs[i]? with
  | none => s
  | some r =>
    if (bs.take i).all fun e => r.mayPass s e then
      (s.updCol c fun x => { x with banked := bs.take i ++ bs.drop (i + 1) }).performLate c r spans
    else s

/-- Whether each of a core's pending stores is hidden from the core's other agents (R179, R301, R304): it waits for its
seal, it is a release at span scope or wider with something earlier pending, or its crew has something hidden before it.
`before` is whether something earlier is pending, `shut` the crews with something hidden. Log entry 17, DEDUCED. -/
def hideMarks : Bool → List Nat → List Released → List (Released × Bool)
  | _, _, [] => []
  | before, shut, e :: es =>
    let hid := e.hold || e.rel && before || shut.contains e.cid
    (e, hid) :: hideMarks true (if hid then e.cid :: shut else shut) es

/-- A store of the thread. -/
def Released.by_ (e : Released) (t : TRef) : Bool := e.cid == t.cid && e.store.tid == t.tid

/-- The pending stores of a core that an agent sees, the oldest first: its own, and what is not hidden (R179, R301,
R304). Log entry 17, DEDUCED. -/
def State.coreSees (s : State) (c : Nat) (me : Option TRef) : List HeldStore :=
  ((hideMarks false [] (s.col c).pendingStores).filter fun p => !p.2 || me.any p.1.by_).map fun p => p.1.store

/-- The pending stores of a core are performed, in order, if `late` says that one of them is waited for; none while one
that waits for its commit point's seal stands before it (R291, R303). Log entry 17, DEDUCED. -/
def State.drainIf (s : State) (c : Nat) (late : State → Bool) : Option State :=
  if late s then
    let s1 := s.drain c
    if late s1 then none else some s1
  else some s

/-- A read of some bytes by an agent of a core has to wait for pending accesses (R179, R301, R306, R308): an atomic
of its own; an atomic, or another's reduction, at those bytes; for a strong or an acquire read its own reduction
too. -/
def Released.blocks (s : State) (me : Option TRef) (strong : Bool) (k n : Nat) (e : Released) : Bool :=
  let mine := me.any e.by_
  match e.store.op with
  | .atomic .. => mine || e.store.touches s k n
  | .reduce .. => (strong || !mine) && e.store.touches s k n
  | _ => false

/-- What such a read waits for is performed; none while that waits for a seal. Log entry 17, DEDUCED. -/
def State.settleRead (s : State) (c : Nat) (me : Option TRef) (strong : Bool) (k n : Nat) : Option State :=
  s.drainIf c fun s => (s.col c).pendingStores.any fun e => !e.hold && e.blocks s me strong k n

/-- A store to a stash copy by an agent of a core comes after the core's pending stores to those bytes (R192, R299). -/
def State.settleWrite (s : State) (c k n : Nat) : Option State :=
  s.drainIf c fun s => (s.col c).pendingStores.any fun e => !e.hold && e.store.touches s k n

/-- A strong or an acquire load has read some bytes: the pending stores among them that it saw, and those that some span
does not see yet, have it as a reader (R308). -/
def State.noteRead (s : State) (c : Nat) (t : TRef) (k n : Nat) : State :=
  let f (r : Released) : Released :=
    if r.store.touches s k n && !r.store.readers.contains t then
      { r with store := { r.store with readers := t :: r.store.readers } } else r
  let held (h : HeldStore) : HeldStore :=
    if h.tid == t.tid && h.touches s k n && !h.readers.contains t then { h with readers := t :: h.readers } else h
  let late (l : Lag) : Lag :=
    if l.touches k n && l.span != spanOf c && !l.readers.contains t then { l with readers := t :: l.readers } else l
  ({ s with lags := s.lags.map late }.updCol c fun x => { x with
      banked := x.banked.map f, released := x.released.map f }).updCrew t.cid fun x =>
    { x with storeQ := x.storeQ.map held }

/-- A thread's store to another agent's memory outside the core store order, such as another column's scratchpad,
comes after the pending stores that the thread has read, and after its own atomics (R308). -/
def State.settleSeen (s : State) (c : Nat) (t : TRef) : Option State :=
  s.drainIf c fun s => (s.col c).pendingStores.any fun e => !e.hold && (e.store.readers.contains t ||
    e.by_ t && match e.store.op with | .atomic .. => true | _ => false)

/-- What a release or a fence of a thread at a scope waits for (R188, R303, R304). From span scope up every store of the
core that it may have seen; below, of its own, reductions and atomics, and what the core's other agents do not see yet,
such as a release at span scope behind a pending store. Log entry 17, DEDUCED. -/
def State.lateFor (s : State) (c : Nat) (t : TRef) (scope : Nat) : Bool :=
  if 3 ≤ scope then (s.col c).pendingStores.any fun e => !e.hold
  else (hideMarks false [] (s.col c).pendingStores).any fun p => p.1.by_ t && (p.2 || match p.1.store.op with
    | .reduce .. | .atomic .. => true
    | _ => false)

/-- What precedes a release or a fence of a thread is performed at its scope: from span scope up by every pending store
of the core, and from device scope up every span sees what is performed; none while a store waits for its seal (R188,
R303, R304, R307, R308). Log entry 17, DEDUCED. -/
def State.performed (s : State) (c : Nat) (t : TRef) (scope : Nat) : Option State :=
  (s.drainIf c fun s => s.lateFor c t scope).map fun s1 => if 4 ≤ scope then s1.reachAll else s1

/-- What an acquire or a fence at a scope invalidates (R183, R188, R281, R304): from span scope up the core's L1, at
system scope the lines of peer cards in the device cache. -/
def State.acquired (s : State) (c scope : Nat) : State :=
  if scope < 3 then s
  else
    let s1 := s.updCol c fun x => { x with l1 := [] }
    if 5 ≤ scope then { s1 with peerLines := [] } else s1

/-- The dirty sectors of the entries that `p` selects, written back (R188, R192). -/
def State.flushStash (s : State) (wid : Nat) (p : StashEntry → Bool) : State :=
  let dirty := (s.wg wid).stash.flatMap fun e => if p e then e.sectors.filter (·.ready) else []
  let s1 := { s with mem := dirty.foldl writeBack s.mem }
  let clean (e : StashEntry) : StashEntry :=
    if p e then { e with sectors := e.sectors.map fun x => { x with dirty := x.dirty && x.gkey.isNone } } else e
  s1.updWg wid fun w => { w with stash := w.stash.map clean }

/-- Whether a workgroup's store at an address is logged and not performed (R368, R373). -/
def State.logged (s : State) (w : Workgroup) (ea : DWord) : Bool :=
  let l := s.launch w.lid
  l.deterministic && (l.redundant w.index || classify l.det w.index ea == .shared)

/-! ## Releases and commits -/

/-- The next store sequence number of a core (R291). -/
def Column.seqNext (c : Column) : Nat := max c.nextSeq (c.lastApplied + 1)

/-- The 32 bytes of a log entry (R369). -/
def LogEntry.toBytes (e : LogEntry) : List Byte :=
  let d := match e.op with
    | .write bs => leNat bs | .reduce _ x => x.toNat | .mark _ => 0 | .atomic _ x _ => x.toNat
  let opc := match e.op with
    | .write bs => if bs.length = 1 then 0x2e0 else if bs.length = 2 then 0x2e4
        else if bs.length = 4 then 0x2e8 else 0x2ec
    | .reduce k _ => 0x330 + k.toNat
    | .mark _ => 0
    | .atomic k _ _ => 0x320 + k.toNat
  toLe 8 e.ea.toNat ++ toLe 8 d ++ [BitVec.ofNat 8 e.tid, BitVec.ofNat 8 e.crew] ++ toLe 2 opc ++
    toLe 4 e.count ++ List.replicate 8 0

/-- Bytes written for a workgroup at a pointer, if it may (14 R365). Log entry 33, DEDUCED. -/
def State.pokeWg (s : State) (wid : Nat) (p : DWord) (bs : List Byte) : State :=
  match s.check (s.whoWg wid) p bs.length permW false with
  | .error _ => s
  | .ok d => match s.locate d true with
    | .at s1 k => s1.putAll k bs
    | .pageFault .. => s

/-- Where entry `i` of a workgroup's log lies (R365). Log entry 33, DEDUCED. -/
def Launch.logAt (l : Launch) (w : Workgroup) (i : Nat) : DWord :=
  l.det.logBase + BitVec.ofNat 64 ((w.index.getD 0 % l.det.logSlots * 3 + w.copy) * l.det.logSize + 32 * i)

/-- The parts of a store that get entries of their own: a 128-bit store gives two (R369). -/
def HeldStore.parts (h : HeldStore) : List HeldStore :=
  match h.op with
  | .write bs => if bs.length = 16 then
      [{ h with op := .write (bs.take 8) },
       { h with op := .write (bs.drop 8), key := h.key + 8, ea := ptrAdd h.ea 8 }] else [h]
  | _ => [h]

/-- ACCESS of a deferred write (R350): W, or A for a reduction. -/
def StoreOp.access : StoreOp → Byte
  | .write _ | .mark _ => 2#8
  | .reduce .. | .atomic .. => 4#8
/-- A deferred write enters its workgroup's log (R369). A log that would pass LOG_SIZE faults the workgroup
(R370). Log entry 33, DEDUCED. -/
def State.logStore (s : State) (wid crew : Nat) (h : HeldStore) : State :=
  h.parts.foldl (fun acc p =>
    let w := acc.wg wid
    let l := acc.launch w.lid
    let n := w.log.length
    if l.det.logSize < 32 * (n + 1) then acc.faultWg wid ⟨0xb6#8, 0, p.pc, p.ea, { crew := crew % 16, tid := p.tid, access := p.op.access }, 0⟩
    else
      let e : LogEntry := {
        crew := crew, tid := p.tid, ea := p.ea, key := p.key, op := p.op
        count := (w.log.filter fun x => x.crew == crew && x.tid == p.tid).length }
      (acc.updWg wid fun x => { x with log := x.log ++ [e] }).pokeWg wid (l.logAt w n) e.toBytes) s

/-- The store enters the core store order, under the next store sequence number, or its workgroup's log
(R291, R301, R369). `crew` is the crew's index, or 16 for the sequencer; `rel` says whether it is a release at span
scope or wider, `hold` whether it waits for the seal of its commit point. -/
def State.releaseAs (s : State) (wid cid crew : Nat) (h : HeldStore) (rel hold : Bool := false) : State :=
  let w := s.wg wid
  if s.logged w h.ea then s.logStore wid crew h
  else s.updCol w.col fun x =>
    { x with released := x.released ++ [⟨x.seqNext, cid, h, rel, hold⟩], nextSeq := x.seqNext + 1 }

/-- A crew's store released. -/
def State.release (s : State) (cid : Nat) (h : HeldStore) (rel hold : Bool := false) : State :=
  s.releaseAs (s.crew cid).wid cid (s.crew cid).idx h rel hold

/-- RIND_MODE of a launch (R422). -/
def Launch.rindMode (l : Launch) : Bool := bit (l.record.getD 116 0) 4

/-- A thread's held stores are numbered in FIFO order (R178, R291); `hold` says whether they wait for a seal.
Log entry 20, DEDUCED. -/
def State.number (s : State) (t : TRef) (hold : Bool) : State :=
  let mine := (s.crew t.cid).storeQ.filter fun h => h.tid == t.tid
  let s1 := s.updCrew t.cid fun c => { c with storeQ := c.storeQ.filter fun h => h.tid != t.tid }
  mine.foldl (fun acc h => acc.release t.cid h false hold) s1

/-- The thread's numbered stores wait no longer (R291 step 3). Log entry 20, DEDUCED. -/
def State.unhold (s : State) (t : TRef) : State :=
  s.updCol (s.crewCol t.cid) fun x => { x with released := x.released.map fun r =>
    if r.cid == t.cid && r.store.tid == t.tid then { r with hold := false } else r }

/-- Commits a thread's open region: its held stores are released in FIFO order, its refault count restarts; a commit
point's seal is over (R30, R178, R291, R354). Log entry 20, DEDUCED. -/
def State.commit (s : State) (t : TRef) : State :=
  ((s.number t false).unhold t).updThread t fun x => { x with refaultCnt := 0, refaultUnit := none, sealing := none }

/-- A seal of a core is asked for, for a reason; a request that stands already stays (R189, R290). -/
def Column.askSeal (reason : Byte) (x : Column) : Column :=
  if x.sealReqs.contains reason then x else { x with sealReqs := x.sealReqs ++ [reason] }

/-- A commit point that cannot complete yet commits its thread's open region, and the thread would restart at the word; a
seal of the commit point stands until the word is complete (R120, R155, R180, R291). Log entry 20, DEDUCED. -/
def State.commitTo (s : State) (t : TRef) (pc : DWord) : State :=
  ((s.number t false).unhold t).updThread t fun x => { x with
    refaultCnt := 0, refaultUnit := none, regionPc := pc }

/-- A commit point of the thread seals its core first (R291, R323): its launch's RIND_MODE is 1, and no seal that
holds the commit point at this address is valid. Log entry 20, DEDUCED. -/
def State.mustSeal (s : State) (t : TRef) (pc : DWord) : Bool :=
  (s.crewLaunch t.cid).rindMode && !(s.thread t).helper &&
    !((s.thread t).sealing.any fun x => x.pc == pc && x.valid)

/-- Steps 1 and 2 of such a commit (R291): the thread's held stores are numbered and wait, the word's own access too,
REGION_PC is where R120 puts it, and a seal of reason 4 is asked for. A logged access is in no core store order.
Once an access that met a page fault can be numbered, it asks for a seal anew. Log entry 20, DEDUCED. -/
def State.sealAt (s : State) (t : TRef) (pc next : DWord) (own : Option HeldStore) (rel : Bool := false) : State :=
  if (s.thread t).sealing.any fun x => x.pc == pc && (own.isNone || x.own.isSome) then s
  else
    let c := s.crewCol t.cid
    let s1 := s.number t true
    let n := (s1.col c).seqNext
    let own' := own.filter fun h => !s1.logged (s1.wg (s1.crew t.cid).wid) h.ea
    let s2 := match own' with
      | some h => s1.release t.cid h rel true
      | none => s1
    (s2.updThread t fun x => { x with sealing := some { pc := pc, own := own'.map fun _ => n }, regionPc := next }).updCol
      c (Column.askSeal 4)

/-- The thread's region holds stores. -/
def State.holdsStores (s : State) (t : TRef) : Bool := (s.crew t.cid).storeQ.any fun h => h.tid == t.tid

/-- The number of the own access of a commit point whose seal is valid (R291 step 3). -/
def Thread.sealedOwn (t : Thread) (pc : DWord) : Option Nat :=
  t.sealing.bind fun x => if x.pc = pc ∧ x.valid then x.own else none

/-! ## Seals -/

/-- What a seal of a column records (R189, R236, R287). Scratchpad beyond CURRENT is not sealed (R288).
Log entry 87, DEDUCED. -/
def State.sealBody (s : State) (c : Nat) : SealBody :=
  let wgs := s.colWgs c
  let crews := s.crews.filter fun x => wgs.any fun w => w.wid == x.wid
  { threads := s.threads.filter fun t => crews.any fun x => x.cid == t.cid
    crews := crews
    wgs := wgs
    launches := s.launches.filter fun l => wgs.any fun w => w.lid == l.lid
    rays := s.rays.filter fun y => crews.any fun x => x.cid == y.cid
    hits := s.hits.filter fun y => crews.any fun x => x.cid == y.cid
    seqr := (s.col c).seqr
    released := (s.col c).released
    scratch := s.mem.filter fun p => keyRegion p.1 == regScratch c &&
      decide (keyOff p.1 < (s.col c).poolCurrent * 524288) }

/-- The blocks of a core's shadows before its scratchpad's (R287): lane registers, uniform registers, control state,
engine state. Log entry 98, DESIGN CHOICE. -/
def stateBlocks : Nat := 3072 + 388 + 768 + 128
/-- The scratchpad blocks in which two sealed scratchpads differ, from block 0 of the scratchpad.
Log entry 98, DESIGN CHOICE. -/
def changedBlocks (a b : List Host.Cell) : List Nat :=
  ((a.filter (fun p => !b.contains p) ++ b.filter fun p => !a.contains p).map fun p => keyOff p.1 / 512).eraseDups

/-- The blocks, as bits, that are dirty between two sealed scratchpads (R288): those of the scratchpad that differ. How
registers, control state and engine state are laid out in blocks the spec does not say: all of their blocks count as
dirty (log entry 98, DESIGN CHOICE). -/
def dirtyBlocks (was now : List Host.Cell) : Nat :=
  (changedBlocks was now).foldl (fun m b => m ^^^ 2 ^ (stateBlocks + b)) (2 ^ stateBlocks - 1)

/-- The latest valid seal of a column. -/
def Column.latestSeal (x : Column) : Option Seal := x.seals.find? (·.valid)
/-- The blocks of a column that are dirty since its latest valid seal (R288). Log entry 87, DEDUCED.
Log entry 98, DESIGN CHOICE. -/
def Column.dirty (x : Column) (now : SealBody) : Nat :=
  dirtyBlocks ((x.latestSeal.map fun y => y.body.scratch).getD []) now.scratch
/-- The slot bits of a seal after the latest valid one: each dirty block goes to the slot that it does not reference
(R288, R289). -/
def Column.nextSlots (x : Column) (now : SealBody) : Nat := (x.latestSeal.map (·.slots)).getD 0 ^^^ x.dirty now
/-- What a slot of a block holds, B where `slot` is true (R287, R288): the state that it was written from, if any. -/
def Column.slotHolds (x : Column) (slot : Bool) (b : Nat) : Option SealBody :=
  if x.latestSeal.any fun y => y.slots.testBit b == slot then x.latestSeal.map (·.body)
  else (x.shadow.find? fun w => w.blocks.testBit b).map (·.body) <|>
    (x.seals.find? fun y => y.valid && y.slots.testBit b == slot).map (·.body)

/-- The 512 bytes of a sealed scratchpad block. -/
def scratchBlock (c : Nat) (m : List Host.Cell) (b : Nat) : List Byte :=
  (List.range 512).map fun i => memGet m (mkKey (regScratch c) (512 * b + i))
/-- The digest of a block of a seal (R289). Log entry 98, DESIGN CHOICE. -/
def Seal.digest (y : Seal) (b : Nat) : Word :=
  if b < stateBlocks then Config.shadowDigest y.body b
  else crc32c (scratchBlock y.core y.body.scratch (b - stateBlocks))
/-- A seal's manifest: the slot bit and the digest of each of the 12,548 blocks (R289). -/
def Seal.manifest (y : Seal) : List (Bool × Word) :=
  (List.range (stateBlocks + 8192)).map fun b => (y.slots.testBit b, y.digest b)
/-- The first 60 bytes of a seal record (R289). -/
def Seal.head (y : Seal) : List Byte :=
  toLe 8 y.seq ++ toLe 2 y.core ++ [BitVec.ofNat 8 y.mslot, y.reason] ++
    toLe 4 (Config.manifestCrc y.manifest).toNat ++ toLe 8 y.time.toNat ++ toLe 8 y.sqNext ++ List.replicate 28 0
/-- The 64 bytes of a seal record (R289). -/
def Seal.record (y : Seal) : List Byte := y.head ++ toLe 4 (crc32c y.head).toNat

/-- A seal captured at this moment (R289, R290), whose dirty blocks go into the other slots; it meets the requests of its
reason, and those for which any seal will do. Log entry 78, DEDUCED. -/
def State.captureSeal (s : State) (c : Nat) (reason : Byte) : State :=
  let body := s.sealBody c
  s.updCol c fun x => { x with
    sealReqs := x.sealReqs.filter fun q => q != reason && (q == 1#8 || q == 4#8)
    shadow := ⟨x.dirty body, body⟩ :: x.shadow
    sealing := some {
      seq := (x.latestSeal.map fun y => y.seq + 1).getD 1
      core := c
      reason := reason
      mslot := (x.latestSeal.map fun y => 1 - y.mslot).getD 0
      slots := x.nextSlots body
      time := s.time
      sqNext := x.nextSeq
      body := body } }

/-- The commit points that a seal of reason 4 has captured may go on (R291). -/
def Thread.sealed (y : Seal) (t : Thread) : Thread :=
  if y.reason == 4#8 && y.body.threads.any fun x => x.cid == t.cid && x.tid == t.tid && x.sealing == t.sealing then
    { t with sealing := t.sealing.map fun x => { x with valid := true } } else t

/-- A record at the young end of a core's deque (R337, R339). -/
def Column.enqueue (x : Column) (r : Record) : Column :=
  { x with deque := x.deque ++ [r], passedBy := if x.deque.isEmpty then [] else x.passedBy }

/-- The capacity of a deque with its spill area (R337). -/
def dequeMax : Nat := 256 + 32768

/-- A deque with its spill area has room for one record more, beside those that wait for the seal of a yield (R165,
R337). -/
def Column.hasRoom (x : Column) : Bool := decide (x.deque.length + x.yielded.length < dequeMax)

/-- Records of yields pushed as long as there is room; the others, and those whose seal is not valid yet, wait (R165,
R337). -/
def pushDue (seq : Nat) : List (Nat × Record) → Column → Column
  | [], x => x
  | y :: ys, x =>
    if y.1 ≤ seq ∧ x.deque.length < dequeMax then pushDue seq ys (x.enqueue y.2)
    else pushDue seq ys { x with yielded := x.yielded ++ [y] }

/-- The records of yields whose seal is valid are pushed, once the core's stores before it are performed; a seal is asked
for while others wait (R165, R449). Log entry 70, DEDUCED. -/
def Column.pushYielded (x : Column) (seq : Nat) : Column :=
  let y := if x.pendingStores.any fun e => !e.hold then x else pushDue seq x.yielded { x with yielded := [] }
  if y.yielded.isEmpty then y else Column.askSeal 2 y

/-- The seal in progress becomes valid (R290, R291), and with it the workgroups that end before it (R165, R363).
Log entry 78, DEDUCED. -/
def State.validateSeal (s : State) (c : Nat) : State :=
  match (s.col c).sealing with
  | none => s
  | some y =>
    let s1 := if (s.col c).yielded.isEmpty then s else s.drain c
    { s1 with threads := s1.threads.map (Thread.sealed y) }.updCol c fun x =>
      { x with
        sealing := none, seals := { y with valid := true } :: x.seals.take 255
        shadow := x.shadowBuf, shadowBuf := []
        endedSince := x.endedSince.filter fun w => y.body.wgs.any fun g => g.wid == w }.pushYielded y.seq

/-! ## Words of a run -/

/-- The word at a position of the run. -/
def Run.wordAt (r : Run) (i : Nat) : Word := r.words.getD i 0
/-- The instruction word being executed. -/
def Run.word (r : Run) : Word := r.wordAt r.pos
/-- The address of a position. -/
def Run.addrAt (r : Run) (i : Nat) : DWord := r.start + BitVec.ofNat 64 (4 * i)
/-- The address of the word being executed. -/
def Run.wordAddr (r : Run) : DWord := r.addrAt r.pos
/-- The address of the next instruction word in program order; a trailer does not count (R120). -/
def Run.nextInstr (r : Run) : DWord :=
  if isTrailer (r.wordAt (r.pos + r.wlen)) then r.addrAt (r.pos + r.wlen + 1) else r.addrAt (r.pos + r.wlen)

/-- A run of no words: what stands for a run that is not there. -/
def Run.empty (k : RunKey) : Run := { key := k, start := 0, words := [], members := [] }
/-- A run by key. -/
def State.run (s : State) (k : RunKey) : Run := (s.run? k).getD (.empty k)
/-- The run that holds a thread. -/
def State.runOf (s : State) (t : TRef) : Option Run := s.runs.find? fun r => r.members.contains t

/-- TRAP_DATA of R51 and R451: the word, its position, a subcode. -/
def trapData (w : Word) (pos : Nat) (sub : Byte) : DWord :=
  (0#16 ++ sub ++ BitVec.ofNat 8 pos ++ w : BitVec 64)
/-- A trap raised at the current word (R51, R451). Where the offending field lies in the mask word of an instruction,
the trap still names the instruction word and its position; which of the two words it names the spec does not say (log
entry 100, DESIGN CHOICE). -/
def Run.trap (r : Run) (cause sub : Byte) (addr : Option DWord := none) : TrapInfo :=
  ⟨cause, r.wordAddr, addr.getD r.wordAddr, trapData r.word r.pos sub⟩
/-- A failed access check at the current word (R174). -/
def Run.accTrap (r : Run) (step : Nat) (ea : DWord) : TrapInfo :=
  ⟨stepCause step, r.wordAddr, ea, stepData r.word step⟩

/-- REGION_PC after a commit point that succeeds (R120). -/
def State.commitAt (s : State) (r : Run) (t : TRef) : State :=
  (s.commit t).updThread t fun x => { x with regionPc := r.nextInstr }

/-- A commit point at the current word commits and has to wait: the thread would restart at the word (R180). -/
def State.commitHere (s : State) (r : Run) (t : TRef) : State := s.commitTo t r.wordAddr

/-! ## What a load sees -/

/-- A byte with one store laid over it; reductions are not forwarded (R179). -/
def overByte (a : Nat) (b : Byte) (h : HeldStore) : Byte :=
  match h.op with
  | .write d => if h.key ≤ a ∧ a < h.key + d.length then d.getD (a - h.key) 0 else b
  | _ => b

/-- Bytes at a key with stores laid over them, the oldest first. -/
def overlay (hs : List HeldStore) (k : Nat) (bs : List Byte) : List Byte :=
  (List.range bs.length).map fun i => hs.foldl (overByte (k + i)) (bs.getD i 0)

/-- A store at the place where its bytes are served (R283). -/
def State.routed (s : State) (h : HeldStore) : HeldStore := { h with key := s.route h.key }

/-- Bytes at a key with a core's stores laid over them, each where it is served (R283). -/
def State.laid (s : State) (hs : List HeldStore) (k : Nat) (bs : List Byte) : List Byte :=
  if hs.isEmpty then bs else overlay (hs.map s.routed) (s.route k) bs

/-- The logged stores that a workgroup sees over memory at an address (14 R368, R373). -/
def State.logView (s : State) (wid : Nat) (ea : DWord) : List HeldStore :=
  let w := s.wg wid
  if s.logged w ea then w.log.map fun e => { tid := e.tid, key := e.key, op := e.op, ea := e.ea } else []

/-- Bytes as an agent of a workgroup's core sees them over what its cache or its home gives: the workgroup's log and
the core's pending stores that it sees (R301, R368). Log entry 17, DEDUCED. -/
def State.seen (s : State) (me : Option TRef) (wid : Nat) (ea : DWord) (k : Nat) (base : List Byte) : List Byte :=
  s.laid (s.logView wid ea ++ s.coreSees (s.wg wid).col me) k base

/-- Global bytes as a core's agents see them over their home (R301, R368). Log entry 17, DEDUCED. -/
def State.coreView (s : State) (wid : Nat) (ea : DWord) (k n : Nat) : List Byte :=
  s.seen none wid ea k (s.spanBytes (s.wg wid).col k n)

/-- The bytes of an access as a thread sees them: its own held stores come last (R179, R301).
Log entry 17, DEDUCED. -/
def State.viewOver (s : State) (t : TRef) (ea : DWord) (k : Nat) (base : List Byte) : List Byte :=
  let c := s.crew t.cid
  s.laid (c.storeQ.filter fun h => h.tid == t.tid) k (s.seen (some t) c.wid ea k base)

/-- The same over the bytes at their home. -/
def State.view (s : State) (t : TRef) (ea : DWord) (k n : Nat) : List Byte :=
  s.viewOver t ea k (s.spanBytes (s.crewCol t.cid) k n)

/-! ## Traps -/

/-- A thread leaves a run. -/
def State.leaveRun (s : State) (k : RunKey) (t : TRef) : State :=
  s.updRun k fun r => { r with members := r.members.filter fun x => x != t
                               done := r.done.filter fun x => x != t
                               kept := r.kept.filter fun x => x.1 != t
                               tbWaits := r.tbWaits.filter fun x => x.t != t }

/-- A thread takes a trap: it waits for its crew's handler (R169). -/
def State.raise (s : State) (t : TRef) (ti : TrapInfo) : State :=
  s.updThread t fun x => { x with raised := some ti, jump := none, qout := none }

/-- A pending result lands (R26, R182, R186, R403). `none`: it cannot land yet. -/
def State.landOne (s : State) (t : TRef) (p : Pend) : Option State :=
  let drop (s : State) : State :=
    (s.noteLand t p).updThread t fun x => { x with pend := x.pend.erase p }
  match p.val with
  | .words ws => some ((drop s).updThread t fun x => x.landWords p.dst ws)
  | .ecc sector addr => some ((drop s).dueTrap t ⟨0x45#8, 0, sector, addr⟩)
  | .host ea _ =>
    some { (drop s).dueTrap t ⟨0x48#8, 0, ea, Config.freeDWord 1 s.freeCtr⟩ with freeCtr := s.freeCtr + 1 }
  | .peer ea data => some ((drop s).dueTrap t ⟨0x44#8, 0, ea, data⟩)
  | .element q _ =>
    let id := s.queueId t q
    let s1 := s.landReservations id ((s.threads.map fun x => x.pend.length).foldl (· + ·) 0)
    if (s1.thread t).pend.contains p then none else some s1
  | .draw _ | .arrival .. | .atomic _ => none

/-- Every pending result of a thread that can land, lands, oldest first. -/
def State.landAll (s : State) (t : TRef) : State :=
  (s.thread t).pend.foldl (fun acc p =>
    if (acc.thread t).pend.contains p then (acc.landOne t p).getD acc else acc) s

/-- Where a member of a parked run goes on (R169): at the word it is parked at; past that word once it has completed it;
where the run's end takes it, when only the end of the run is left. -/
def State.runAddr (s : State) (r : Run) (t : TRef) : DWord :=
  if isTrailer r.word then (s.thread t).jump.getD (r.wordAddr + 4)
  else if r.done.contains t then
    if isTrailer (r.wordAt (r.pos + r.wlen)) then (s.thread t).jump.getD r.nextInstr else r.addrAt (r.pos + r.wlen)
  else r.wordAddr

/-- Where a thread that takes no trap resumes (R169): in the run it is parked in, REGION_PC on a
page fault, otherwise its next run's first word. Log entry 114, DESIGN CHOICE. -/
def State.resumeAddr (s : State) (t : TRef) : DWord :=
  match s.runOf t with
  | some r => s.runAddr r t
  | none => match (s.thread t).wait with
    | .fault _ => (s.thread t).regionPc
    | .walker _ _ a .. => if bit a 3 then (s.thread t).pc else (s.thread t).regionPc
    | _ => (s.thread t).pc

/-- The live members of a crew, in ascending thread index. -/
def State.liveMembers (s : State) (cid : Nat) : List Thread :=
  ((s.crewThreads cid).filter fun t => !t.exited).mergeSort fun a b => a.tid ≤ b.tid

/-- What the vector load gives (R170): a handler address, a zero word for any failure, or a page fault. -/
inductive Vector_ where
  | handler (a : DWord)
  | bad
  | pageFault (kind ia : Nat) (ea : DWord)

/-- TRAP_VEC of a launch (R422). -/
def Launch.trapVec (l : Launch) : DWord := dwAt l.record 72

/-- Reads the vector word of a cause, as a load of the crew (R170): of its lowest live member, after what such a load must
come after; none while that waits for a seal. Log entry 79, DEDUCED. -/
def State.readVector (s : State) (cid : Nat) (cause : Byte) : Option (State × Vector_) :=
  let p : DWord := (s.crewLaunch cid).trapVec + BitVec.ofNat 64 (8 * cause.toNat)
  let c := s.crewCol cid
  let me : TRef := ⟨cid, ((s.liveMembers cid).head?.map (·.tid)).getD 0⟩
  if (s.crew cid).vectorFailed ∨ ptrSpace p ≠ 0 then some (s, .bad)
  else match s.check (s.whoCrew cid) p 8 permR with
    | .error _ => some (s, .bad)
    | .ok d => match s.locate d false with
      | .pageFault k ia _ => some (s, .pageFault k ia p)
      | .at s1 k => (s1.settleRead c (some me) false k 8).map fun s2 =>
        if (s2.eccAt (s2.route k) 8).isSome then (s2, .bad)
        else
          let bs := s2.viewOver me p k (s2.spanBytes c k 8)
          let a : DWord := BitVec.ofNat 64 (leNat bs)
          (s2, if a = 0 ∨ fieldNat a 1 0 ≠ 0 then .bad else .handler a)

/-- The core acts: its column is awake, and no gating seal has stopped it (R361). Log entry 72, DEDUCED. -/
def Column.acts (x : Column) : Bool := x.awake && !x.stopIssue

/-- A run goes on to its end when one of its members' crews waits for its handler: it is not parked, or holds its issue
slot while it waits for a miss-status entry (R169, R279). Log entry 114, DESIGN CHOICE. -/
def Run.goesOn (r : Run) : Bool := r.parked.all fun w => w == .miss

/-- A crew's handler can be entered: some member has a trap, no member is in a run that goes on, no pending
result of a member has still to come, no page fault holds the entry, and its core acts (R169, R170, R202,
R361). R169 names the parks on a queue, a barrier, a time wait and an engine counter; a member parked on a full deque, a
ticket, a persist wait, a seal or a gated pool stops at its word too (log entry 114, DESIGN CHOICE). -/
def State.canEnter (s : State) (cid : Nat) : Bool :=
  let ms := s.liveMembers cid
  ms.any (fun t => t.raised.isSome) &&
  (s.col (s.crewCol cid)).acts &&
  s.runs.all (fun r => !r.goesOn || r.members.all fun m => m.cid != cid) &&
  (s.crew cid).vectorWait.isNone &&
  ((s.wg (s.crew cid).wid).fault.isNone) &&
  ms.all fun t => ((s.landAll t.ref).thread t.ref).pend.isEmpty

/-- Trap registers, TRAP_LEVEL, PC and REGION_PC of one stopped member (R170). Elements that it has taken off queues for
the word that it is parked at stay with it until it executes that word again: log entry 93, DESIGN CHOICE.
Log entry 79, DEDUCED. -/
def Thread.enter (t : Thread) (ti : TrapInfo) (handler : DWord) : Thread :=
  { t with trapCause := ti.cause, trapPc := ti.pc, trapAddr := ti.addr, trapData := ti.data
           trapLevel := true, pc := handler, regionPc := handler
           raised := none, wait := .ready, jump := none, b := .replicate 8 .unwritten
           qout := none, entering := some handler }

/-- Runs without members are over; a crew run leaves its g to later lane runs, be it that its last member trapped, faulted
or ended (R29, R100). -/
def State.dropRuns (s : State) : State :=
  { s with
    crews := s.crews.map fun c =>
      if s.runs.any fun r => r.members.isEmpty && r.crewRun == some c.cid then { c with gDone := c.g } else c
    runs := s.runs.filter fun r => !r.members.isEmpty }

/-- Taking a trap, for a crew that can (R169 to R171): pending results land, open regions commit, the trap
registers are written, TRAP_LEVEL becomes 1, and PC and REGION_PC become the handler's address, the word at
TRAP_VEC + 8 × the cause of the lowest-indexed member whose cause is nonzero. A zero or unusable vector
word, or a trap while TRAP_LEVEL is 1, faults the workgroup. While a page fault on the vector word holds the entry, no
result has landed and no region is committed: both happen when the entry is made (log entry 79, DEDUCED). -/
def State.enterTrap (s : State) (cid : Nat) : State :=
  let ms := s.liveMembers cid
  let info (t : Thread) : TrapInfo := t.raised.getD ⟨0, s.resumeAddr t.ref, 0, 0⟩
  let by_ (t : Thread) : FaultBy := { crew := (s.crew cid).idx, tid := t.tid }
  let wid := (s.crew cid).wid
  match ms.find? fun t => t.raised.isSome && t.trapLevel with
  | some t => s.faultWg wid ⟨0xb1#8, (info t).cause, (info t).pc, (info t).addr, by_ t, 0⟩
  | none =>
    match ms.find? fun t => (info t).cause != 0 with
    | none => s
    | some first =>
      let s1 := ms.foldl (fun acc t => (acc.landAll t.ref)) s
      let s2 := ms.foldl (fun acc t => acc.commit t.ref) s1
      match s2.readVector cid (info first).cause with
      | none => s
      | some (_, .bad) => s.faultWg wid ⟨0xb3#8, 0, (info first).pc, 0, by_ first, 0⟩
      | some (_, .pageFault k ia ea) =>
        match s.openFault { s.faultWhoThread first.ref (info first).pc 0x01#8 with who := .vector cid }
            k ia ea with
        | some (id, s1) => s1.updCrew cid fun c => { c with vectorWait := some id }
        | none => s
      | some (s2, .handler h) =>
        let infos := ms.map fun t => (t.ref, info t)
        let s3 := infos.foldl (fun acc p =>
          (acc.updThread p.1 fun x => { x.enter p.2 h with since := (s.col (s.crewCol cid)).clock }).detach
            (.thread p.1)) s2
        let leave (r : Run) : Run := { r with
          members := r.members.filter fun m => m.cid != cid
          done := r.done.filter fun m => m.cid != cid }
        ({ s3.updCrew cid (fun c => { c with vectorFailed := false }) with runs := s3.runs.map leave }).dropRuns

/-- What stands for a word's address while a trap entry, which is a commit point, waits for its seal (R170, R291). -/
def trapSeal : DWord := BitVec.allOnes 64

/-- The handler is entered if it can be; under RIND_MODE 1 the members' commits are sealed first (R169, R170, R291). -/
def State.tryEnter (s : State) (cid : Nat) : State :=
  if ¬ s.canEnter cid then s
  else
    let due := (s.liveMembers cid).filter fun t => s.mustSeal t.ref trapSeal
    if due.isEmpty then s.enterTrap cid
    else due.foldl (fun acc t => acc.sealAt t.ref trapSeal (s.resumeAddr t.ref) none) s

/-- Every crew whose member waits for its handler tries (R169). -/
def State.enterAll (s : State) : State :=
  (s.crews.map fun c => c.cid).foldl (fun acc cid => acc.tryEnter cid) s

/-! ## Threads leave -/

/-- A thread ends (R115): its region commits, its pending results and partial packets are discarded. -/
def State.exitThread (s : State) (t : TRef) : State :=
  let s1 := s.commit t
  let s2 := (List.range 8).foldl (fun acc q => acc.dropPacket t q) s1
  let s3 := s2.updCrew t.cid fun c =>
    { c with leftAt := if (s.thread t).helper then c.leftAt else (s.col (s.crewCol t.cid)).clock }
  s3.updThread t fun x => { x with exited := true, pend := [], jump := none, boundary := none,
                                   raised := none, wait := .ready, qin := [], qout := none,
                                   q := .replicate 8 .unbound }

/-- The helper threads of quads without a live real thread that are at a run boundary end (R11, R115).
Log entry 80, DEDUCED. -/
def State.exitHelpers (s : State) (cid : Nat) : State :=
  let ts := s.crewThreads cid
  (ts.filter fun t => t.helper && !t.exited && (s.runOf t.ref).isNone &&
      !ts.any fun u => !u.helper && !u.exited && u.tid / 4 == t.tid / 4).foldl
    (fun acc t => acc.exitThread t.ref) s

/-- A page fault aborts a thread's region (R121): pending results land, held stores are discarded, and the
thread leaves its run to restart at `restart`. -/
def State.abortRegion (s : State) (k : RunKey) (t : TRef) (restart : DWord) : State :=
  let s1 := s.landAll t
  let s2 := s1.updCrew t.cid fun c => { c with storeQ := c.storeQ.filter fun h => h.tid != t.tid }
  (s2.updThread t fun x => { x with pc := restart, regionPc := restart, jump := none,
                                    b := .replicate 8 .unwritten, qout := none }).leaveRun k t

/-- A boundary trap of a thread between runs is taken (R182, R186, R220, R403): TRAP_PC is its next run. -/
def State.takeBoundary (s : State) (t : TRef) : State :=
  let x := s.thread t
  match x.boundary with
  | none => s
  | some ti =>
    if x.exited ∨ (s.runOf t).isSome ∨ x.raised.isSome then s
    else s.updThread t fun y => { y with boundary := none, raised := some { ti with pc := x.pc } }

/-- A crew's yield request is raised at its run boundary, unless a handler runs (R328, R171, R359). -/
def State.takeYield (s : State) (cid : Nat) : State :=
  let c := s.crew cid
  let ms := s.liveMembers cid
  if c.yieldReq ∧ (s.col (s.crewCol cid)).acts ∧ ms.all (fun t => !t.trapLevel && t.raised.isNone) ∧
      s.runs.all (fun r => !r.goesOn || r.members.all fun m => m.cid != cid) then
    let s1 := ms.foldl (fun acc t => acc.updThread t.ref fun x =>
      { x with raised := some ⟨0xb0#8, s.resumeAddr t.ref, 0, 0⟩ }) s
    s1.updCrew cid fun x => { x with yieldReq := false, yieldAt := some s.timeNs }
  else s

/-! ## One word over the threads of a run -/

/-- What a word does for one thread: it completes, takes a trap, leaves the run (a page fault, an exit), or
parks the run. -/
inductive ThrRes where
  | ok (s : State)
  | trap (s : State) (ti : TrapInfo)
  | leave (s : State)
  | park (s : State) (why : ParkWhy)

/-- Traps that can be taken are taken, once runs without members are over (R169). -/
def State.settle (s : State) : State := s.dropRuns.enterAll

/-- The run moves past the current word. -/
def Run.advance (r : Run) : Run :=
  { r with pos := r.pos + r.wlen, done := [], parked := none, parkedAt := none, kept := [], tbWaits := [], waitsFor := none }

/-- The current word is complete for every thread of the run; `left` says whether some thread left it. -/
def State.finishWord (s : State) (k : RunKey) (left : Bool) : State :=
  let s1 := s.updRun k Run.advance
  if left then s1.settle else s1

/-- The run parks at the current word (R342). -/
def Run.park (r : Run) (clock : Nat) (why : ParkWhy) : Run :=
  { r with parked := some why, parkedAt := r.parkedAt <|> some clock }

/-- The run parks at the current word; `left` as for `finishWord`. -/
def State.parkRun (s : State) (k : RunKey) (left : Bool) (why : ParkWhy) : State :=
  let s1 := s.updRun k fun r => r.park (s.col k.col).clock why
  if left then s1.settle else s1

/-- A thread has finished the current word. -/
def State.markDone (s : State) (k : RunKey) (t : TRef) : State :=
  s.updRun k fun r => { r with done := r.done ++ [t] }

/-- A word executed for the threads of a run in ascending order (R177, R201): `f` for one of them.
Log entry 28, DEDUCED. -/
def laneLoop (f : State → TRef → ThrRes) (k : RunKey) : List TRef → Bool → State → State
  | [], left, s => s.finishWord k left
  | t :: ts, left, s => match f s t with
    | .ok s1 => laneLoop f k ts left (s1.markDone k t)
    | .trap s1 ti => laneLoop f k ts true ((s1.leaveRun k t).raise t ti)
    | .leave s1 => laneLoop f k ts true (s1.leaveRun k t)
    | .park s1 why => s1.parkRun k left why

/-- A word that every thread of a run tries at once, and that parks the run while some thread cannot
complete (R195, R199, R342). Log entry 28, DEDUCED. -/
def laneAll (f : State → TRef → ThrRes) (k : RunKey) : List TRef → Bool → Option ParkWhy → State → State
  | [], left, none, s => s.finishWord k left
  | [], left, some why, s => s.parkRun k left why
  | t :: ts, left, p, s => match f s t with
    | .ok s1 => laneAll f k ts left p (s1.markDone k t)
    | .trap s1 ti => laneAll f k ts true p ((s1.leaveRun k t).raise t ti)
    | .leave s1 => laneAll f k ts true p (s1.leaveRun k t)
    | .park s1 why => laneAll f k ts left (p <|> some why) s1

/-- The order in which a word acts for threads: ascending crew and thread (R201, R241). -/
def refBefore (a b : TRef) : Bool := decide (a.cid < b.cid ∨ (a.cid = b.cid ∧ a.tid ≤ b.tid))
/-- A thread put in its place among others. -/
def refInsert (t : TRef) : List TRef → List TRef
  | [] => [t]
  | u :: us => if refBefore t u then t :: u :: us else u :: refInsert t us

/-- The threads that the current word still has to act for, in ascending order (R177, R201, R241). -/
def Run.todo (r : Run) : List TRef := (r.members.filter fun t => !r.done.contains t).foldr refInsert []

/-- The run whose word the machine executes. -/
def State.current (s : State) : Option Run :=
  match s.turn with
  | .run k => s.run? k
  | _ => none

/-- A word whose meaning acts thread by thread. -/
def State.lanes (s : State) (f : Run → State → TRef → ThrRes) : Host.Outcome State Fault Refusal :=
  match s.current with
  | none => .fault .noRun
  | some r => .next (laneLoop (f r) r.key r.todo false s)

/-- A word that every thread tries at once. -/
def State.lanesAll (s : State) (f : Run → State → TRef → ThrRes) : Host.Outcome State Fault Refusal :=
  match s.current with
  | none => .fault .noRun
  | some r => .next (laneAll (f r) r.key r.todo false none s)

/-- A word whose meaning changes only each thread's own registers: `f` for every thread of the run that it
still acts for. -/
def State.onMembers (s : State) (r : Run) (f : Thread → Thread) : State :=
  { s with threads := s.threads.map fun t => if r.todo.contains t.ref then f t else t
           runs := s.runs.map fun x => if x.key == r.key then x.advance else x }

end Sys2Proof.Machine
end

