-- ==== Sys2Proof/Machine/Operands.lean ====
section
/-!
DEFINITION. The operand forms: lane codes as sources and destinations of 32, 64 and 128 bits (02 R39, R40,
01 R17, R20, R23, R100), mask words (R42), uniform sources (R45), and the queue codes that pop before a word
and push after it (04 R99, 07 R201).
-/

namespace Sys2Proof.Machine

/-- What a lane word sees outside its thread's own registers: its crew, the workgroup's index, the column's
clock, the position of the word (R20). -/
structure LaneEnv where
  g : Vector DWord 256
  crewIdx : Nat
  wgIdx : Word
  clock : Word
  pos : Nat
  mode : Word
  live : DWord
  stochSeed : DWord
  qntSeed : DWord
  qntTensor : Word
  qntBase : DWord

/-- LIVE_MASK of a crew (R21). -/
def State.liveMask (s : State) (cid : Nat) : DWord :=
  BitVec.ofNat 64 (((s.crewThreads cid).map fun t => if t.exited then 0 else 2 ^ t.tid).foldl (· + ·) 0)

/-- HELPER_MASK of a crew (R21). -/
def State.helperMask (s : State) (cid : Nat) : DWord :=
  BitVec.ofNat 64 (((s.crewThreads cid).map fun t => if t.helper then 2 ^ t.tid else 0).foldl (· + ·) 0)

/-- The environment of the current word for a crew's threads: g as the crew run has it, and outside one as the crew's
last completed crew run left it (R29, R100). The linear workgroup index of a grid workgroup whose record carries none
(one that a final join.dec pushed) reads as a task's: log entry 99, DESIGN CHOICE. -/
def State.env (s : State) (r : Run) (cid : Nat) : LaneEnv :=
  let c := s.crew cid
  let w := s.wg c.wid
  { g := if r.crewRun = some cid then c.g else c.gDone, crewIdx := if w.task then 0 else c.idx
    wgIdx := match w.index with
      | some i => BitVec.ofNat 32 i
      | none => 0xffffffff#32
    clock := BitVec.ofNat 32 (s.col w.col).clock, pos := r.pos, mode := c.mode, live := s.liveMask cid
    stochSeed := c.stochSeed, qntSeed := c.qntSeed, qntTensor := c.qntTensor, qntBase := c.qntBase }

/-! ## Registers of one thread -/

/-- A lane register. -/
def Thread.reg (t : Thread) (n : Nat) : Word := t.v[n]?.getD 0
/-- A lane register written. -/
def Thread.setReg (t : Thread) (n : Nat) (w : Word) : Thread := { t with v := t.v.setIfInBounds n w }
/-- A register pair. -/
def Thread.pair (t : Thread) (n : Nat) : DWord := (t.reg (n + 1) ++ t.reg n : BitVec 64)
/-- A register pair written. -/
def Thread.setPair (t : Thread) (n : Nat) (x : DWord) : Thread :=
  (t.setReg n (x.setWidth 32)).setReg (n + 1) (x.extractLsb' 32 32)
/-- A predicate; p7 is true (R17). -/
def Thread.pred (t : Thread) (p : BitVec 3) : Bool := p == 7#3 || t.p[p.toNat]?.getD false
/-- A predicate written; a write to p7 is discarded (R17). -/
def Thread.setPred (t : Thread) (p : BitVec 3) (x : Bool) : Thread :=
  if p = 7#3 then t else { t with p := t.p.setIfInBounds p.toNat x }
/-- A latch. -/
def Thread.latch (t : Thread) (n : Nat) : Latch := t.b[n]?.getD .unwritten
/-- A latch written. -/
def Thread.setLatch (t : Thread) (n : Nat) (x : Latch) : Thread := { t with b := t.b.setIfInBounds n x }
/-- The 64-bit value of a latch (R40). Log entry 95, DEDUCED. -/
def Latch.val64 : Latch → DWord
  | .unwritten => 0
  | .lane w => w.setWidth 64
  | .uniform v => v

/-- A latch code. -/
def isLatchCode (c : Code) : Bool := decide (96 ≤ c.toNat ∧ c.toNat < 104)
/-- A queue code. -/
def isQueueCode (c : Code) : Bool := decide (104 ≤ c.toNat ∧ c.toNat < 112)
/-- The queue register of a queue code. -/
def queueOf (c : Code) : BitVec 3 := BitVec.ofNat 3 (c.toNat - 104)

/-! ## Sources -/

/-- The special values of R20. -/
def LaneEnv.special (e : LaneEnv) (t : Thread) (c : Code) : Word :=
  match c.toNat with
  | 121 => BitVec.ofNat 32 t.tid
  | 122 => BitVec.ofNat 32 (t.tid % 4)
  | 123 => BitVec.ofNat 32 e.crewIdx
  | 124 => e.wgIdx
  | 125 => e.clock
  | 126 => BitVec.ofNat 32 e.pos
  | _ => 0

/-- The element popped for a queue code (R99). -/
def Thread.popped (t : Thread) (c : Code) : Word := ((t.qin.find? fun p => p.2.1 == c).map (·.2.2)).getD 0

/-- A 32-bit source (R39). -/
def LaneEnv.read32 (e : LaneEnv) (t : Thread) (c : Code) : Word :=
  if c.toNat < 96 then t.reg c.toNat
  else if c.toNat < 104 then (t.latch (c.toNat - 96)).val64.setWidth 32
  else if c.toNat < 112 then t.popped c
  else if c.toNat < 120 then (e.g[c.toNat - 112]?.getD 0).setWidth 32
  else e.special t c

/-- A 64-bit source (R40). -/
def LaneEnv.read64 (e : LaneEnv) (t : Thread) (c : Code) : DWord :=
  if c.toNat < 96 then t.pair c.toNat
  else if c.toNat < 104 then (t.latch (c.toNat - 96)).val64
  else if c.toNat < 112 then 0
  else if c.toNat < 120 then e.g[c.toNat - 112]?.getD 0
  else (e.special t c).setWidth 64

/-- A 128-bit source, lowest register least significant (R40). -/
def LaneEnv.read128 (_ : LaneEnv) (t : Thread) (c : Code) : QWord :=
  if c.toNat < 96 then (t.pair (c.toNat + 2) ++ t.pair c.toNat : BitVec 128) else 0

/-- A 32-bit b operand (R41). -/
def LaneEnv.readB (e : LaneEnv) (t : Thread) : BSrc → Word
  | .code c => e.read32 t c
  | .lit w => w

/-- A 64-bit b operand; a literal is sign-extended (R40). -/
def LaneEnv.readB64 (e : LaneEnv) (t : Thread) : BSrc → DWord
  | .code c => e.read64 t c
  | .lit w => w.signExtend 64

/-- The member mask of a mask code (R42). -/
def LaneEnv.mask (e : LaneEnv) (t : Thread) (m : Code) : DWord :=
  if m = 120#7 then e.live else e.read64 t m

/-! ## Destinations -/

/-- The latch of the word's position takes a lane result (R23). -/
def Thread.posLatch (t : Thread) (e : LaneEnv) (w : Word) : Thread := t.setLatch (e.pos % 8) (.lane w)

/-- A 32-bit result written (R17, R23, R39). -/
def Thread.write32 (t : Thread) (e : LaneEnv) (d : Code) (w : Word) : Thread :=
  let t1 :=
    if d.toNat < 96 then t.setReg d.toNat w
    else if d.toNat < 104 then t.setLatch (d.toNat - 96) (.lane w)
    else if d.toNat < 112 then { t with qout := some (d, w) }
    else t
  t1.posLatch e w

/-- A 64-bit result written; a latch takes its low half (R23, R40). -/
def Thread.write64 (t : Thread) (e : LaneEnv) (d : Code) (x : DWord) : Thread :=
  let t1 :=
    if d.toNat < 96 then t.setPair d.toNat x
    else if d.toNat < 104 then t.setLatch (d.toNat - 96) (.lane (x.setWidth 32))
    else t
  t1.posLatch e (x.setWidth 32)

/-- A 128-bit result written (R23, R40). -/
def Thread.write128 (t : Thread) (e : LaneEnv) (d : Code) (x : QWord) : Thread :=
  let t1 := if d.toNat < 96 then
      (t.setPair d.toNat (x.setWidth 64)).setPair (d.toNat + 2) (x.extractLsb' 64 64) else t
  t1.posLatch e (x.setWidth 32)

/-- A predicate result written (R23). -/
def Thread.writePred (t : Thread) (e : LaneEnv) (p : BitVec 3) (x : Bool) : Thread :=
  (t.setPred p x).posLatch e (BitVec.ofNat 32 (b2n x))

/-- No register result: the latch takes 0 (R23). -/
def Thread.writeNone (t : Thread) (e : LaneEnv) : Thread := t.posLatch e 0

/-- A long-latency result is pending: its registers take it when it lands (R23, R26, R450). -/
def Thread.writeLong (t : Thread) (e : LaneEnv) (d : Code) (n : Nat) (v : PendVal) : Thread :=
  let p : Pend := ⟨d, n, v⟩
  ({ t with pend := t.pend ++ [p] }).posLatch e 0

/-! ## The sampling unit's own writes -/

/-- Whether the unit can write the last fields of a sampling context now: it can, it waits for a pool, or a page
fault holds it (R253, R349, R362). A write that fails its checks is dropped. -/
inductive PokeOut where
  | ok
  | wait (s : State)
  | fault (kind ia : Nat) (ea : DWord)

/-- RESULT and RECEIVED of a context as the unit would write them: bytes 56 to 63. -/
def State.smpCan (s : State) (a : CtxRef) : PokeOut :=
  let ea := ptrAdd a.ptr 56
  match s.check (s.whoWg a.wid) ea 8 permW false with
  | .error _ => .ok
  | .ok d =>
    if s.engWriteFails a.wid ea then .ok
    else if s.poolDown d then .wait (s.wakePool d)
    else match s.locate d true with
      | .at .. => .ok
      | .pageFault k ia _ => .fault k ia ea

/-- A word stored into a sampling context by the unit (R253): its field offset and value. -/
def State.smpPoke (s : State) (a : CtxRef) (off v : Nat) : State :=
  let ea := ptrAdd a.ptr off
  match s.check (s.whoWg a.wid) ea 4 permW false with
  | .error _ => s
  | .ok d =>
    if s.engWriteFails a.wid ea then s
    else match s.locate d true with
      | .at s1 k => s1.put k (toLe 4 v)
      | .pageFault .. => s

/-- What a context can do without reading memory, up to `n` pieces of work, each done where its fields can be written,
RECEIVED with it; otherwise the unit waits, on a page fault under the context's operation number (R253, R255, R349). -/
def smpPumps (key : Nat) : Nat → State → State
  | 0, s => s
  | n + 1, s => match (s.smpCtx? key).bind fun c => c.act.map fun x => (c, x) with
    | none => s
    | some (c, a, c1) =>
      let go (s : State) : State :=
        smpPumps key n (((s.updSmp key fun _ => c1).dropEng c.op).smpPoke a 60 c1.logits.length)
      if ¬ s.engFree c.op then s
      else if (s.eng c.op).failed.isSome then go s
      else match s.smpCan a with
        | .wait s1 => s1
        | .fault k ia ea => s.engFault c.op a.wid k ia ea 2#8
        | .ok => go s

/-- All that a context can do without reading memory. -/
def State.smpPump (s : State) (key : Nat) : State :=
  smpPumps key (((s.smpCtx? key).map fun c => c.work.length).getD 0) s

/-- A sampling context updated, and what it can do then (R253, R255). -/
def State.smpDo (s : State) (key : Nat) (f : SmpCtx → SmpCtx) : State := (s.updSmp key f).smpPump key

/-! ## Pushes -/

/-- A push (R201): parking while the queue is full. A helper thread's push is suppressed before any check
of the queue's contents (R11, R201). Log entry 80, DEDUCED. -/
def State.pushWord (s : State) (t : TRef) (q : BitVec 3) (addr : DWord) (w : Word) : QOut :=
  match (s.thread t).bind q with
  | .unbound => if (s.thread t).helper then .ok s 0 else .trap 0x94#8 0#8 none
  | .mxfeed x => if (s.thread t).helper then .ok s 0 else s.feedWord t q x addr w
  | .ringOut p => if (s.thread t).helper then .ok s 0 else s.ringPush (s.whoCrew t.cid) p w
  | .smp p =>
    if (s.thread t).helper then .ok s 0
    else
      let key := s.smpKey t.cid p
      match s.smpCtx? key with
      | none => .trap 0x77#8 7#8 (some p)
      | some _ => .ok (s.smpDo key fun c => { c with work := c.work ++ [.value ⟨(s.crew t.cid).wid, p⟩ w] }) 0
  | .ray _ => if (s.thread t).helper then .ok s 0 else .trap 0x78#8 1#8 none
  | _ => if (s.thread t).helper then .ok s 0 else .trap 0x95#8 0#8 none

/-! ## Queue codes of a word -/

/-- The queue codes among some sources, each once, in order (R99). -/
def queueCodes (cs : List Code) : List Code :=
  (cs.filter isQueueCode).foldl (fun acc c => if acc.contains c then acc else acc ++ [c]) []
/-- The code of a b operand; a literal is no queue code. -/
def bCodes : BSrc → List Code
  | .code c => [c]
  | .lit _ => []

/-- A page fault of an access of a commit point: the open region commits, the access has no effect, and the thread
restarts at the word (R180). -/
def State.commitFault (s : State) (r : Run) (t : TRef) (kind ia : Nat) (ea : DWord) (access : Byte) : State :=
  let s1 := s.commitHere r t
  (s1.abortRegion r.key t r.wordAddr).threadFault t (s1.faultWhoThread t r.wordAddr access) kind ia ea .fault

/-- A page fault of any other access: the open region aborts, and the thread restarts at REGION_PC
(R121). -/
def State.accessFault (s : State) (r : Run) (t : TRef) (kind ia : Nat) (ea : DWord) (access : Byte) : State :=
  (s.abortRegion r.key t (s.thread t).regionPc).threadFault t
    (s.faultWhoThread t r.wordAddr access) kind ia ea .fault

/-- What a commit point does that commits its thread's region although its own access cannot be made yet: under
RIND_MODE 1 a region that holds stores is sealed first (R180, R291). -/
def State.sealedFirst (s : State) (r : Run) (t : TRef) (k : ThrRes) : ThrRes :=
  if s.mustSeal t r.wordAddr ∧ s.holdsStores t then .park (s.sealAt t r.wordAddr r.wordAddr none) .seal else k

/-- A push or a pop at a ring that waits clears REQ of the ring's column, while that is gated (R201, R362). -/
def State.wakeRing (s : State) (t : TRef) (q : BitVec 3) : State :=
  match (s.thread t).bind q with
  | .ringIn p | .ringOut p => match s.check (s.whoCrew t.cid) p 16 permR with
    | .ok d => s.wakePool d
    | .error _ => s
  | _ => s

/-- What an unanswered push or pop of a queue register does to the thread (R201). -/
def queueRes (s : State) (r : Run) (t : TRef) (q : BitVec 3) : QOut → ThrRes
  | .ok s1 _ => .ok s1
  | .wait => .park ((s.commitHere r t).wakeRing t q) .queue
  | .trap c sub a => .trap s (r.trap c sub a)
  | .acc st ea => .trap s (r.accTrap st ea)
  | .fault k ia _ ea => .leave (s.commitFault r t k ia ea 0x03#8)

/-- The source queues popped for a thread, a before b (R99, R201). An element stays with the thread until the word at
`r.wordAddr` completes for it, be the thread parked, stopped for its crew's handler or restarted there meanwhile, so
that no pop is lost and none repeated (log entry 93, DESIGN CHOICE); `s0` is the state before the first of them, in
which a word that traps leaves its queues. The state, or how the thread leaves the word. -/
def popAll (s0 : State) (r : Run) (t : TRef) : List Code → State → State × Option ThrRes
  | [], s => (s, none)
  | c :: cs, s =>
    let mine (p : DWord × Code × Word) : Bool := p.1 == r.wordAddr && p.2.1 == c
    match (s.thread t).qin.find? mine with
    | some p => popAll s0 r t cs (s.updThread t fun x => { x with qin := p :: x.qin.filter fun y => !mine y })
    | none => match (s.commitHere r t).popWord t (queueOf c) with
      | .ok s1 w => popAll s0 r t cs (s1.updThread t fun x => { x with qin := (r.wordAddr, c, w) :: x.qin })
      | .wait => (s, some (queueRes s r t (queueOf c) .wait))
      | q => (s, some (queueRes s0 r t (queueOf c) q))

/-- A word with queue codes among its sources: they are popped first, and the elements are used up when the word is
complete for the thread; a trap leaves the queues as they were (R51, R99, R201). Log entry 93, DESIGN CHOICE. -/
def popFirst (srcs : List Code) (f : Run → State → TRef → ThrRes) (r : Run) (s : State) (t : TRef) : ThrRes :=
  match queueCodes srcs with
  | [] => f r s t
  | cs => match popAll s r t cs s with
    | (_, some res) => res
    | (s1, none) => match f r s1 t with
      | .ok s2 => .ok (s2.updThread t fun x => { x with
          qin := x.qin.filter fun p => p.1 != r.wordAddr, regionPc := r.nextInstr })
      | .trap _ ti => .trap s ti
      | res => res

/-- A push commits, and what precedes it is performed at the scope of its ring; none while that waits for a seal (R201,
R203, R298). -/
def State.pushCommit (s : State) (r : Run) (t : TRef) (q : BitVec 3) : Option State :=
  let scope := match (s.thread t).bind q with
    | .ringOut p => if ptrSpace p = 2 then 3 else 1
    | _ => 1
  let s1 := s.commitHere r t
  if (s.thread t).helper then some s1 else s1.performed (s.crewCol t.cid) t scope

/-- The element that a destination queue code takes is pushed (R201): committed first. While the push waits nothing of
the word has happened, as `s` says. Log entry 93, DESIGN CHOICE. -/
def pushLast (r : Run) (s : State) (t : TRef) (s1 : State) : ThrRes :=
  match (s1.thread t).qout with
  | none => .ok s1
  | some (c, w) => match s1.pushCommit r t (queueOf c) with
    | none => .park (s.commitHere r t) .seal
    | some s2 => match s2.pushWord t (queueOf c) r.wordAddr w with
      | .ok s3 _ => .ok (s3.updThread t fun x => { x with
          qout := none, regionPc := r.nextInstr })
      | q => queueRes s r t (queueOf c) q

/-- A word for one thread that may push its result to a destination queue (R201). When the push has to wait,
nothing of the word has happened. Log entry 93, DESIGN CHOICE. -/
def thenPush (f : Run → State → TRef → ThrRes) (r : Run) (s : State) (t : TRef) : ThrRes :=
  match f r s t with
  | .ok s1 => pushLast r s t s1
  | res => res

/-- A register word for one thread, with its queue codes (R201). -/
def aluThread (srcs : List Code) (f : LaneEnv → Thread → Thread) : Run → State → TRef → ThrRes :=
  popFirst srcs fun r s t => pushLast r s t (s.updThread t (f (s.env r t.cid)))

/-- A lane word that computes on each thread's registers: `srcs` and `d` are its operand codes, `f` what it
writes. Without queue codes no thread can trap or park. -/
def State.alu (s : State) (srcs : List Code) (d : Code) (f : LaneEnv → Thread → Thread) :
    Host.Outcome State Fault Refusal :=
  match s.current with
  | none => .fault .noRun
  | some r =>
    if (d :: srcs).any isQueueCode then .next (laneLoop (aluThread srcs f r) r.key r.todo false s)
    else .next (s.onMembers r fun t => f (s.env r t.cid) t)

/-! ## Uniform sources -/

/-- A g register of a bank. -/
def gReg (g : Vector DWord 256) (n : Nat) : DWord := g[n]?.getD 0

end Sys2Proof.Machine
end

