-- ==== Sys2Proof/Machine/Flags.lean ====
section
/-!
DEFINITION. The predicates: integer and float conditions (02 R43, 04 R109, 05 R129), predicate logic (R110);
and how a lane instruction rounds: MODE (01 R21, 03 R85), the rounding index (02 R56, R83) and the keyed
draws (R87).
-/

namespace Sys2Proof.Machine

/-- An integer condition (R43) of a comparison's two answers. -/
def intCond (cc : BitVec 4) (eq lt : Bool) : Bool :=
  match cc.toNat with
  | 0 => eq
  | 1 => !eq
  | 2 => lt
  | 3 => lt || eq
  | 4 => !(lt || eq)
  | 5 => !lt
  | _ => false

/-- A float condition (R43). -/
def floatCond (cc : BitVec 4) (x y : Ex) : Bool :=
  let un := x.isNan || y.isNan
  let ord (c : Nat) : Bool :=
    match c with
    | 0 => x.eq y
    | 1 => !x.eq y
    | 2 => x.lt y
    | 3 => x.le y
    | 4 => y.lt x
    | _ => y.le x
  let c := cc.toNat
  if c < 6 then !un && ord c
  else if c = 6 then !un
  else if c = 7 then un
  else un || ord (c - 8)

/-- Bit ((pa << 1) | pb) of a table (R110). -/
def plutBit (table : BitVec 4) (pa pb : Bool) : Bool := table.getLsbD (2 * b2n pa + b2n pb)

/-! ## MODE -/

/-- MODE.DAZ (R21). -/
def LaneEnv.daz (e : LaneEnv) : Bool := bit e.mode 4
/-- MODE.FTZ (R21). -/
def LaneEnv.ftz (e : LaneEnv) : Bool := bit e.mode 3
/-- MODE.ROUND (R21). -/
def LaneEnv.round (e : LaneEnv) : Nat := fieldNat e.mode 2 0

/-- The draw of a thread's `k`-th element (R87, second row). -/
def LaneEnv.draw2 (e : LaneEnv) (t : Thread) (k : Nat) : Nat :=
  stochDraw e.stochSeed (t.stochCount + BitVec.ofNat 32 k) (BitVec.ofNat 32 (64 * e.crewIdx + t.tid)) e.wgIdx
    0x00000002#32

/-- The rounding index that applies: 0 takes MODE.ROUND (R83). -/
def LaneEnv.index (e : LaneEnv) (r : BitVec 3) : Nat := if r = 0#3 then e.round + 1 else r.toNat

/-- The rounding of a thread's `k`-th element under a rounding index (R83, R87). -/
def LaneEnv.rnd (e : LaneEnv) (t : Thread) (r : BitVec 3) (k : Nat) : Rnd :=
  match e.index r with
  | 1 => .rn | 2 => .rz | 3 => .rm | 4 => .rp | 5 => .ra
  | _ => .rs (e.draw2 t k)

/-- The rounding is toward −∞ (R82). -/
def Rnd.down : Rnd → Bool
  | .rm => true
  | _ => false

/-- STOCH_COUNT after `n` elements rounded under a rounding index (R87). -/
def Thread.countStoch (t : Thread) (e : LaneEnv) (r : BitVec 3) (n : Nat) : Thread :=
  if e.index r = 6 then { t with stochCount := t.stochCount + BitVec.ofNat 32 n } else t

/-- A source element's value, with DAZ (R85). -/
def LaneEnv.val (e : LaneEnv) (f : Fmt) (c : Nat) : Ex := f.value (f.flush e.daz c)
/-- A result element's code, with FTZ (R85). -/
def LaneEnv.out (e : LaneEnv) (f : Fmt) (c : Nat) : Nat := f.flush e.ftz c

/-- The format of an element type (R126). -/
def fmtOf : FTy → Fmt
  | .f32 => fp32 | .f16x2 => fp16 | .bf16x2 => bf16
/-- The number of elements in a 32-bit operand (R126). -/
def elems : FTy → Nat
  | .f32 => 1 | _ => 2
/-- Element `k` of a packed operand (R73). -/
def elem (f : Fmt) (w : Word) (k : Nat) : Nat := w.toNat / 2 ^ (f.width * k) % 2 ^ f.width
/-- Element codes packed into a word, the lowest first (R73). -/
def pack (f : Fmt) : List Nat → Nat
  | [] => 0
  | x :: xs => x % 2 ^ f.width + 2 ^ f.width * pack f xs

end Sys2Proof.Machine
end

