-- ==== Sys2Proof/Machine/Fetch.lean ====
section
/-!
DEFINITION. Before a word executes: the registers that a word names (02 R50, R450), the instruction cache
and the fetch of a run (10 R278, 13 R348), decode tables (02 R61), the checks of R53 in order, the trailer
and the end of a run (01 R25, R26, 02 R49), and the sequencer's fetch (02 R47, 08 R210).
-/

namespace Sys2Proof

/-! ## Registers that a word names -/

/-- The field of a b operand, `n` registers wide. -/
def BSrc.field (n : Nat) : BSrc → List (Code × Nat)
  | .code c => [(c, n)]
  | .lit _ => []

/-- The operand fields of a lane word that may name lane registers, with how many each names, in the order
of `Instr.operandErr` (R13, R39, R40). -/
def Instr.fields : Instr → List (Code × Nat)
  | .add d a b | .sub d a b | .mulLo d a b | .mulHiI32 d a b | .mulHiN32 d a b
  | .shl d a b | .shrN d a b | .shrI d a b | .rot d a b
  | .and d a b | .or d a b | .xor d a b | .andn d a b
  | .minI32 d a b | .maxI32 d a b | .minN32 d a b | .maxN32 d a b
  | .bfeN32 d a b | .bfeI32 d a b | .sext d a b | .zext d a b | .sel _ d a b
  | .floatAdd _ _ d a b | .floatSub _ _ d a b | .floatMul _ _ d a b
  | .floatMin _ d a b | .floatMax _ d a b | .minnum _ d a b | .maxnum _ d a b
  | .cscClip d a b | .dqnt _ d a b
  | .mad d a b | .bfi d a b | .dp4I8 d a b | .dp4N8 d a b | .dp4I8n8 d a b
  | .fma _ _ d a b | .dot2Bf16x2 d a b | .dot2F16x2 d a b | .qnt _ _ _ d a b
  | .barArrive d a b => (d, 1) :: (a, 1) :: b.field 1
  | .cvt k _ d a b => (d, 1) :: (a, 1) :: if cvtReadsB k then b.field 1 else []
  | .addImm d a _ | .subImm d a _ | .mulLoImm d a _ | .mulHiI32Imm d a _ | .mulHiN32Imm d a _
  | .shlImm d a _ | .shrNImm d a _ | .shrIImm d a _ | .rotImm d a _
  | .andImm d a _ | .orImm d a _ | .xorImm d a _ | .andnImm d a _
  | .minI32Imm d a _ | .maxI32Imm d a _ | .minN32Imm d a _ | .maxN32Imm d a _
  | .sextImm d a _ | .zextImm d a _ | .madImm d a _
  | .absI32 d a | .negI32 d a | .clz d a | .popc d a | .brev d a | .mov d a
  | .absF32 d a | .negF32 d a | .absPacked d a | .negPacked d a | .rndF32 _ d a
  | .rcp d a | .rsqrt d a | .sqrt d a | .exp2 d a | .log2 d a | .sinpi d a | .cospi d a
  | .tanh d a | .sigm d a | .qpush d a | .qpop d a | .qstat d a => [(d, 1), (a, 1)]
  | .add64 d a b | .sub64 d a b => (d, 2) :: (a, 2) :: b.field 2
  | .cscM3 d a b => (d, 1) :: (a, 2) :: b.field 2
  | .add64Imm d a _ | .sub64Imm d a _ => [(d, 2), (a, 2)]
  | .lea _ d a b | .leaI _ d a b => (d, 2) :: (a, 2) :: b.field 1
  | .movl d _ | .movi d _ | .ticketTake d => [(d, 1)]
  | .cmpInteger t _ _ a b => if t.toNat < 2 then (a, 1) :: b.field 1 else (a, 2) :: b.field 2
  | .cmpF32 _ _ a b | .barWait a b => (a, 1) :: b.field 1
  | .jmp a | .callRegister a | .smpCfg a => [(a, 2)]
  | .reorder a => [(a, 1)]
  | .pxunpk _ d a b => (d, 2) :: (a, 4) :: b.field 1
  | .pxpack _ d a b => (d, 4) :: (a, 2) :: b.field 1
  | .xlPick d a b m | .xlBack d a b m | .xlFwd d a b m | .xlFlip d a b m | .quadBcast d a b m =>
    (d, 1) :: (a, 1) :: (b.field 1 ++ [(m, 2)])
  | .quadSwapH d a m | .quadSwapV d a m | .quadSwapD d a m | .xlFold _ d a m
  | .scanIncl _ d a m | .scanExcl _ d a m => [(d, 1), (a, 1), (m, 2)]
  | .xlSame d a m => [(d, 2), (a, 1), (m, 2)]
  | .xlMask d _ m => [(d, 2), (m, 2)]
  | .xlAny _ _ m | .xlAll _ _ m => [(m, 2)]
  | .scanSegIncl _ d a b m | .scanSegExcl _ d a b m => (d, 1) :: (a, 1) :: (b.field 2 ++ [(m, 2)])
  | .ld z _ d a _ => [(d, (ldSize z + 3) / 4), (a, 2)]
  | .st z _ s a _ => [(s, (stSize z + 3) / 4), (a, 2)]
  | .ldRelaxed w d a _ | .stRelaxed w d a _ | .ldAcq _ w d a _ | .stRel _ w d a _ =>
    [(d, if w then 2 else 1), (a, 2)]
  | .atom k d a _ => [(d, atomSize k / 4), (a, 2)]
  | .atomCasB32 d a _ => [(d, 2), (a, 2)]
  | .atomCasB64 d a _ => [(d, 4), (a, 2)]
  | .red k s a _ => [(s, redSize k / 4), (a, 2)]
  | .stashMap d a b | .xeCopy d a b | .xeRagged d a b | .xeBtab d a b | .xeGather d a b | .xeCbx d a b
  | .xeFill d a b => (d, 1) :: (a, 2) :: b.field 2
  | .stashUnmap b | .stashFlush b | .rtCont b => b.field 1
  | .prefetch a b | .tbInit a b | .tbExpect a b | .xeLut a b | .collReady a b => (a, 2) :: b.field 1
  | .tbArrive d a b | .tbWait d a b | .tbTest d a b | .collWait d a b | .ropeArrive d a b =>
    (d, 1) :: (a, 2) :: b.field 1
  | .qbind _ a b => (a, 2) :: b.field 1
  | .qpushr _ a b => (a, 1) :: b.field 1
  | .rtTrace _ a b => (a, 8) :: b.field 1
  | .srd d a b => (d, 2) :: (a, 1) :: b.field 1
  | .smpPush a b => (a, 2) :: b.field 2
  | .smpDraw d a => [(d, 1), (a, 2)]
  | .rtPop d _ => [(d, 4)]
  | .ropeStatus d a b => (d, 2) :: (a, 2) :: b.field 1
  | _ => []

/-- The lane registers that a word names: first and count (R13). -/
def Instr.laneRegs (i : Instr) : List (Nat × Nat) :=
  (i.fields.filter fun p => decide (p.1.toNat < 96)).map fun p => (p.1.toNat, p.2)

/-- The call-stack registers that a word reads or writes without naming them (R113). Log entry 15, DEDUCED. -/
def Instr.usesLr : Instr → Bool
  | .call .. | .callRegister _ | .ret => true
  | _ => false

/-- The destination of a long-latency instruction (R450). -/
def Instr.longDst : Instr → Option (Code × Nat)
  | .ld z _ d _ _ => some (d, (ldSize z + 3) / 4)
  | .ldRelaxed w d _ _ | .ldAcq _ w d _ _ => some (d, if w then 2 else 1)
  | .atom k d _ _ => some (d, atomSize k / 4)
  | .atomCasB32 d _ _ | .srd d _ _ | .ropeStatus d _ _ => some (d, 2)
  | .atomCasB64 d _ _ | .rtPop d _ => some (d, 4)
  | .rcp d _ | .rsqrt d _ | .sqrt d _ | .exp2 d _ | .log2 d _ | .sinpi d _ | .cospi d _ | .tanh d _
  | .sigm d _ | .qpop d _ | .stashMap d _ _ | .barArrive d _ _ | .tbArrive d _ _ | .smpDraw d _ =>
    some (d, 1)
  | _ => none

/-- A lane or uniform word that is a commit point and numbers no access of its own (R30, R180, R201, R240, R291). -/
def Instr.commits : Instr → Bool
  | .region | .exit | .fence _ | .pfenceRind | .pfenceRindWait | .pfenceKeep | .pfenceKeepWait | .barArrive ..
  | .tbInit .. | .tbArrive .. | .tbExpect .. | .ticketTake _ | .qpush .. | .qpushr .. | .qpop .. | .xeCopy ..
  | .xeRagged .. | .xeBtab .. | .xeGather .. | .xeCbx .. | .xeLut .. | .xeFill .. | .smpCfg _ | .smpPush ..
  | .smpDraw .. | .rtTrace .. | .rtCont _ | .rtPop .. | .collReady .. | .ropeArrive .. | .uniformLd ..
  | .uniformLdAcqDev .. | .spawn _ | .yield _ | .rte | .uniformExit => true
  | .qbind _ _ (.code b) => queue b
  | .qbind _ _ (.lit _) => false
  | .qstat d _ => queue d
  | i => i.fields.any fun p => queue p.1
where
  /-- A queue code (R39). -/
  queue (c : Code) : Bool := decide (104 ≤ c.toNat ∧ c.toNat < 112)

/-- The source of a uniform word (R45). -/
def Instr.uSrc : Instr → Option USrc
  | .uniformAdd _ b _ | .uniformSub _ b _ | .uniformMulLo _ b _ | .uniformMulHiI64 _ b _
  | .uniformMulHiN64 _ b _ | .uniformShl _ b _ | .uniformShrN _ b _ | .uniformShrI _ b _
  | .uniformRot _ b _ | .uniformAnd _ b _ | .uniformOr _ b _ | .uniformXor _ b _ | .uniformAndn _ b _
  | .uniformMinI64 _ b _ | .uniformMaxI64 _ b _ | .uniformMinN64 _ b _ | .uniformMaxN64 _ b _
  | .uniformClz _ b _ | .uniformPopc _ b _ | .uniformBrev _ b _ | .uniformBfeN64 _ b _
  | .uniformBfeI64 _ b _ | .uniformBfi _ b _ | .uniformMov _ b _ | .setEq _ b _ | .setNe _ b _
  | .setLtI64 _ b _ | .setLeI64 _ b _ | .setGtI64 _ b _ | .setGeI64 _ b _ | .setLtN64 _ b _
  | .setLeN64 _ b _ | .setGtN64 _ b _ | .setGeN64 _ b _ | .uniformJmp b _ | .uniformRet b _
  | .mts _ b _ | .waitTime b _ | .spawn b | .joinDec _ b _ | .yield b | .uniformLd _ _ b _
  | .uniformSt _ _ b | .uniformLdAcqDev _ b _ | .uniformStRelDev _ b => some b
  | _ => none

end Sys2Proof

namespace Sys2Proof.Machine

/-! ## Decode tables -/

/-- DECODE of a launch (R422). -/
def Launch.decodeNum (l : Launch) : Nat := (l.record.getD 114 0).toNat

/-- The table-0 set and opcode that a launch's table maps a set and opcode to (R61). -/
def State.mapKey (s : State) (l : Launch) (key : Nat) : Option Nat :=
  if l.decodeNum = 0 then some key
  else match (s.ctx? l.ctx).bind fun c => c.tables.find? fun t => t.num == l.decodeNum with
    | none => none
    | some t => ((if key < 1024 then t.lane else t.uniform).getD (key % 1024) none).map fun o =>
        key / 1024 * 1024 + o.toNat

/-- The row of a word in a launch's stream (R61). Log entry 14, DEDUCED. -/
def State.rowOf (s : State) (l : Launch) (w : Word) : Option (Nat × OpRow) :=
  (s.mapKey l (setOpOf w)).bind fun k => (findRow k).map fun r => (k, r)

/-! ## The words of a run -/

/-- The lines of the instruction cache (R278). Log entry 3, DEDUCED. -/
def icacheLines : Nat := 1024

/-- What a fetch gives: the 25 words at a PC, a failed check, an uncorrectable error, a page fault, or a
line that is not in the cache yet (R348). -/
inductive Fetch where
  | words (ws : List Word)
  | rights (step : Nat)
  | ecc (sector : DWord)
  | pageFault (kind ia : Nat)
  | missing (ctx ia : Nat)

/-- The IA of a PC, checked for an instruction fetch (R348). Log entry 3, DEDUCED. -/
def State.fetchIa (s : State) (ctx : Nat) (pc : DWord) : Except Nat Nat :=
  if ptrSpace pc ≠ 0 then .error 2
  else match s.ctx? ctx with
    | none => .error 4
    | some c => c.check pc 4 permX

/-- The word at an IA in the cached lines. -/
def icacheWord (ic : List (Nat × List Byte)) (ia : Nat) : Option Word :=
  (ic.find? fun l => l.1 == ia / 128).map fun l => wAt l.2 (ia % 128)

/-- How many extension words a word takes in a launch's stream (R41, R45). -/
def State.extOf (s : State) (l : Launch) (w : Word) : Nat :=
  match s.rowOf l w with
  | some (_, r) => r.ext w
  | none => 0

/-- The words from an IA, up to and with the trailer, at most `n`; `skip` extension words come first
(R48). -/
def State.runWords (s : State) (l : Launch) (ic : List (Nat × List Byte)) :
    Nat → Nat → Nat → Except Nat (List Word)
  | 0, _, _ => .ok []
  | n + 1, skip, ia =>
    match icacheWord ic ia with
    | none => .error ia
    | some w =>
      if skip = 0 ∧ isTrailer w then .ok [w]
      else match s.runWords l ic n (if skip = 0 then s.extOf l w else skip - 1) (ia + 4) with
        | .ok ws => .ok (w :: ws)
        | .error e => .error e

/-- The next run of a thread at a PC, from the instruction cache of its core (R341, R348). Log entry 3, DEDUCED. -/
def State.fetchRun (s : State) (l : Launch) (c : Nat) (pc : DWord) : Fetch :=
  match s.fetchIa l.ctx pc with
  | .error st => .rights st
  | .ok ia => match s.runWords l (s.col c).icache 25 0 ia with
    | .ok ws => .words ws
    | .error a => .missing l.ctx a

/-- The line of an IA taken into the instruction cache of a core, each code word of it corrected (R295); `pc` is the pointer of that IA, for which a page fault
is recorded (R278, R348, R350). Log entry 3, DEDUCED. -/
def State.fillLine (s : State) (c : Nat) (pc : DWord) (ia : Nat) : Fetch × State :=
  let base := ia / 128 * 128
  if s.poolDown (.global 0 base) then (.missing (ia / 2 ^ 52 % 256) ia, s.wakePool (.global 0 base))
  else match s.translate base 0 false with
  | .pageFault k _ _ => (.pageFault k ia, s)
  | .at s0 k =>
    let s1 := (List.range 8).foldl (fun acc i => acc.dcFill (k + 16 * i) (homeSlice base)) s0
    match s1.eccAt k 128 with
    | some sec => (.ecc (bits pc 63 52 ++ BitVec.ofNat 52 (ptrOff pc / 128 * 128 + (sec - k)) : BitVec 64), s)
    | none => (.words [], s1.updCol c fun x =>
        { x with icache := ((ia / 128, s1.bytes k 128) :: x.icache).take icacheLines })

/-- Whether a word that executes in the run is a uniform one (R27). -/
def State.hasUniform (s : State) (l : Launch) : Nat → List Word → Bool
  | _, [] => false
  | 0, w :: ws =>
    if isTrailer w then false else bit w 31 || s.hasUniform l (s.extOf l w) ws
  | n + 1, _ :: ws => s.hasUniform l n ws

/-! ## The end of a run -/

/-- The await codes of a trailer (R37, R49). -/
def trailerCodes (w : Word) : List Nat := [fieldNat w 20 14, fieldNat w 13 7, fieldNat w 6 0]
/-- The lowest bit position of an undefined await code, if any (R49, R453). -/
def trailerErr (w : Word) : Option Nat :=
  minPos [undef (decide (96 ≤ fieldNat w 20 14 ∧ fieldNat w 20 14 ≠ 120)) 14,
          undef (decide (96 ≤ fieldNat w 13 7 ∧ fieldNat w 13 7 ≠ 120)) 7,
          undef (decide (96 ≤ fieldNat w 6 0 ∧ fieldNat w 6 0 ≠ 120)) 0]

/-- A pending result that the trailer names (R49). Log entry 16, DEDUCED. -/
def Pend.awaited (p : Pend) (cs : List Nat) : Bool :=
  cs.any fun c => decide (c < 96 ∧ p.dst.toNat ≤ c ∧ c < p.dst.toNat + p.n)

/-- A pending result whose words are known. -/
def Pend.known (p : Pend) : Bool := match p.val with | .words _ => true | _ => false
/-- The pending results that `must` names, with the known ones that are older than a known one of them: a thread's
special-function results land in issue order (R137). -/
def landFirst (must : Pend → Bool) : List Pend → List Pend
  | [] => []
  | p :: ps =>
    let rest := landFirst must ps
    if must p || p.known && rest.any Pend.known then p :: rest else rest

/-- The results of the run that must land before it ends, for one thread (R26, R137). Log entry 16, DEDUCED. -/
def State.landRun (s : State) (r : Run) (cs : List Nat) (t : TRef) : State :=
  (landFirst (fun p => r.hazards.contains p.dst.toNat && !p.awaited cs) (s.thread t).pend).foldl
    (fun acc p => if (acc.thread t).pend.contains p then (acc.landOne t p).getD acc else acc) s
/-- Some result that the run waits for has not come (R26). Log entry 16, DEDUCED. -/
def State.runWaits (s : State) (r : Run) (cs : List Nat) : Bool :=
  r.members.any fun t => (s.thread t).pend.any fun p =>
    r.hazards.contains p.dst.toNat && !p.awaited cs

/-- A thread after its run: its PC is the taken target or the word after the trailer, and its latches are
lost (R24, R111). -/
def Thread.afterRun (next : DWord) (t : Thread) : Thread :=
  { t with pc := t.jump.getD next, jump := none, b := .replicate 8 .unwritten }

/-- A run ends (R26, R29, R111): its results land but for those the trailer names, each thread's PC moves, a crew run
leaves its g to later lane runs, and what waits for a run boundary happens (R11, R28, R169, R182, R328). -/
def State.endRun (s : State) (r : Run) : State :=
  let cs := trailerCodes r.word
  let s1 := r.members.foldl (fun acc t => acc.landRun r cs t) s
  if s1.runWaits r cs then s1.parkRun r.key false .other
  else
    let next := r.wordAddr + 4
    let after (t : Thread) : Thread :=
      if r.members.contains t.ref then { t.afterRun next with since := (s.col r.key.col).clock, lands := [] } else t
    let s2 : State := { s1 with
      threads := s1.threads.map after
      crews := s1.crews.map fun c => if r.crewRun = some c.cid then { c with gDone := c.g } else c
      runs := s1.runs.filter fun x => x.key != r.key
      turn := if s1.turn = Turn.run r.key then .idle else s1.turn }
    let s3 := r.members.foldl (fun acc t => acc.takeBoundary t) s2
    let cids := (r.members.map (·.cid)).eraseDups
    (cids.foldl (fun acc c => (acc.takeYield c).exitHelpers c) s3).settle

/-! ## The checks of R53 -/

/-- What a fetch step gives: an instruction to execute, or a state in which the step is over. -/
inductive Fetched where
  | exec (i : Instr) (s : State)
  | done (s : State)

/-- A decode trap for some threads of the run (R51): they leave it. -/
def State.decodeTrap (s : State) (r : Run) (ts : List (TRef × Byte × Byte)) : State :=
  (ts.foldl (fun acc p => (acc.leaveRun r.key p.1).raise p.1 (r.trap p.2.1 p.2.2)) s).settle

/-- A decode trap for every thread of the run. -/
def State.trapAll (s : State) (r : Run) (e : DecodeErr) : State :=
  s.decodeTrap r (r.members.map fun t => (t, e.cause, e.sub))

/-- The register at or beyond a thread's allotment, if the word names one (R13, R52). Where several fields or await
codes offend, the subcode is the first's, in the order d, a, b or await0, await1, await2; the spec does not say which
(log entry 100, DESIGN CHOICE). -/
def allotErr (allot : Nat) (rs : List (Nat × Nat)) : Option Nat :=
  (rs.find? fun p => decide (allot < p.1 + p.2)).map fun p => max allot p.1

/-- The lowest register of the word that an earlier long-latency destination names (R50). Log entry 15, DEDUCED. -/
def hazardErr (hz : List Nat) (rs : List (Nat × Nat)) : Option Nat :=
  (hz.filter fun h => rs.any fun p => decide (p.1 ≤ h ∧ h < p.1 + p.2)).min?

/-- Steps 6 and 7 of R53 for one thread. Log entry 15, DEDUCED. -/
def Thread.regErr (t : Thread) (r : Run) (i : Instr) : Option (Byte × Byte) :=
  match allotErr t.allot i.laneRegs with
  | some n => some (0x04#8, BitVec.ofNat 8 n)
  | none =>
    let lr := if i.usesLr then [(t.allot - 4, 2)] else []
    (hazardErr r.hazards (i.laneRegs ++ lr)).map fun n => (0x08#8, BitVec.ofNat 8 n)

/-- A trailer word reached at its position (R49). -/
def State.fetchTrailer (s : State) (r : Run) : State :=
  match trailerErr r.word with
  | some p => s.trapAll r ⟨0x02#8, BitVec.ofNat 8 p⟩
  | none =>
    let bad := r.members.filterMap fun t =>
      ((trailerCodes r.word).find? fun c => decide (c < 96 ∧ (s.thread t).allot ≤ c)).map fun c =>
        (t, (0x04#8 : Byte), BitVec.ofNat 8 c)
    if bad.isEmpty then s.endRun r else s.decodeTrap r bad

/-- A commit point under RIND_MODE 1 parks its run until a seal holds it (R291, R323); without one the word
executes. -/
def State.sealFirst (s : State) (k : RunKey) (i : Instr) : Fetched :=
  let r := s.run k
  let due := if i.commits then r.todo.filter fun t => s.mustSeal t r.wordAddr else []
  if due.isEmpty then .exec i s
  else .done ((due.foldl (fun acc t => acc.sealAt t r.wordAddr r.nextInstr none) s).parkRun k false .seal)

/-- An instruction that has passed steps 1 to 5: steps 6 and 7, per thread (R53), the latch rule of R45, and the seal
of a commit point (R291). -/
def State.fetchInstr (s : State) (r : Run) (i : Instr) (ext : Nat) : Fetched :=
  let s1 := s.updRun r.key fun x => { x with wlen := 1 + ext }
  match i.uSrc with
  | some (.latch n) =>
    if r.members.any fun t => match (s.thread t).latch n.toNat with | .lane _ => true | _ => false then
      .done (s.trapAll r ⟨0x07#8, n.setWidth 8⟩)
    else s1.sealFirst r.key i
  | _ =>
    let bad := r.todo.filterMap fun t => ((s.thread t).regErr r i).map fun e => (t, e.1, e.2)
    if bad.isEmpty then s1.sealFirst r.key i
    else
      let s2 := s1.decodeTrap r bad
      match s2.run? r.key with
      | none => .done s2
      | some _ => s2.sealFirst r.key i

/-- The word at the run's position, checked in the order of R53 under its launch's decode table. A uniform transfer
whose extension word would reach position 24 has no trailer behind it either: of the two checks of step 3 the model
makes the first one first, so it gives ILLEGAL_INSTR with subcode 1 (log entry 100, DESIGN CHOICE).
Log entry 14, DEDUCED. -/
def State.fetchWord (s : State) (r : Run) : Fetched :=
  let l := match r.members with
    | t :: _ => s.crewLaunch t.cid
    | [] => s.launch 0
  let w := r.word
  if r.members.isEmpty then .done s.settle
  else if isTrailer w then
    if r.pos = 0 then .done (s.trapAll r ⟨0x06#8, 0#8⟩) else .done (s.fetchTrailer r)
  else if 24 ≤ r.pos then .done (s.trapAll r ⟨0x05#8, 0#8⟩)
  else match s.rowOf l w with
    | none => .done (s.trapAll r ⟨0x01#8, 0#8⟩)
    | some (k, row) =>
      let n := row.ext w
      if 0x600 ≤ k ∧ k < 0x700 then .done (s.trapAll r ⟨0x03#8, 0#8⟩)
      else if row.xfer ∧ ¬ isTrailer (r.wordAt (r.pos + 1 + n)) then .done (s.trapAll r ⟨0x01#8, 1#8⟩)
      else if 24 ≤ r.pos + n then .done (s.trapAll r ⟨0x05#8, 0#8⟩)
      else match row.dec w (r.wordAt (r.pos + 1)) (r.wordAt (r.pos + 2)) with
        | .error e => .done (s.trapAll r e)
        | .ok i => s.fetchInstr r i n

/-- The registers of a long-latency destination are noted once its word has executed (R50).
Log entry 15, DEDUCED. -/
def State.noteHazards (s : State) (k : RunKey) (pos : Nat) (i : Instr) : State :=
  match i.longDst with
  | none => s
  | some (d, n) =>
    if 96 ≤ d.toNat then s
    else s.updRun k fun r =>
      if pos < r.pos then { r with hazards := r.hazards ++ (List.range n).map (d.toNat + ·) } else r

/-! ## The sequencer's stream -/

/-- A trap in the sequencer's stream is a workgroup fault, whose record carries the subcode in DETAIL: 0 for a cause that
has none, such as those of a failed access (R171, R210, R350, R451). Log entry 41, DEDUCED. -/
def State.seqTrap (s : State) (c : Nat) (cause sub : Byte) (addr : DWord) : State :=
  let detail := if 0x40 ≤ cause.toNat ∧ cause.toNat ≤ 0x48 ∨ cause = 0x73#8 then 0 else sub
  match (s.col c).seqr.holder with
  | none => s
  | some wid =>
    (s.faultWg wid ⟨cause, detail, (s.col c).seqr.pc, addr, { access := 0x20#8 }, 0⟩).updCol c fun x =>
      { x with seqr := { x.seqr with running := false } }

/-- The sequencer's program may execute: it is running, not parked, and its column issues. -/
def State.seqReady (s : State) (c : Nat) : Bool :=
  let x := s.col c
  x.seqr.running && x.seqr.parked.isNone && x.seqr.faultWait.isNone && x.powered && !x.stopIssue &&
    !x.gated && match x.seqr.holder with
      | some w => (s.wg w).fault.isNone
      | none => false

/-- A page fault of the sequencer: it parks at its word (R155, R349, R354). Log entry 44, DEDUCED. -/
def State.seqPageFault (s : State) (c : Nat) (kind ia : Nat) (ea : DWord) (access : Byte) : State :=
  let q := (s.col c).seqr
  match q.holder with
  | none => s
  | some wid =>
    let w := s.wg wid
    let l := s.launch w.lid
    let unit := (ia / 2 ^ 52 % 256, ia % 2 ^ 60 / 65536)
    let n := if q.refaultUnit == some unit then q.refaultCnt + 1 else 0
    let s1 := s.updCol c fun x =>
      { x with seqr := { x.seqr with refaultCnt := n, refaultUnit := some unit } }
    if 3 ≤ n then s1.faultWg wid ⟨0x4b#8, 0, q.pc, ea, { access := access ||| 0x20#8, ia := ia }, s.genOf unit.1⟩
    else
      let f : FaultWho := {
        who := .sequencer c, ctx := l.ctx, col := c, pc := q.pc, wg := wgWord w, launch := launchWord l
        access := access ||| 0x20#8 }
      match s1.openFault f kind ia ea with
      | some (id, s2) => s2.updCol c fun x => { x with seqr := { x.seqr with faultWait := some id } }
      | none => s

/-- A word has a uniform source, so that its bit 4 is mod[4] (R45). -/
def hasUSrc (row : OpRow) (w : Word) : Bool :=
  match row.dec (w &&& 0xffe00000#32) 0 0 with
  | .ok i => i.uSrc.isSome
  | .error _ => false
/-- A word of the sequencer's stream decoded: mod[4] is reserved there (R47, R453). -/
def decSeq (row : OpRow) (w e1 e2 : Word) : Except DecodeErr Instr :=
  if bit w 4 ∧ hasUSrc row w then
    match row.dec w e1 e2 with
    | .error e => .error (if e.cause = 2 ∧ e.sub.toNat < 4 then e else ⟨0x02#8, 4#8⟩)
    | .ok _ => .error ⟨0x02#8, 4#8⟩
  else row.dec w e1 e2

/-- A word of the sequencer's stream, through the instruction cache (R47, R210, R278). A lane word whose opcode has no
entry both has no entry and is not allowed in this stream: of R52's subcodes 0 and 2 the model gives 0 (log entry 100,
DESIGN CHOICE). -/
def State.fetchSeq (s : State) (c : Nat) : Fetched :=
  let q := (s.col c).seqr
  match q.holder with
  | none => .done s
  | some wid =>
    let l := s.launch (s.wg wid).lid
    match s.fetchIa l.ctx q.pc with
    | .error _ => .done (s.seqTrap c 0x0e 0 q.pc)
    | .ok ia =>
      let word (a : Nat) := icacheWord (s.col c).icache a
      let fill (a : Nat) : Fetched := match s.fillLine c (ptrAdd q.pc (a - ia)) a with
        | (.pageFault k i, s1) => .done (s1.seqPageFault c k i (ptrAdd q.pc (a - ia)) 0x08#8)
        | (.ecc sec, s1) => .done (s1.seqTrap c 0x0f 0 sec)
        | (_, s1) => .done s1
      match word ia with
      | none => fill ia
      | some w =>
        match (if isTrailer w then none else s.rowOf l w) with
        | none => .done (s.seqTrap c 0x01 (if isTrailer w then 2 else 0) q.pc)
        | some (k, row) =>
          if k < 1024 ∨ crewOnly k then .done (s.seqTrap c 0x01 2 q.pc)
          else
            let n := row.ext w
            match (if 1 ≤ n then word (ia + 4) else some 0), (if 2 ≤ n then word (ia + 8) else some 0) with
            | none, _ => fill (ia + 4)
            | _, none => fill (ia + 8)
            | some e1, some e2 =>
              match decSeq row w e1 e2 with
              | .error e => .done (s.seqTrap c e.cause e.sub q.pc)
              | .ok i => .exec i s

end Sys2Proof.Machine
end

