-- ==== Sys2Proof/Machine/Memory.lean ====
section
/-!
DEFINITION. The lane memory instructions: effective addresses and checks (07 R173 to R175), loads and stores
(R177 to R182), ordered forms (R183), atomics and reductions (R184 to R187), fences (R188 to R190), stash and
prefetch (R191 to R193).
-/

namespace Sys2Proof.Machine

/-! ## Addresses and checks -/

/-- The effective address of an LM word (R173). -/
def LaneEnv.ea (e : LaneEnv) (t : Thread) (a o : Code) (size : Nat) : DWord :=
  let b := e.read64 t a
  (bits b 63 52 ++ (b.setWidth 52 + o.signExtend 52 * BitVec.ofNat 52 size) : BitVec 64)

/-- The kinds of access; `host` says whether the operation is a PCIe AtomicOp (R186). -/
inductive AccKind where
  | load | store
  | red (host : Bool)
  | atomic (host : Bool)
  deriving DecidableEq, Repr

/-- The permissions that a kind of access needs (R271). -/
def AccKind.need : AccKind → BitVec 4
  | .load => permR | .store | .red _ => permW | .atomic _ => permRWA
/-- ACCESS of a fault record (R350). -/
def AccKind.access (k : AccKind) : Byte := k.need.setWidth 8
/-- The space-4 rule (R186): what step 6 lets pass. -/
def AccKind.hostOk : AccKind → Bool
  | .red h | .atomic h => h
  | _ => true

/-- What a deterministic launch forbids at step 5 (14 R368). -/
def State.detFails (s : State) (w : Workgroup) (p : DWord) (kind : AccKind) : Bool :=
  let l := s.launch w.lid
  let ea := s.actEa w.wid p
  l.deterministic &&
    if ptrSpace ea = 1 then false
    else if ptrSpace ea = 2 then fieldNat ea 23 22 != w.col % 4
    else match classify l.det w.index ea with
      | .foreign => true
      | .readOnly => kind != .load
      | _ => false

/-- Steps 1 to 6 of R174 for a workgroup's access. -/
def State.memCheck (s : State) (wid : Nat) (ea : DWord) (size : Nat) (kind : AccKind) : Except Nat Dest :=
  match s.check (s.whoWg wid) ea size kind.need with
  | .error st => .error st
  | .ok d =>
    if s.detFails (s.wg wid) ea kind then .error 5
    else if ptrSpace ea = 4 ∧ ¬ kind.hostOk then .error 6
    else .ok d

/-- Every workgroup of lower index of the launch has ended (R204, R368). -/
def State.lowerEnded (s : State) (w : Workgroup) : Bool :=
  match w.index with
  | none => true
  | some i => (List.range i).all fun j => (s.launch w.lid).ended.contains j

/-- A load or an atomic of a shared line waits for the workgroups of lower index (R368). Log entry 40, DEDUCED. -/
def State.sharedWait (s : State) (wid : Nat) (p : DWord) : Bool :=
  let w := s.wg wid
  let ea := s.actEa wid p
  let l := s.launch w.lid
  l.deterministic && ptrSpace ea != 1 && ptrSpace ea != 2 &&
    classify l.det w.index ea == .shared && !s.lowerEnded w

/-! ## L1 hits, misses and fills (R277, R279) -/

/-- Sets, ways and miss-status entries of an L1 (R277, R279). -/
def l1Sets : Nat := 128
def l1Ways : Nat := 16
def missEntries : Nat := 256

/-- The L1 copy of the sector of an IA. -/
def Column.l1Sector (x : Column) (ia : Nat) : Option (List Byte) :=
  ((x.l1.find? fun l => l.line == ia / 128).bind fun l => l.sectors.find? fun y => y.1 == ia % 128 / 16).map (·.2)

/-- A hit: the line is the one used last, or, with policy .lu, leaves after the read (R176). -/
def l1Use (line : Nat) (leave : Bool) (ls : List L1Line) : List L1Line :=
  let rest := ls.filter fun l => l.line != line
  if leave then rest else (ls.filter fun l => l.line == line) ++ rest

/-- The lines of a partition's victim-tag array: the first 256 (R344). Log entry 76, DEDUCED. -/
def keepVictims (p : Nat) (vs : List (Nat × VictimTag)) : List (Nat × VictimTag) :=
  (vs.filter fun v => v.1 == p).take 256 ++ vs.filter fun v => v.1 != p

/-- A miss of a crew at a line among the crew's own victim tags adds to its LOSS (R344). Log entry 76, DEDUCED. -/
def State.countLoss (s : State) (c cid line : Nat) : State :=
  if (s.col c).victims.any fun v => v.1 == (s.crew cid).part && v.2.tag == line && v.2.cid == cid then
    s.updCrew cid fun x => { x with loss := x.loss + 1 } else s

/-- A miss may join an entry: of its line, and allocated within 16 clocks or with all its sectors asked for (R279).
Log entry 18, DEDUCED. -/
def Miss.joins (e : Miss) (clock line : Nat) (secs : List Nat) : Bool :=
  e.line == line && (decide (clock < e.at_ + 16) || secs.all fun x => e.sectors.contains x)

/-- A miss of a crew at sectors of a line joins an entry or takes one; none while every entry is in use (R279).
Log entry 18, DEDUCED. -/
def State.missAt (s : State) (c cid line key : Nat) (secs : List Nat) (allocate ef : Bool) : Option State :=
  let x := s.col c
  let s1 := s.countLoss c cid line
  let add (e : Miss) : Miss :=
    { e with sectors := e.sectors ++ secs.filter fun z => !e.sectors.contains z, allocate := e.allocate || allocate }
  let join (e : Miss) : Miss := if e.joins x.clock line secs then add e else e
  if x.misses.any fun e => e.joins x.clock line secs then
    some (s1.updCol c fun y => { y with misses := y.misses.map join })
  else if missEntries ≤ x.misses.length then none
  else some (s1.updCol c fun y => { y with misses := y.misses ++ [⟨line, key, secs, x.clock, cid, allocate, ef⟩] })

/-- The line of a full set that goes: of the lowest retention class, the one used longest ago (R277). -/
def l1Victim (set : List L1Line) : Option L1Line :=
  if set.length < l1Ways then none else (set.filter (·.ef)).getLast? <|> set.getLast?

/-- Sectors enter an L1: on the line if it is there, or on a new one, for which a full set gives up a line; the tag
of that line goes into the victim tags of the missing crew's partition (R277, R344). Log entry 76, DEDUCED. -/
def Column.l1Insert (x : Column) (part : Nat) (e : Miss) (secs : List (Nat × List Byte)) : Column :=
  match x.l1.find? fun l => l.line == e.line with
  | some l =>
    let l' := { l with sectors := secs ++ l.sectors.filter fun y => !secs.any fun z => z.1 == y.1 }
    { x with l1 := l' :: x.l1.filter fun y => y.line != e.line }
  | none =>
    let new : L1Line := ⟨e.line, e.key, e.cid, e.ef, secs⟩
    match l1Victim (x.l1.filter fun l => l.line % l1Sets == e.line % l1Sets) with
    | none => { x with l1 := new :: x.l1 }
    | some v => { x with
        l1 := new :: x.l1.filter fun l => l.line != v.line
        victims := keepVictims part ((part, ⟨v.line, e.cid⟩) :: x.victims) }

/-- The fill of a core's i-th oldest miss arrives: the entry is free, and the sectors that can be read enter the L1,
as its span reads them at that moment (R277, R279, R308). Log entry 18, DEDUCED. -/
def State.fillMiss (s : State) (c i : Nat) : State :=
  match (s.col c).misses[i]? with
  | none => s
  | some e =>
    let secs := (e.sectors.filter fun j => (s.eccAt (s.route (e.key + 16 * j)) 16).isNone).map fun j =>
      (j, s.spanBytes c (e.key + 16 * j) 16)
    s.updCol c fun x =>
      let y := { x with misses := x.misses.take i ++ x.misses.drop (i + 1) }
      if e.allocate then y.l1Insert (s.crew e.cid).part e secs else y

/-! ## What a read finds -/

/-- How a word reads (R176, R183): its cache policy, whether it is strong or an acquire at device scope, the scope of
an acquire. -/
structure ReadKind where
  policy : BitVec 2 := 0
  strong : Bool := false
  acquire : Nat := 0
  deriving DecidableEq, Repr

/-- The scope at which a read invalidates (R183, R304). An acquire of a scratchpad word from workgroup scope up invalidates
as one at span scope does: the word may be a channel record, and then it shows what an engine has written (R248, R312).
Log entry 17, DEDUCED. -/
def ReadKind.invalidates (kind : ReadKind) (d : Dest) : Nat :=
  match d with
  | .scratch .. => if kind.acquire = 0 then 0 else max 3 kind.acquire
  | .global .. => kind.acquire

/-- A read goes through the core's L1 (R176, R183, R283): of space 0, neither with policy .nl1 nor strong nor an
acquire from span scope up, of no stash range, and of no shared line of a deterministic launch. -/
def State.usesL1 (s : State) (wid : Nat) (kind : ReadKind) (d : Dest) (ea : DWord) : Bool :=
  match d with
  | .global 0 ia => kind.policy != 1#2 && !kind.strong && decide (kind.acquire < 3) && (s.stashAt ia).isNone &&
      !s.logged (s.wg wid) ea
  | _ => false

/-- Bytes of space 3: the sector that the device cache holds, or else the peer's, which it then holds (R281). -/
def State.peerRead (s : State) (k n : Nat) : State × List Byte :=
  let sec := k % 128 / 16
  match (s.peerLines.find? fun l => l.key == k / 128 * 128) with
  | none => ({ s with peerLines := ⟨k / 128 * 128, [(sec, s.bytes (k / 16 * 16) 16)]⟩ :: s.peerLines }, s.bytes k n)
  | some l => match l.sectors.find? fun y => y.1 == sec with
    | some y => (s, bytesAt y.2 (k % 16) n)
    | none => ({ s with peerLines := { l with sectors := (sec, s.bytes (k / 16 * 16) 16) :: l.sectors } ::
        s.peerLines.filter fun y => y.key != l.key }, s.bytes k n)

/-- What a read of a core finds behind its pending stores: bytes, a failure, or no free miss-status entry. -/
inductive ReadOut where
  | ok (s : State) (bs : List Byte)
  | fail (v : PendVal)
  | full

/-- The bytes of a core's read at a key, out of its L1, the device cache or their home (R176, R277, R279, R281): `pc`
and `w` are the word's. A read that does not go through the L1 renews a copy of its sector there, so that no later
ordered load of the core goes back in coherence order (R299). Log entry 18, DEDUCED. -/
def State.readBase (s : State) (c cid wid : Nat) (pc : DWord) (w : Word) (kind : ReadKind) (d : Dest) (ea : DWord)
    (k n : Nat) : ReadOut :=
  let ia := match d with | .global _ ia => ia | .scratch .. => 0
  let l1 := s.usesL1 wid kind d ea
  match (if l1 then (s.col c).l1Sector ia else none) with
  | some bs =>
    let s1 := s.updCol c fun x => { x with l1 := l1Use (ia / 128) (kind.policy == 3#2) x.l1 }
    .ok (if kind.policy = 2#2 then s1.dcLow k else s1) (bytesAt bs (k % 16) n)
  | none => match s.readFailure pc w ea k n with
    | some v => .fail v
    | none =>
      if l1 then
        match s.missAt c cid (ia / 128) (k / 128 * 128) [k % 128 / 16] (kind.policy != 3#2) (kind.policy == 2#2) with
        | some s1 => .ok (if kind.policy = 2#2 then s1.dcLow k else s1) (s.spanBytes c k n)
        | none => .full
      else if (keyPeer k).isSome then
        let p := s.peerRead k n
        .ok p.1 p.2
      else
        let bs := s.spanBytes c k n
        let s1 := s.updCol c fun x => { x with l1 := l1Store k false bs x.l1 }
        .ok (if kind.policy = 2#2 then s1.dcLow k else s1) bs

/-! ## Objects of many bytes -/

/-- What reading an object in memory gives: its bytes, a failed step of R174, a page fault, an uncorrectable
error at a sector, an access that a peer card or the host refuses. -/
inductive ObjRead where
  | ok (s : State) (bs : List Byte)
  | acc (step : Nat) (ea : DWord)
  | fault (kind ia : Nat) (ea : DWord)
  | ecc (sector : DWord)
  | peer (ea : DWord)
  | host (ea : DWord)

/-- A checked destination moved by some bytes. -/
def Dest.plus : Dest → Nat → Dest
  | .scratch w o, n => .scratch w (o + n)
  | .global sp ia, n => .global sp (ia + n)

/-- The bytes of a checked object from byte `i` on, as agents of a workgroup's core see them. -/
def destBytes (wid : Nat) (p : DWord) (d : Dest) : Nat → Nat → List Byte → State → ObjRead
  | 0, _, acc, s => .ok s acc
  | n + 1, i, acc, s =>
    let ea := ptrAdd p i
    match s.locate (d.plus i) false with
    | .pageFault k ia _ => .fault k ia ea
    | .at s1 k =>
      if (s1.eccAt (s1.route k) 1).isSome then .ecc (sectorPtr ea)
      else if s1.peerFails k 1 then .peer ea
      else if s1.hostFails k 1 then .host ea
      else destBytes wid p d n (i + 1) (acc ++ s1.coreView wid ea k 1) s1

/-- An object of `n` bytes, at most two lines, read for a workgroup, checked as one access (R174, R368); `align` is
whether step 1 applies. -/
def State.readObj (s : State) (wid : Nat) (p : DWord) (n : Nat) (align : Bool := true) : ObjRead :=
  match s.check (s.whoWg wid) p n permR align with
  | .error st => .acc st p
  | .ok d =>
    if s.detFails (s.wg wid) p .load then .acc 5 p
    else if s.detFails (s.wg wid) (ptrAdd p (n - 1)) .load then .acc 5 (ptrAdd p (n - 1))
    else destBytes wid p d n 0 [] s

/-- The pool of a checked object, if it has no power: the state in which its column is asked up (R362).
Log entry 40, DEDUCED. -/
def State.objDown (s : State) (wid : Nat) (p : DWord) (n : Nat) : Option State :=
  match s.check (s.whoWg wid) p n permR false with
  | .ok d => if s.poolDown d then some (s.wakePool d) else none
  | .error _ => none

/-! ## Loads -/

/-- A load for one thread: `size` bytes into `n` registers, made of the number read by `f`. What it must come after
is performed first, and an acquire invalidates first. Log entry 17, DEDUCED. -/
def loadThread (kind : ReadKind) (size n : Nat) (f : Nat → List Word) (d a o : Code) (r : Run) (s : State) (t : TRef) :
    ThrRes :=
  let e := s.env r t.cid
  let p := e.ea (s.thread t) a o size
  let wid := (s.crew t.cid).wid
  let ea := s.actEa wid p
  let c := s.crewCol t.cid
  let strong := kind.strong || decide (3 ≤ kind.acquire)
  match s.memCheck wid ea size .load with
  | .error st => .trap s (r.accTrap st p)
  | .ok dst =>
    if s.sharedWait wid ea then .park s .ticket
    else if s.poolDown dst then .park (s.wakePool dst) .other
    else match s.locate dst false with
    | .pageFault k ia _ => .leave (s.accessFault r t k ia p (AccKind.load).access)
    | .at s1 k => match s1.settleRead c (some t) strong k size with
      | none => .park s1 .seal
      | some s2' =>
        let s2 := s2'.acquired c (kind.invalidates dst)
        match s2.readBase c t.cid wid r.wordAddr r.word kind dst ea k size with
        | .full => .park s2 .miss
        | .fail v => .ok (s2.updThread t fun x => x.writeLong e d n v)
        | .ok s3 base =>
          let s4 := if strong then s3.noteRead c t k size else s3
          .ok (s4.updThread t fun x => x.writeLong e d n (.words (f (leNat (s3.viewOver t ea k base)))))

/-- A loaded number in its registers: z = 1 and 3 sign-extend (R181). -/
def ldWords (z : BitVec 3) (x : Nat) : List Word :=
  match z.toNat with
  | 1 => [(BitVec.ofNat 8 x).signExtend 32]
  | 3 => [(BitVec.ofNat 16 x).signExtend 32]
  | _ => wordsNat ((ldSize z + 3) / 4) x

/-- ld (R176, R181). Log entry 18, DEDUCED. -/
def execLd (z : BitVec 3) (c : BitVec 2) (d a o : Code) (s : State) : Host.Outcome State Fault Refusal :=
  s.lanes (loadThread { policy := c } (ldSize z) ((ldSize z + 3) / 4) (ldWords z) d a o)

/-- The operand size of an ordered access (R183). -/
def wideSize (w : Bool) : Nat := if w then 8 else 4

/-- An ordered load (R183): performed when it executes. -/
def State.ldOrdered (s : State) (kind : ReadKind) (w : Bool) (d a o : Code) : Host.Outcome State Fault Refusal :=
  s.lanes (loadThread kind (wideSize w) (wideSize w / 4) (wordsNat (wideSize w / 4)) d a o)

/-- ld.relaxed (R183, R308). -/
def execLdRelaxed (w : Bool) (d a o : Code) (s : State) : Host.Outcome State Fault Refusal :=
  s.ldOrdered { strong := true } w d a o
/-- ld.acq at the scope of its variant (R183, R297, R304). -/
def execLdAcq (e : BitVec 3) (w : Bool) (d a o : Code) (s : State) : Host.Outcome State Fault Refusal :=
  s.ldOrdered { acquire := e.toNat } w d a o

/-! ## Stores and reductions -/

/-- The data operand of a store of `size` bytes, as a number (R181). -/
def LaneEnv.data (e : LaneEnv) (t : Thread) (c : Code) (size : Nat) : Nat :=
  if size ≤ 4 then (e.read32 t c).toNat % 2 ^ (8 * size)
  else if size = 8 then (e.read64 t c).toNat else (e.read128 t c).toNat

/-- What a store at bytes written since leaves of a held store of its thread: the pieces beside them (R178, R192). -/
def HeldStore.minus (s : State) (k n : Nat) (h : HeldStore) : List HeldStore :=
  if ¬ h.touches s k n then [h]
  else match h.op with
    | .write d =>
      let lo := s.route k - s.route h.key
      let hi := s.route k + n - s.route h.key
      (if s.route h.key < s.route k then [{ h with op := .write (d.take lo) }] else []) ++
        (if hi < d.length then [{ h with op := .write (d.drop hi), key := h.key + hi, ea := ptrAdd h.ea hi }] else [])
    | _ => [h]

/-- A scratchpad store, performed at its position (R178, R302): it comes after the core's pending stores to the same
stash copy, and its thread's held stores there are over; one to another column's pool comes after what the thread has
read (R308); none while what it comes after waits for a seal. Log entry 17, DEDUCED. -/
def State.scratchStore (s : State) (t : TRef) (h : HeldStore) : Option State :=
  let c := s.crewCol t.cid
  let n := h.op.size
  ((s.settleWrite c h.key n).bind fun s1 =>
    if keyRegion h.key = regScratch c then some s1 else s1.settleSeen c t).map fun s2 =>
  let cut (x : HeldStore) : List HeldStore := if x.tid = t.tid then x.minus s2 h.key n else [x]
  let s3 := if (s2.crew t.cid).storeQ.any fun x => x.tid == t.tid && x.touches s2 h.key n then
      s2.updCrew t.cid fun y => { y with storeQ := y.storeQ.flatMap cut }
    else s2
  s3.applyStore t.cid h

/-- A held or performed store or reduction for one thread (R178, R187): `op` from its data. -/
def storeThread (policy : BitVec 2) (size : Nat) (kind : AccKind) (op : Nat → StoreOp) (d a o : Code) (r : Run)
    (s : State) (t : TRef) : ThrRes :=
  let e := s.env r t.cid
  let x := s.thread t
  let p := e.ea x a o size
  let c := s.crew t.cid
  let ea := s.actEa c.wid p
  if x.helper then .ok (s.updThread t fun y => y.writeNone e)
  else match s.memCheck c.wid ea size kind with
    | .error st => .trap s (r.accTrap st p)
    | .ok dst =>
      let global : Bool := match dst with | .global .. => true | _ => false
      if global ∧ 256 ≤ c.storeQ.length then .trap s (r.trap 0x46#8 0#8 (some ea))
      else if s.poolDown dst then .park (s.wakePool dst) .other
      else match s.locate dst true with
        | .pageFault k ia _ => .leave (s.accessFault r t k ia p kind.access)
        | .at s1 k =>
          let h : HeldStore := {
            tid := t.tid, key := k, op := op (e.data x d size), ea := ea, word := r.word, pc := r.wordAddr
            policy := policy, epoch := x.keepEpoch }
          match (if global then some (s1.updCrew t.cid fun y => { y with storeQ := y.storeQ ++ [h] })
            else s1.scratchStore t h) with
          | some s2 => .ok (s2.updThread t fun y => y.writeNone e)
          | none => .park s1 .seal

/-- A plain store of some bytes. -/
def writeOp (size : Nat) (x : Nat) : StoreOp := .write (toLe size x)

/-- st (R181). -/
def execSt (z : BitVec 3) (c : BitVec 2) (d a o : Code) (s : State) : Host.Outcome State Fault Refusal :=
  s.lanes (storeThread c (stSize z) .store (writeOp (stSize z)) d a o)

/-- st.relaxed (R183). -/
def execStRelaxed (w : Bool) (d a o : Code) (s : State) : Host.Outcome State Fault Refusal :=
  s.lanes (storeThread 0#2 (wideSize w) .store (writeOp (wideSize w)) d a o)

/-- red (R187). -/
def execRed (k : BitVec 4) (d a o : Code) (s : State) : Host.Outcome State Fault Refusal :=
  s.lanes (storeThread 0#2 (redSize k) (.red (decide (k.toNat < 2)))
    (fun x => .reduce k (BitVec.ofNat 64 x)) d a o)

/-- A commit point whose seal is valid: its own access is numbered and waits no longer (R291 step 3). -/
def State.sealedTurn (s : State) (r : Run) (t : TRef) (f : Nat → State → ThrRes) (g : ThrRes) : ThrRes :=
  match (s.thread t).sealedOwn r.wordAddr with
  | some n => f n (s.commitAt r t)
  | none => g

/-- The commit point of an access seals its core first: a seal does not hold its thread's stores yet, or not the access,
which is numbered too when it enters the core store order (R291). -/
def State.sealsOwn (s : State) (t : TRef) (pc : DWord) (numbered : Bool) : Bool :=
  s.mustSeal t pc || numbered && (s.crewLaunch t.cid).rindMode && !(s.thread t).helper

/-- st.rel at a scope for one thread (R180, R183, R304): the region commits, and the store is released after what it
must come after; one to a scratchpad waits for that to be performed. Log entry 17, DEDUCED. -/
def releaseThread (scope size : Nat) (d a o : Code) (r : Run) (s : State) (t : TRef) : ThrRes :=
  let e := s.env r t.cid
  let x := s.thread t
  let p := e.ea x a o size
  let wid := (s.crew t.cid).wid
  let ea := s.actEa wid p
  let c := s.crewCol t.cid
  if x.helper then .ok ((s.commitAt r t).updThread t fun y => y.writeNone e)
  else s.sealedTurn r t (fun _ s1 => .ok (s1.updThread t fun y => y.writeNone e))
    (match s.memCheck wid ea size .store with
    | .error st => .trap s (r.accTrap st p)
    | .ok dst =>
      if s.poolDown dst then .park (s.wakePool dst) .other
      else match s.locate dst true with
      | .pageFault k ia _ => s.sealedFirst r t (.leave (s.commitFault r t k ia p (AccKind.store).access))
      | .at s1 k =>
        let h : HeldStore := {
          tid := t.tid, key := k, op := writeOp size (e.data x d size), ea := ea, word := r.word, pc := r.wordAddr
          epoch := x.keepEpoch }
        let global : Bool := match dst with | .global .. => true | _ => false
        let numbered := global && !s1.logged (s1.wg wid) ea
        if s1.sealsOwn t r.wordAddr numbered then
          .park (s1.sealAt t r.wordAddr r.nextInstr (if numbered then some h else none) (decide (3 ≤ scope))) .seal
        else
          let s2 := s1.commitHere r t
          let s3 := if global ∧ 3 ≤ scope then some s2 else s2.performed c t scope
          match s3.bind fun s3 => if global then some (s3.release t.cid h (decide (3 ≤ scope))) else s3.scratchStore t h with
          | some s4 => .ok ((s4.commitAt r t).updThread t fun y => y.writeNone e)
          | none => .park s2 .seal)

/-- st.rel at the scope of its variant (R183, R297). -/
def execStRel (e : BitVec 3) (w : Bool) (d a o : Code) (s : State) : Host.Outcome State Fault Refusal :=
  s.lanes (releaseThread e.toNat (wideSize w) d a o)

/-! ## Atomics -/

/-- An atomic performed at once (R184): the old value, the state; `k` and its operands as in `StoreOp.atomic`. In
global memory it takes its place in the core store order, and everything before it is performed (R291, R301). A logged
line is read through the workgroup's log, and the new value is logged as a store (R368). None while what it comes after
waits for a seal. -/
def State.performAtomic (s : State) (wid cid crew tid : Nat) (ea : DWord) (d : Dest) (key : Nat) (k : BitVec 5)
    (x y : DWord) : Option (DWord × State) :=
  let w := s.wg wid
  let size := atomicSize k
  let store (v : DWord) : HeldStore := { tid := tid, key := key, op := writeOp size v.toNat, ea := ea }
  match d with
  | .scratch .. => (s.settleWrite w.col key size).map fun s1 =>
    let old : DWord := BitVec.ofNat 64 (leNat (s1.bytes key size))
    (old, match atomicNew k x y old with | some v => s1.put key (toLe size v.toNat) | none => s1)
  | .global .. =>
    let clear (s : State) : Option State := s.drainIf w.col fun s => (s.col w.col).pendingStores.any fun e => !e.hold
    if s.logged w ea then (clear s).map fun s1 =>
      let old : DWord := BitVec.ofNat 64 (leNat (overlay (s1.logView wid ea) key (s1.bytes key size)))
      (old, match atomicNew k x y old with | some v => s1.logStore wid crew (store v) | none => s1)
    else (clear s).map fun s0 =>
      let n := (s0.col w.col).seqNext
      let s1 := (s0.releaseAs wid cid crew { tid := tid, key := key, op := .atomic k x y, ea := ea }).drain w.col
      ((((s1.col w.col).atomicOld.find? fun p => p.1 == n).map (·.2)).getD 0, s1)

/-- What the thread of a numbered atomic waits for (R291): the atomic while it is pending, or the recorded old value.
The service layer keeps 256 of them; the spec states no value for an older one. -/
def State.atomicResult (s : State) (c n words : Nat) : PendVal :=
  if (s.col c).pendingStores.any fun e => e.seq == n then .atomic n
  else match (s.col c).atomicOld.find? fun p => p.1 == n with
    | some p => .words (wordsNat words p.2.toNat)
    | none => .words (wordsNat words (Config.freeDWord 17 (s.freeCtr + n)).toNat)

/-- An atomic for one thread (R180, R184 to R186): a commit point, long-latency; `n` registers that its destination
names, of which the old value fills the first, `f` the operation and its operands. In global memory it is released into the core store order, and its old value comes when it
is performed (R291, R301). Log entry 17, DEDUCED. -/
def atomThread (size n : Nat) (host : Bool) (f : LaneEnv → Thread → BitVec 5 × DWord × DWord) (d a o : Code)
    (r : Run) (s : State) (t : TRef) : ThrRes :=
  let e := s.env r t.cid
  let x := s.thread t
  let p := e.ea x a o size
  let c := s.crew t.cid
  let ea := s.actEa c.wid p
  let col := s.crewCol t.cid
  let words := size / 4
  let fin (s1 : State) (v : PendVal) : ThrRes := .ok ((s1.commitAt r t).updThread t fun y => y.writeLong e d n v)
  if x.helper then fin s (.words (List.replicate words 0))
  else s.sealedTurn r t (fun m s1 => fin s1 (s1.atomicResult col m words))
    (match s.memCheck c.wid ea size (.atomic host) with
    | .error st => .trap s (r.accTrap st p)
    | .ok dst =>
      if s.sharedWait c.wid ea then s.sealedFirst r t (.park (s.commitHere r t) .ticket)
      else if s.poolDown dst then .park (s.wakePool dst) .other
      else match s.locate dst true with
        | .pageFault k ia _ => s.sealedFirst r t (.leave (s.commitFault r t k ia p (AccKind.atomic host).access))
        | .at s1 k =>
          let q := f e x
          let own : HeldStore := {
            tid := t.tid, key := k, op := .atomic q.1 q.2.1 q.2.2, ea := ea, word := r.word, pc := r.wordAddr
            epoch := x.keepEpoch }
          let ordered : Bool := match dst with | .global .. => !s1.logged (s1.wg c.wid) ea | _ => false
          if s1.sealsOwn t r.wordAddr ordered then
            .park (s1.sealAt t r.wordAddr r.nextInstr (if ordered then some own else none)) .seal
          else
            let s2 := s1.commitHere r t
            if ordered then fin (s2.release t.cid own) (.atomic (s2.col col).seqNext)
            else match s2.readFailure r.wordAddr r.word ea k size with
              | some v => fin s2 v
              | none => match (s2.settleSeen col t).bind fun s3 =>
                  s3.performAtomic c.wid t.cid c.idx t.tid ea dst k q.1 q.2.1 q.2.2 with
                | some (old, s3) => fin s3 (.words (wordsNat words old.toNat))
                | none => .park s2 .seal)

/-- The operations carried as PCIe AtomicOps: add and xchg; the two cas words too (R186). -/
def atomHost (k : BitVec 4) : Bool := k == 0#4 || k == 1#4 || k == 10#4 || k == 11#4

/-- atom.op (R184). -/
def execAtom (k : BitVec 4) (d a o : Code) (s : State) : Host.Outcome State Fault Refusal :=
  s.lanes (atomThread (atomSize k) (atomSize k / 4) (atomHost k)
    (fun e x => (k.setWidth 5, BitVec.ofNat 64 (e.data x d (atomSize k)), 0)) d a o)

/-- atom.cas.b32: the pair holds the comparand and the new value (R185). -/
def execAtomCasB32 (d a o : Code) (s : State) : Host.Outcome State Fault Refusal :=
  s.lanes (atomThread 4 2 true
    (fun _ x => (cas32Op, (x.reg d.toNat).setWidth 64, (x.reg (d.toNat + 1)).setWidth 64)) d a o)

/-- atom.cas.b64: the quad holds the comparand and the new value (R185). -/
def execAtomCasB64 (d a o : Code) (s : State) : Host.Outcome State Fault Refusal :=
  s.lanes (atomThread 8 4 true (fun _ x => (cas64Op, x.pair d.toNat, x.pair (d.toNat + 2))) d a o)

/-! ## Fences -/

/-- The effect of a fence at a scope for a thread (R188, R304, R307): what precedes is performed at the scope, the
workgroup's dirty stash sectors are written back from device scope up, the L1 is invalidated from span scope up. None
while what precedes waits for a seal. Log entry 17, DEDUCED. -/
def State.fenceAt (s : State) (t : TRef) (wid : Nat) (scope : Nat) : Option State :=
  let c := (s.wg wid).col
  (s.performed c t scope).map fun s1 =>
    (if 4 ≤ scope then s1.flushStash wid fun _ => true else s1).acquired c scope

/-- The workgroup's dirty stash sectors that have lost their page find it again, if it is resident (R276). -/
def State.refindStash (s : State) (wid : Nat) : State :=
  s.remapStash fun x => x.dirty && x.gkey.isNone && (s.wg wid).sectors.any fun y => y.skey == x.skey

/-- The page fault of a dirty stash sector, among the entries that `p` selects, that has none: its kind, IA and
address (R192, R276). Log entry 30, DEDUCED. -/
def State.stashStuck (s : State) (wid : Nat) (p : StashEntry → Bool) : Option (Nat × Nat × DWord) :=
  (s.wg wid).stash.findSome? fun e =>
    if p e then (e.sectors.find? fun x => x.dirty && x.gkey.isNone).bind fun x =>
      match s.translate x.ia 0 true with
      | .pageFault k ia _ => some (k, ia, ptrAdd e.base (x.ia - e.ia))
      | .at .. => none
    else none

/-- fence.scope (R188); a helper thread's has no effect outside it (R11). A write-back that meets a page fault is the
thread's. Log entry 30, DEDUCED. -/
def execFence (e : BitVec 3) (s : State) : Host.Outcome State Fault Refusal :=
  s.lanes fun r s t =>
    let wid := (s.crew t.cid).wid
    let fin (s1 : State) : ThrRes := .ok (s1.updThread t fun x => x.writeNone (s.env r t.cid))
    if (s.thread t).helper then fin (s.commitAt r t)
    else match ((s.commitHere r t).refindStash wid).fenceAt t wid e.toNat with
    | none => .park (s.commitHere r t) .seal
    | some s1 => match (if 4 ≤ e.toNat then s1.stashStuck wid fun _ => true else none) with
      | some (k, ia, ea) => .leave (s1.commitFault r t k ia ea 2#8)
      | none => fin (s1.commitAt r t)

/-- A seal of a core is asked for (R189); a request that stands already stays. -/
def State.requestSeal (s : State) (c : Nat) (reason : Byte) : State :=
  s.updCol c (Column.askSeal reason)

/-- The highest SEQ of a core's valid seals; 0 for none. -/
def Column.lastSeal (c : Column) : Nat := ((c.seals.find? (·.valid)).map (·.seq)).getD 0

/-- The SEQ of the first seal of a core that is captured from now on. -/
def Column.nextSeal (x : Column) : Nat := x.lastSeal + if x.sealing.isSome then 2 else 1

/-- pfence.rind (R189): the effect of fence.core, and a seal asked for; a helper thread's asks for none (R11). -/
def execPfenceRind (s : State) : Host.Outcome State Fault Refusal :=
  s.lanes fun r s t =>
    let c := s.crewCol t.cid
    let fin (s1 : State) : ThrRes := .ok ((s1.commitAt r t).updThread t fun x => x.writeNone (s.env r t.cid))
    if (s.thread t).helper then fin s
    else match (s.commitHere r t).performed c t 2 with
      | some s1 => fin (s1.requestSeal c 0)
      | none => .park (s.commitHere r t) .seal

/-- What a thread keeps at the word it is parked at. -/
def Run.keptOf (r : Run) (t : TRef) : Option Nat := (r.kept.find? fun p => p.1 == t).map (·.2)
/-- A value kept for a thread. -/
def State.keep_ (s : State) (k : RunKey) (t : TRef) (n : Nat) : State :=
  s.updRun k fun r => { r with kept := (t, n) :: r.kept.filter fun p => p.1 != t }

/-- pfence.rind.wait (R189): it parks until a seal captured after its request is valid. -/
def execPfenceRindWait (s : State) : Host.Outcome State Fault Refusal :=
  s.lanes fun r s t =>
    let c := s.crewCol t.cid
    let fin (s1 : State) : ThrRes := .ok ((s1.commitAt r t).updThread t fun x => x.writeNone (s.env r t.cid))
    if (s.thread t).helper then fin s
    else match r.keptOf t with
    | some n => if n ≤ (s.col c).lastSeal then fin s else .park s .seal
    | none => match (s.commitHere r t).performed c t 2 with
      | some s1 => .park ((s1.requestSeal c 0).keep_ r.key t (s.col c).nextSeal) .seal
      | none => .park (s.commitHere r t) .seal

/-- The thread's later stores to the persistent window become durable after its earlier ones (R190). -/
def State.keepFence (s : State) (r : Run) (t : TRef) : State :=
  (s.commitHere r t).updThread t fun x => { x with keepEpoch := x.keepEpoch + 1 }

/-- pfence.keep (R190). -/
def execPfenceKeep (s : State) : Host.Outcome State Fault Refusal :=
  s.lanes fun r s t => .ok (((s.keepFence r t).commitAt r t).updThread t fun x => x.writeNone (s.env r t.cid))

/-- A store of a thread to the persistent window before its persist fence number `n` that is not durable (R190). -/
def State.keepPending (s : State) (t : TRef) (n : Nat) : Bool :=
  s.keepQ.any (fun w => w.by_ == some t && decide (w.epoch < n)) ||
    (s.col (s.crewCol t.cid)).pendingStores.any fun e =>
      e.cid == t.cid && e.store.tid == t.tid && keyRegion e.store.key == regKeep && decide (e.store.epoch < n)

/-- pfence.keep.wait (R190): it parks until the thread's earlier stores to the persistent window are durable.
Log entry 21, DEDUCED. -/
def execPfenceKeepWait (s : State) : Host.Outcome State Fault Refusal :=
  s.lanes fun r s t =>
    let fin (s1 : State) : ThrRes := .ok ((s1.commitAt r t).updThread t fun x => x.writeNone (s.env r t.cid))
    match r.keptOf t with
    | none =>
      let s1 := s.keepFence r t
      let n := (s1.thread t).keepEpoch
      if s1.keepPending t n then .park (s1.keep_ r.key t n) .keep else fin s1
    | some n => if s.keepPending t n then .park s .keep else fin s

/-! ## Stash and prefetch -/

/-- The IA of a space-0 range of `n` bytes that a workgroup may read and write (R191 subcode 6), or the
failure. Log entry 30, DEDUCED. -/
def State.stashIa (s : State) (wid : Nat) (g : DWord) (n : Nat) : Option Nat :=
  if ptrSpace g ≠ 0 then none
  else match s.check (s.whoWg wid) g n (permR ||| permW) false with
    | .ok (.global _ ia) => some ia
    | _ => none

/-- The subcode of a stash.map that traps (R191), the lowest that applies. Log entry 30, DEDUCED. -/
def State.stashErr (s : State) (w : Workgroup) (g : DWord) (o n : Nat) : Option Byte :=
  let ia := s.stashIa w.wid g n
  if o % 128 ≠ 0 ∨ n % 128 ≠ 0 ∨ n = 0 then some 1
  else if w.scratchSize < o + n then some 2
  else if w.stash.any fun e => overlaps e.off e.len o n then some 3
  else if w.stash.any fun e => match s.stashIa w.wid e.base e.len, ia with
      | some x, some y => overlaps x e.len y n
      | _, _ => false then some 4
  else if 16 ≤ w.stash.length then some 5
  else if ia.isNone ∨ ptrOff g % 128 ≠ 0 then some 6
  else none

/-- stash.map for one thread (R191): the lowest free index is allocated. Log entry 30, DEDUCED. -/
def stashMapThread (d a : Code) (b : BSrc) (r : Run) (s : State) (t : TRef) : ThrRes :=
  let e := s.env r t.cid
  let x := s.thread t
  let g := e.read64 x a
  let v := e.readB64 x b
  let w := s.wg (s.crew t.cid).wid
  let fin (s1 : State) (n : Word) : ThrRes := .ok (s1.updThread t fun y => y.writeLong e d 1 (.words [n]))
  if x.helper then fin s 0xffffffff#32
  else
    let o := fieldNat v 31 0
    let n := fieldNat v 63 32
    match s.stashErr w g o n with
    | some sub => .trap s (r.trap 0x49#8 sub (some g))
    | none =>
      let i := ((List.range 16).find? fun j => !w.stash.any fun y => y.idx == j).getD 0
      let new : StashEntry := ⟨i, o, n, g, (s.stashIa w.wid g n).getD 0, []⟩
      fin ((s.updWg w.wid fun y => { y with stash := y.stash ++ [new] }).dropStashLines w.wid [new]) (BitVec.ofNat 32 i)

/-- stash.map (R191). -/
def execStashMap (d a : Code) (b : BSrc) (s : State) : Host.Outcome State Fault Refusal :=
  s.lanes (popFirst (bCodes b) (stashMapThread d a b))

/-- stash.unmap and stash.flush for one thread (R192): `keepMap` says whether the mapping stays; a
write-back that meets a page fault is the thread's. Log entry 30, DEDUCED. -/
def stashEnd (keepMap : Bool) (b : BSrc) (r : Run) (s : State) (t : TRef) : ThrRes :=
  let e := s.env r t.cid
  let x := s.thread t
  let n := e.readB x b
  let w := s.wg (s.crew t.cid).wid
  let sel (y : StashEntry) : Bool := n == 0xffffffff#32 || y.idx == n.toNat
  if x.helper then .ok (s.updThread t fun y => y.writeNone e)
  else if n ≠ 0xffffffff#32 ∧ ¬ w.stash.any sel then .trap s (r.trap 0x49#8 7#8)
  else
    let s1 := (s.refindStash w.wid).flushStash w.wid sel
    match s1.stashStuck w.wid sel with
    | some (k, ia, ea) => .leave (s1.accessFault r t k ia ea 2#8)
    | none =>
      let s2 := if keepMap then s1
        else (s1.updWg w.wid fun y => { y with stash := y.stash.filter fun z => !sel z }).dropStashLines w.wid
          (w.stash.filter sel)
      .ok (s2.updThread t fun y => y.writeNone e)

/-- stash.unmap (R192). -/
def execStashUnmap (b : BSrc) (s : State) : Host.Outcome State Fault Refusal :=
  s.lanes (popFirst (bCodes b) (stashEnd false b))
/-- stash.flush (R192). -/
def execStashFlush (b : BSrc) (s : State) : Host.Outcome State Fault Refusal :=
  s.lanes (popFirst (bCodes b) (stashEnd true b))

/-- A line enters the device cache (R176, R193). -/
def State.lineFill (s : State) (ia k : Nat) : State :=
  (List.range 8).foldl (fun acc i =>
    if (keyPeer k).isSome then (acc.peerRead (k + 16 * i) 16).1 else acc.dcFill (k + 16 * i) (homeSlice ia)) s

/-- The line of a prefetch, taken into the device cache: its first IA and key, where the check passes, its page is
resident and the space has a place there (R176, R193). -/
def State.prefetchLine (s : State) (wid : Nat) (p : DWord) : Option (State × Nat × Nat) :=
  match s.check (s.whoWg wid) p 1 permR false with
  | .ok (.global sp ia) =>
    if sp = 4 then none
    else match s.translate (ia / 128 * 128) sp false with
    | .at s1 k => if s1.peerFails k 128 then none else some (s1.lineFill (ia / 128 * 128) k, ia / 128 * 128, k)
    | .pageFault .. => none
  | _ => none

/-- prefetch for one thread (R176, R193): the line goes into the device cache, and with b[0] = 0 one of space 0 into L1;
what cannot be done is dropped. Sectors that L1 holds are no miss, and a helper thread's prefetch does nothing (R11,
R344). Log entry 18, DEDUCED. -/
def prefetchThread (a : Code) (b : BSrc) (r : Run) (s : State) (t : TRef) : ThrRes :=
  let e := s.env r t.cid
  let x := s.thread t
  let fin (s1 : State) : ThrRes := .ok (s1.updThread t fun y => y.writeNone e)
  match (if x.helper then none else s.prefetchLine (s.crew t.cid).wid (e.read64 x a)) with
  | none => fin s
  | some (s1, ia, k) =>
    let missing := (List.range 8).filter fun i => ((s.col (s.crewCol t.cid)).l1Sector (ia + 16 * i)).isNone
    if bit (e.readB x b) 0 ∨ ptrSpace (e.read64 x a) ≠ 0 ∨ (s.stashAt ia).isSome ∨ missing.isEmpty then fin s1
    else match s1.missAt (s.crewCol t.cid) t.cid (ia / 128) k missing true false with
      | some s2 => fin s2
      | none => .park s1 .miss

/-- prefetch (R193). -/
def execPrefetch (a : Code) (b : BSrc) (s : State) : Host.Outcome State Fault Refusal :=
  s.lanes (popFirst (bCodes b) (prefetchThread a b))

end Sys2Proof.Machine
end

