-- ==== Sys2Proof/Machine/Device.lean ====
section
/-!
DEFINITION. The device's own accesses to addresses that software names (13 R452): stream data, frame
objects, status words, error records.
-/

namespace Sys2Proof.Machine

/-! ## The host's ports (16 R413, R417) -/

/-- The link of a PCIe port is up; a merged card has the one port A (R413). -/
def State.linkUp (s : State) (p : Port) : Bool :=
  match p with
  | .a => s.portAUp
  | .b => s.portBUp && !s.merged
/-- BAR0 and BAR2 are live on a port (R413, R435). -/
def State.barLive (s : State) (p : Port) : Bool := s.phase == .live && s.linkUp p

/-- A write by a port that is no lower half discards its staged half (R417). Log entry 64, DEDUCED. -/
def State.unstage (s : State) (p : Port) : State :=
  match p with
  | .a => { s with stagedA := none }
  | .b => { s with stagedB := none }
/-- The staged half of a port. -/
def State.staged? (s : State) (p : Port) : Option (Nat × Word) :=
  match p with
  | .a => s.stagedA
  | .b => s.stagedB

/-- A register written whole by a port whose BARs are live (R413, R417). -/
def State.hostWrite (s : State) (p : Port) (f : State → State) : Host.Outcome State Fault Refusal :=
  .next (if s.barLive p then f (s.unstage p) else s)

/-! ## The device's own accesses (13 R452) -/

/-- What an access of the device gives: bytes, a failure with its cause, a page fault. -/
inductive DevOut where
  | ok (s : State) (bs : List Byte)
  | bad (cause : Byte)
  | fault (kind ia : Nat) (ea : DWord)

/-- A byte of the device's access, once its pointer has been checked: `f` is what is done at the key. -/
def State.devByte (s : State) (ea : DWord) (d : Dest) (i : Nat) (write : Bool) (f : State → Nat → DevOut) :
    DevOut :=
  match d with
  | .scratch .. => .bad 0x42#8
  | .global .. => match s.locate (d.plus i) write with
    | .pageFault k a _ => .fault k a ea
    | .at s1 k =>
      if (s1.eccAt (s1.route k) 1).isSome then .bad 0x45#8
      else if s1.peerFails k 1 then .bad 0x44#8
      else f s1 k

/-- Bytes read; the spec states no value for a byte that the host refuses to give. -/
def devBytes (ea : DWord) (d : Dest) : Nat → Nat → List Byte → State → DevOut
  | 0, _, acc, s => .ok s acc
  | n + 1, i, acc, s => match s.devByte ea d i false fun s1 k =>
      if s1.hostFails k 1 then .ok { s1 with freeCtr := s1.freeCtr + 1 } [Config.freeByte 9 s1.freeCtr]
      else .ok s1 (s1.bytes k 1) with
    | .ok s1 bs => devBytes ea d n (i + 1) (acc ++ bs) s1
    | o => o

/-- Bytes that may be written. -/
def devCan (ea : DWord) (d : Dest) : Nat → Nat → State → DevOut
  | 0, _, s => .ok s []
  | n + 1, i, s => match s.devByte ea d i true fun s1 _ => .ok s1 [] with
    | .ok s1 _ => devCan ea d n (i + 1) s1
    | o => o

/-- Parts of some bytes put in place, sector by sector; what the host refuses is lost (R186, R318). -/
def devPut (ea : DWord) (d : Dest) : List (Nat × List Byte) → State → DevOut
  | [], s => .ok s []
  | x :: xs, s =>
    match s.devByte ea d x.1 true fun s1 k =>
        .ok (if s1.hostFails k x.2.length then s1 else s1.put k x.2) [] with
    | .ok s1 _ => devPut ea d xs s1
    | o => o

/-- `n` bytes read in a context; `align` as for an access of that size (R174, R452). -/
def State.devRead (s : State) (ctx : Nat) (p : DWord) (n : Nat) (align : Bool) : DevOut :=
  match s.check ⟨ctx, none⟩ p n permR align with
  | .error st => .bad (stepCause st)
  | .ok d => devBytes p d n 0 [] s

/-- Bytes written in a context: all of them, or none. -/
def State.devWrite (s : State) (ctx : Nat) (p : DWord) (bs : List Byte) (align : Bool) : DevOut :=
  if bs.isEmpty then .ok s []
  else match s.check ⟨ctx, none⟩ p bs.length permW align with
    | .error st => .bad (stepCause st)
    | .ok d => match devCan p d bs.length 0 s with
      | .ok s1 _ => devPut p d (sectorParts (ptrOff p) bs) s1
      | o => o

/-- The cause of a write that waits for no replay: PAGE_FAULT for a page fault (R452). -/
def DevOut.cause : DevOut → Option Byte
  | .ok .. => none
  | .bad c => some c
  | .fault .. => some 0x4a#8

/-- The KIND 3 record of a dropped write (R350, R452). -/
def State.devRecord (s : State) (ctx : Nat) (cause : Byte) (p : DWord) (launch : Word) : State :=
  s.writeRecord { cause := cause, kind := 3, access := 2, who := whoWord ctx 0 0 0, addr := p, time := s.time
                  launch := launch }

end Sys2Proof.Machine
end

