-- ==== Sys2Proof/Machine/Engine.lean ====
section
/-!
DEFINITION. What the engines share (09 R240 to R244, R250): their accesses byte by byte, their page faults
(13 R349, R353, R354), and the issue of an engine command by a thread.
-/

namespace Sys2Proof.Machine

/-! ## Engine accesses -/

/-- What an engine access gives: bytes, a failure with CAUSE and STEP (R248), a wait, a page fault. -/
inductive EngOut where
  | ok (s : State) (bs : List Byte)
  | fail (s : State) (cause step : Byte)
  | wait (s : State)
  | fault (s : State) (kind ia : Nat) (ea : DWord)

/-- STEP of a page that cannot be made resident: step 7 of R174. Log entry 24, DEDUCED. -/
def pageStep : Byte := 7#8

/-- One byte's checks and translation (R250): steps 2 to 6 of R174, determinism (14 R368), a pool without
power (R362). `f` is what is done at the key. Log entry 24, DEDUCED. -/
def State.engAt (s : State) (wid : Nat) (p : DWord) (write : Bool) (f : State → Nat → EngOut) : EngOut :=
  match s.check (s.whoWg wid) p 1 (if write then permW else permR) false with
  | .error st => .fail s (stepCause st) (BitVec.ofNat 8 st)
  | .ok d =>
    if (if write then s.engWriteFails wid p else s.detFails (s.wg wid) p .load) then .fail s 0x44#8 5#8
    else if ¬ write ∧ s.sharedWait wid p then .wait s
    else if s.poolDown d then .wait (s.wakePool d)
    else match s.locate d write with
      | .pageFault k ia _ => .fault s k ia p
      | .at s1 k =>
        if (s1.eccAt (s1.route k) 1).isSome then .fail s1 0x45#8 8#8
        else if s1.peerFails k 1 then .fail s1 0x44#8 9#8
        else f s1 k

/-- A byte read by an engine, as its workgroup's core has it (R297, R303). The spec states no value for a byte that
the host refuses to give. -/
def State.engByte (s : State) (wid : Nat) (p : DWord) : EngOut :=
  s.engAt wid p false fun s1 k =>
    if s1.hostFails k 1 then .ok { s1 with freeCtr := s1.freeCtr + 1 } [Config.freeByte 3 s1.freeCtr]
    else match s1.settleRead (s1.wg wid).col none false k 1 with
      | none => .wait s1
      | some s2 => .ok s2 (s2.coreView wid p k 1)

/-- Bytes read by an engine, from byte `i` of a pointer on. -/
def engBytes (wid : Nat) (p : DWord) : Nat → Nat → List Byte → State → EngOut
  | 0, _, acc, s => .ok s acc
  | n + 1, i, acc, s => match s.engByte wid (ptrAdd p i) with
    | .ok s1 bs => engBytes wid p n (i + 1) (acc ++ bs) s1
    | o => o

/-- `n` bytes read by an engine for a workgroup. -/
def State.engRead (s : State) (wid : Nat) (p : DWord) (n : Nat) : EngOut := engBytes wid p n 0 [] s

/-- Bytes that an engine may write, each checked first. -/
def engCan (wid : Nat) (p : DWord) : Nat → Nat → State → EngOut
  | 0, _, s => .ok s []
  | n + 1, i, s => match s.engAt wid (ptrAdd p i) true fun s1 _ => .ok s1 [] with
    | .ok s1 _ => engCan wid p n (i + 1) s1
    | o => o

/-- Parts of some bytes put in place, each in its sector; what the host refuses is lost (R250, R318). -/
def engPut (wid : Nat) (p : DWord) : List (Nat × List Byte) → State → EngOut
  | [], s => .ok s []
  | x :: xs, s =>
    match s.engAt wid (ptrAdd p x.1) true fun s1 k =>
        .ok (if s1.hostFails k x.2.length then s1 else s1.put k x.2) [] with
    | .ok s1 _ => engPut wid p xs s1
    | o => o

/-- Bytes written by an engine for a workgroup: all of them, or none. -/
def State.engWrite (s : State) (wid : Nat) (p : DWord) (bs : List Byte) : EngOut :=
  match engCan wid p bs.length 0 s with
  | .ok s1 _ => engPut wid p (sectorParts (ptrOff p) bs) s1
  | o => o

/-! ## Issue by a thread -/

/-- The classes that a pointer of an engine object may have: space 0, 1 or 2, with an alignment.
Log entry 39, DEDUCED. -/
def ptrOk (p : DWord) (align : Nat) : Bool := ptrOff p % align == 0 && decide (ptrSpace p ≤ 2)

/-- The release at an issue, of the widest effect (R240): the thread's region commits, its core's pending stores are
performed and every span sees them; none while one of them waits for its seal. -/
def State.issueAt (s : State) (r : Run) (t : TRef) : Option State := (s.commitHere r t).performed r.key.col t 5

/-- An issue that has to wait: its thread's region commits, and it would restart at the word (R180, R240).
Log entry 39, DEDUCED. -/
def State.issuePark (s : State) (r : Run) (t : TRef) (why : ParkWhy) : ThrRes := .park (s.commitHere r t) why

/-- What follows an issue's release, or its wait for a seal (R240). -/
def State.issue (s : State) (r : Run) (t : TRef) (f : State → ThrRes) : ThrRes :=
  match s.issueAt r t with
  | none => s.issuePark r t .seal
  | some s1 => f (s1.updThread t fun x => { x with regionPc := r.nextInstr, sealing := none })

/-- An object read at issue (R240), once the issue's release is done: its bytes, or how the thread leaves the word. Its
alignment is the instruction's own check, made before (R251, R254). An uncorrectable error has step 8, as R248 numbers
it. Log entry 39, DEDUCED. -/
def State.issueRead (s : State) (r : Run) (t : TRef) (p : DWord) (n : Nat) : Except ThrRes (State × List Byte) :=
  let wid := (s.crew t.cid).wid
  if s.sharedWait wid p ∨ s.sharedWait wid (ptrAdd p (n - 1)) then .error (s.issuePark r t .ticket)
  else match s.objDown wid p n with
  | some s1 => .error (s1.issuePark r t .other)
  | none => match s.issueAt r t with
    | none => .error (s.issuePark r t .seal)
    | some s0 => match s0.readObj wid p n false with
      | .acc st _ => .error (.trap s (r.accTrap st p))
      | .fault k ia ea => .error (.leave (s.commitFault r t k ia ea 1#8))
      | .ecc _ => .error (.trap s ⟨0x45#8, r.wordAddr, p, stepData r.word 8⟩)
      | .peer _ => .error (.trap s ⟨0x44#8, r.wordAddr, p, stepData r.word 9⟩)
      | .host _ => .error (.trap { s with freeCtr := s.freeCtr + 1 }
          ⟨0x48#8, r.wordAddr, p, Config.freeDWord 1 s.freeCtr⟩)
      | .ok s1 bs => .ok (s1, bs)

/-- A command enters its class's counter (R22), or parks: `f` hands it over under its operation number.
Log entry 39, DEDUCED. -/
def State.handOver (s : State) (r : Run) (t : TRef) (cls : EngClass) (f : State → Nat → State) : ThrRes :=
  if 255 ≤ (s.crew t.cid).count cls then s.issuePark r t .engine
  else s.issue r t fun s1 =>
    let (id, s2) := s1.fresh
    .ok (f (s2.addOp t.cid cls id) id)

/-- The first byte of a scratchpad range that fails R175. -/
def State.scratchHole (s : State) (w : Who) (p : DWord) (n : Nat) : Option DWord :=
  if n = 0 ∨ (ptrSpace p ≠ 1 ∧ ptrSpace p ≠ 2) ∨ (s.scratchCheck w p n).isSome then none
  else match s.scratchCheck w p 1 with
    | none => some p
    | some (x, o) =>
      some (ptrAdd p (min x.scratchSize ((s.col x.col).poolCurrent * 524288 - x.scratchBase) - o))

end Sys2Proof.Machine
end

