-- ==== Sys2Proof/Machine/Curd.lean ====
section
/-!
DEFINITION. The Curd machine (17 R419, R421, R423): a queue's registers and record, its packet and completion
runs, parking, errors, and every operation but LAUNCH.
-/

namespace Sys2Proof.Machine

/-! ## A run of a queue's program -/

/-- The program of a queue. -/
def State.program (s : State) (n : Nat) : CurdProgram :=
  (s.programs.find? fun p => p.num == n).getD { num := n, entryPkt := 0, entryDone := none, ops := [] }

/-- An operation of the run in progress in the queue whose turn it is. -/
def State.curdOp (s : State) (f : Nat → CurdRun → State) : Host.Outcome State Fault Refusal :=
  match s.turn with
  | .curd q => match (s.queue q).run with
    | some r => .next (f q r)
    | none => .fault .noPacket
  | _ => .fault .noPacket

/-- A run as it stands from now on. -/
def State.setCurd (s : State) (q : Nat) (r : CurdRun) : State := s.updQueue q fun x => { x with run := some r }
/-- A register of a queue. -/
def Queue.reg (x : Queue) (a : BitVec 4) : DWord := x.w[a.toNat]?.getD 0
/-- A register of a queue written. -/
def State.setW (s : State) (q : Nat) (a : BitVec 4) (v : DWord) : State :=
  s.updQueue q fun x => { x with w := x.w.setIfInBounds a.toNat v }

/-- The operation is complete; the next one is at index `n`. -/
def State.curdTo (s : State) (q : Nat) (r : CurdRun) (n : Nat) : State :=
  (match r.eng with
    | some id => s.dropEng id
    | none => s).setCurd q { r with index := n, park := .running, eng := none, cmd := none }
/-- The operation is complete; the next one follows. -/
def State.curdNext (s : State) (q : Nat) (r : CurdRun) : State := s.curdTo q r (r.index + 1)
/-- The operation writes wA and is complete. -/
def State.curdPut (s : State) (q : Nat) (r : CurdRun) (a : BitVec 4) (v : DWord) : State :=
  (s.setW q a v).curdNext q r
/-- The operation parks (R421). -/
def State.curdPark (s : State) (q : Nat) (r : CurdRun) (why : CurdPark) : State :=
  s.setCurd q { r with park := why }

/-- The packet that a run belongs to: HEAD for a packet run. The spec names none for a completion run. -/
def State.packetNo (s : State) (q : Nat) (r : CurdRun) : DWord × State :=
  if r.completion then (Config.freeDWord 9 s.freeCtr, { s with freeCtr := s.freeCtr + 1 })
  else ((s.queue q).head, s)

/-- LAUNCH of a report on a queue's packet (R350). -/
def packetWord (q : Nat) (packet : DWord) : Word := BitVec.ofNat 32 (q % 256 + packet.toNat % 2 ^ 24 * 256)

/-- The run is over; a packet run takes its packet off the ring (R320, R419). Log entry 55, DEDUCED. -/
def State.endCurd (s : State) (q : Nat) (r : CurdRun) (stop : Bool) : State :=
  let s1 := match r.eng with
    | some id => s.dropEng id
    | none => s
  { s1.updQueue q fun x => { x with run := none, head := if r.completion then x.head else x.head + 1
                                    stopped := x.stopped || stop } with
    turn := if s.turn = Turn.curd q then .idle else s.turn }

/-! ## Accesses and errors -/

/-- The report fields of an access of the front end: crew and thread are zero (R349, R419). -/
def State.faultWhoCurd (s : State) (q id : Nat) (packet : DWord) (access : Byte) : FaultWho :=
  { who := .engine id, ctx := (s.queue q).ctx, col := 0, launch := packetWord q packet
    access := access ||| 0x10#8 }

/-- A page fault parks the operation (R349, R419), which is executed again and counts once. -/
def State.curdFault (s : State) (q : Nat) (r : CurdRun) (kind ia : Nat) (ea : DWord) (access : Byte) : State :=
  let (id, s1) := match r.eng with
    | some id => (id, s)
    | none => s.fresh
  let (n, s2) := s1.packetNo q r
  (s2.opFault id (s2.faultWhoCurd q id n access) kind ia ea).setCurd q
    { r with park := .fault id, eng := some id, budget := r.budget + 1 }

/-- The error record of R423. -/
def curdErrorBytes (packet : DWord) (index err : Nat) (detail : Byte) : List Byte :=
  toLe 8 packet.toNat ++ toLe 2 index ++ [BitVec.ofNat 8 err, 0] ++ toLe 4 detail.toNat

/-- An error record written at ERR_AT; a page fault makes it wait, another failure leaves a KIND 3 record
(R423, R452). -/
def State.writeCurdError (s : State) (q : Nat) (e : CurdErr) : State :=
  let packet := dwAt e.bytes 0
  let gone (s : State) : State := (s.dropEng e.id).updQueue q fun y =>
    { y with errWait := y.errWait.filter fun x => x.id != e.id }
  match s.devWrite e.ctx e.at_ e.bytes true with
  | .ok s1 _ => gone s1
  | .bad c => gone (s.devRecord e.ctx c e.at_ (packetWord q packet))
  | .fault k ia ea => (s.opFault e.id { s.faultWhoCurd q e.id packet 2#8 with ctx := e.ctx } k ia ea).updQueue q fun y =>
      { y with errWait := if y.errWait.contains e then y.errWait else y.errWait ++ [e] }

/-- A Curd error (R423): the operation is abandoned, HEAD advances past the packet, the queue stops, the error
record is written. `err`: 1 budget, 2 access, 3 record, 4 admin, 5 handle. Log entry 55, DEDUCED. -/
def State.curdError (s : State) (q : Nat) (r : CurdRun) (err : Nat) (detail : Byte) : State :=
  let (n, s1) := s.packetNo q r
  let s2 := s1.endCurd q r true
  let x := s2.queue q
  if x.errAt = 0 then s2
  else
    let (id, s3) := s2.fresh
    s3.writeCurdError q ⟨id, x.ctx, x.errAt, curdErrorBytes n r.index err detail⟩

/-- An access of the run's operation: its earlier page fault has failed for good, or `acc` is tried.
Log entry 56, DEDUCED. -/
def State.curdAccess (s : State) (q : Nat) (r : CurdRun) (access : Byte) (acc : DevOut)
    (bad : State → Byte → State) (ok : State → List Byte → State) : State :=
  match r.eng.bind fun id => (s.eng id).failed with
  | some c => bad s c
  | none => match acc with
    | .ok s1 bs => ok s1 bs
    | .bad c => bad s c
    | .fault k ia ea => s.curdFault q r k ia ea access

/-- What an LD or ST pointer fails before the other checks: alignment, then the spaces that the operation takes
(R174, R419). Log entry 56, DEDUCED. -/
def curdPtrErr (p : DWord) : Option Byte :=
  if ptrOff p % 8 ≠ 0 then some 0x40#8
  else if ptrSpace p ≠ 0 ∧ ptrSpace p ≠ 4 then some 0x41#8 else none

/-! ## Registers and arithmetic (R419) -/

/-- An operation that writes wA from wA and wB. -/
def State.curdAlu (s : State) (a b : BitVec 4) (f : DWord → DWord → DWord) : Host.Outcome State Fault Refusal :=
  s.curdOp fun q r => s.curdPut q r a (f ((s.queue q).reg a) ((s.queue q).reg b))
/-- An operation that writes wA from wA and a constant. -/
def State.curdImm (s : State) (a : BitVec 4) (f : DWord → DWord) : Host.Outcome State Fault Refusal :=
  s.curdOp fun q r => s.curdPut q r a (f ((s.queue q).reg a))

/-- LDI (R419). -/
def execCurdLdi (a : BitVec 4) (i : BitVec 16) (s : State) : Host.Outcome State Fault Refusal :=
  s.curdImm a fun _ => i.setWidth 64
/-- LDH (R419). -/
def execCurdLdh (a : BitVec 4) (i : BitVec 16) (s : State) : Host.Outcome State Fault Refusal :=
  s.curdImm a fun x => (x <<< 16) ||| i.setWidth 64
/-- ADDI (R419). -/
def execCurdAddi (a : BitVec 4) (i : BitVec 16) (s : State) : Host.Outcome State Fault Refusal :=
  s.curdImm a fun x => x + i.signExtend 64
/-- MOV (R419). -/
def execCurdMov (a b : BitVec 4) (s : State) : Host.Outcome State Fault Refusal := s.curdAlu a b fun _ y => y
/-- ADD (R419). -/
def execCurdAdd (a b : BitVec 4) (s : State) : Host.Outcome State Fault Refusal := s.curdAlu a b fun x y => x + y
/-- SUB (R419). -/
def execCurdSub (a b : BitVec 4) (s : State) : Host.Outcome State Fault Refusal := s.curdAlu a b fun x y => x - y
/-- AND (R419). -/
def execCurdAnd (a b : BitVec 4) (s : State) : Host.Outcome State Fault Refusal :=
  s.curdAlu a b fun x y => x &&& y
/-- OR (R419). -/
def execCurdOr (a b : BitVec 4) (s : State) : Host.Outcome State Fault Refusal :=
  s.curdAlu a b fun x y => x ||| y
/-- XOR (R419). -/
def execCurdXor (a b : BitVec 4) (s : State) : Host.Outcome State Fault Refusal :=
  s.curdAlu a b fun x y => x ^^^ y
/-- SHL (R419). -/
def execCurdShl (a : BitVec 4) (n : BitVec 6) (s : State) : Host.Outcome State Fault Refusal :=
  s.curdImm a fun x => x <<< n.toNat
/-- SHR (R419). -/
def execCurdShr (a : BitVec 4) (n : BitVec 6) (s : State) : Host.Outcome State Fault Refusal :=
  s.curdImm a fun x => x >>> n.toNat
/-- SLT (R419): unsigned. -/
def execCurdSlt (a b : BitVec 4) (s : State) : Host.Outcome State Fault Refusal :=
  s.curdAlu a b fun x y => if x.ult y then 1 else 0
/-- TIME (R419). -/
def execCurdTime (a : BitVec 4) (s : State) : Host.Outcome State Fault Refusal := s.curdImm a fun _ => s.time

/-! ## The packet and the record (R419) -/

/-- PKT (R419). In a completion run, and at an offset that R420 refuses, the spec states no word. -/
def execCurdPkt (a : BitVec 4) (i : BitVec 16) (s : State) : Host.Outcome State Fault Refusal :=
  s.curdOp fun q r =>
    if r.completion ∨ i.toNat % 8 ≠ 0 ∨ 120 < i.toNat then
      { s with freeCtr := s.freeCtr + 1 }.curdPut q r a (Config.freeDWord 10 s.freeCtr)
    else s.curdPut q r a (dwAt r.packet i.toNat)
/-- REC (R419). -/
def execCurdRec (a : BitVec 4) (i : BitVec 16) (s : State) : Host.Outcome State Fault Refusal :=
  s.curdOp fun q r => (s.updQueue q fun x =>
    { x with record := setBytes x.record i.toNat (toLe 8 (x.reg a).toNat) }).curdNext q r
/-- RECPKT (R419). In a completion run the spec states no packet. -/
def execCurdRecpkt (s : State) : Host.Outcome State Fault Refusal :=
  s.curdOp fun q r =>
    let bs := if r.completion then (List.range 128).map fun i => Config.freeByte 10 (s.freeCtr + i)
      else bytesAt r.packet 0 128
    ({ s with freeCtr := if r.completion then s.freeCtr + 128 else s.freeCtr }.updQueue q fun x =>
      { x with record := bs }).curdNext q r

/-! ## Memory (R419) -/

/-- The pointer of LD and ST. -/
def State.curdPtr (s : State) (q : Nat) (b : BitVec 4) (i : BitVec 16) : DWord :=
  (s.queue q).reg b + i.signExtend 64

/-- LD (R419). -/
def execCurdLd (a b : BitVec 4) (i : BitVec 16) (s : State) : Host.Outcome State Fault Refusal :=
  s.curdOp fun q r =>
    let p := s.curdPtr q b i
    match curdPtrErr p with
    | some c => s.curdError q r 2 c
    | none => s.curdAccess q r 1#8 (s.devRead (s.queue q).ctx p 8 true) (fun s1 c => s1.curdError q r 2 c)
        fun s1 bs => s1.curdPut q r a (dwAt bs 0)
/-- ST (R419). -/
def execCurdSt (a b : BitVec 4) (i : BitVec 16) (s : State) : Host.Outcome State Fault Refusal :=
  s.curdOp fun q r =>
    let p := s.curdPtr q b i
    match curdPtrErr p with
    | some c => s.curdError q r 2 c
    | none => s.curdAccess q r 2#8
        (s.devWrite (s.queue q).ctx p (toLe 8 ((s.queue q).reg a).toNat) true)
        (fun s1 c => s1.curdError q r 2 c) fun s1 _ => s1.curdNext q r

/-! ## Semaphores, time, launches (R419) -/

/-- The value of a semaphore. -/
def State.sem (s : State) (n : Nat) : DWord := s.sems[n]?.getD 0
/-- A semaphore set. -/
def State.setSem (s : State) (n : Nat) (v : DWord) : State := { s with sems := s.sems.setIfInBounds n v }

/-- SEMWAIT (R419): parks until the semaphore is reached. -/
def execSemwait (a : BitVec 4) (i : BitVec 16) (s : State) : Host.Outcome State Fault Refusal :=
  s.curdOp fun q r =>
    let v := (s.queue q).reg a
    if serialGe (s.sem i.toNat) v then s.curdNext q r else s.curdPark q r (.sem i.toNat v)
/-- SEMADD (R419, R414). -/
def execSemadd (a : BitVec 4) (i : BitVec 16) (s : State) : Host.Outcome State Fault Refusal :=
  s.curdOp fun q r => (s.setSem i.toNat (s.sem i.toNat + (s.queue q).reg a)).curdNext q r
/-- SEMSET (R419, R414). -/
def execSemset (a : BitVec 4) (i : BitVec 16) (s : State) : Host.Outcome State Fault Refusal :=
  s.curdOp fun q r => (s.setSem i.toNat ((s.queue q).reg a)).curdNext q r
/-- WTIME (R419): parks until TIME is reached. -/
def execWtime (a : BitVec 4) (s : State) : Host.Outcome State Fault Refusal :=
  s.curdOp fun q r =>
    let v := (s.queue q).reg a
    if t64ToNs v ≤ t64ToNs s.time then s.curdNext q r else s.curdPark q r (.time v)

/-- The launch and the status of one of the 256 launches that a queue issued last (R423). -/
def Queue.handle? (x : Queue) (h : DWord) : Option (Nat × Option Word) :=
  (x.handles.find? fun y => y.1 == h.toNat).map (·.2)

/-- LWAIT (R419, R423): parks until the launch completes. -/
def execLwait (a b : BitVec 4) (s : State) : Host.Outcome State Fault Refusal :=
  s.curdOp fun q r =>
    let h := (s.queue q).reg b
    match (s.queue q).handle? h with
    | none => s.curdError q r 5 0
    | some (_, some st) => s.curdPut q r a (st.setWidth 64)
    | some (_, none) => s.curdPark q r (.lwait h.toNat a)

/-! ## Control (R419) -/

/-- BZ (R419). -/
def execCurdBz (a : BitVec 4) (i : BitVec 16) (s : State) : Host.Outcome State Fault Refusal :=
  s.curdOp fun q r => if (s.queue q).reg a = 0 then s.curdTo q r (r.index + i.toNat) else s.curdNext q r
/-- BNZ (R419). -/
def execCurdBnz (a : BitVec 4) (i : BitVec 16) (s : State) : Host.Outcome State Fault Refusal :=
  s.curdOp fun q r => if (s.queue q).reg a = 0 then s.curdNext q r else s.curdTo q r (r.index + i.toNat)
/-- JMP (R419). -/
def execCurdJmp (i : BitVec 16) (s : State) : Host.Outcome State Fault Refusal :=
  s.curdOp fun q r => s.curdTo q r (r.index + i.toNat)
/-- LOOP (R419). -/
def execCurdLoop (a : BitVec 4) (i : BitVec 16) (s : State) : Host.Outcome State Fault Refusal :=
  s.curdOp fun q r =>
    let v := (s.queue q).reg a
    if v = 0 then s.curdNext q r else (s.setW q a (v - 1)).curdTo q r (r.index - i.toNat)
/-- DONE (R419). -/
def execCurdDone (s : State) : Host.Outcome State Fault Refusal := s.curdOp fun q r => s.endCurd q r false
/-- STOP (R419). Log entry 55, DEDUCED. -/
def execCurdStop (s : State) : Host.Outcome State Fault Refusal := s.curdOp fun q r => s.endCurd q r true

/-! ## Commands (R424) -/

/-- The fields of a command block (R424). -/
def Command.parse (bs : List Byte) (a : BitVec 4) : Command :=
  { op := bs.getD 0 0, arg := wAt bs 4, src := dwAt bs 8, len := dwAt bs 16, dst := dwAt bs 24, reg := a
    resv := natAt bs 1 3 == 0 }

/-- CMD (R424): the block is read, and the operation parks until its command is complete. Log entry 56, DEDUCED. -/
def execCurdCmd (a b : BitVec 4) (s : State) : Host.Outcome State Fault Refusal :=
  s.curdOp fun q r =>
    let x := s.queue q
    if ¬ x.admin then s.curdError q r 4 0
    else s.curdAccess q r 1#8 (s.devRead x.ctx (x.reg b) 32 false) (fun s1 _ => s1.curdPut q r a 6)
      fun s1 bs =>
        let c := Command.parse bs a
        if c.op = 0 ∨ 11 < c.op.toNat then s1.curdPut q r a 1
        else if ¬ c.resv then s1.curdPut q r a 2
        else s1.setCurd q { r with park := .command, cmd := some c }

/-! ## Packets, completions, resumption (R320, R421) -/

/-- No queue's program executes: every run is parked. -/
def State.curdIdle (s : State) : Bool :=
  s.queues.toList.all fun x => match x.run with
    | some r => r.park != .running
    | none => true

/-- A HANDOVER is in progress: no queue leaves its quiescent point and completions are held (R427).
Log entry 85, DEDUCED. -/
def State.handing (s : State) : Bool :=
  s.staged.isSome && s.queues.toList.any fun x => match x.run.bind (·.cmd) with
    | some c => c.op.toNat == 10
    | none => false

/-- A completion waits for ENTRY_DONE (R421). -/
def State.hasCompletion (s : State) (x : Queue) : Bool :=
  !x.completions.isEmpty && (s.program x.program).entryDone.isSome

/-- The front end may take a packet of the queue (R320, R421). -/
def State.canTake (s : State) (x : Queue) : Bool :=
  x.installed && !x.stopped && x.run.isNone && !s.handing && !s.hasCompletion x && x.head != x.tail

/-- The queue is the next one to be served (R320). -/
def State.nextServed (s : State) (q : Nat) : Bool :=
  ((List.range 256).map fun i => (s.lastServed + 1 + i) % 256).find? (fun n => s.canTake (s.queue n)) == some q

/-- The slot of a packet run read, and its program started (R320, R421). Log entry 56, DEDUCED. -/
def State.readPacket (s : State) (q : Nat) (r : CurdRun) : State :=
  let x := s.queue q
  let p := ptrAdd x.ring (128 * (x.head.toNat % x.slots))
  s.curdAccess q r 1#8 (s.devRead x.ctx p 128 true) (fun s1 c => s1.curdError q r 2 c)
    fun s1 bs => { s1.curdTo q { r with packet := bs, budget := 512 } r.index with turn := .curd q }

/-- CURD_PACKET (R320, R421). -/
def execCurdPacket (q : Nat) (s : State) : Host.Outcome State Fault Refusal :=
  if s.canTake (s.queue q) ∧ s.nextServed q ∧ s.curdIdle then
    .next ({ s with lastServed := q }.readPacket q { index := (s.program (s.queue q).program).entryPkt })
  else .next s

/-- CURD_COMPLETION_RUN (R421): w14 = the handle, w15 = the status word. -/
def execCurdCompletionRun (q : Nat) (s : State) : Host.Outcome State Fault Refusal :=
  let x := s.queue q
  match x.completions, (s.program x.program).entryDone with
  | (h, st) :: rest, some e =>
    if x.installed ∧ ¬ x.stopped ∧ x.run.isNone ∧ ¬ s.handing ∧ s.curdIdle then
      .next { (((s.setW q 14 (BitVec.ofNat 64 h)).setW q 15 (st.setWidth 64)).updQueue q fun y =>
        { y with completions := rest, run := some { index := e, completion := true } }) with turn := .curd q }
    else .next s
  | _, _ => .next s

/-- The bound fields of a launch are resolved (R422). -/
def State.launchBound (s : State) (x : Queue) (h : Nat) : Bool :=
  match x.handles.find? fun y => y.1 == h with
  | some (_, lid, _) => s.launches.all fun l => l.lid != lid || l.phase != .binding
  | none => true

/-- A parked operation whose condition holds goes on (R419, R421), but not from a quiescent point during a hand-over
(R427). -/
def State.curdWake (s : State) (q : Nat) (r : CurdRun) : State :=
  let go (t : State) : State := { t with turn := .curd q }
  let from_ (t : State) : State := if s.handing then s else go t
  match r.park with
  | .running | .command => s
  | .sem n v => if serialGe (s.sem n) v then from_ (s.curdNext q r) else s
  | .time t => if t64ToNs t ≤ t64ToNs s.time then from_ (s.curdNext q r) else s
  | .launch h => if s.launchBound (s.queue q) h then from_ (s.curdNext q r) else s
  | .lwait h a => match (s.queue q).handle? (BitVec.ofNat 64 h) with
    | some (_, some st) => from_ (s.curdPut q r a (st.setWidth 64))
    | _ => s
  | .fault id =>
    if ¬ s.engFree id then s
    else if r.packet.isEmpty ∧ ¬ r.completion then s.readPacket q r
    else go (s.setCurd q { r with park := .running })

/-- An error record that waited for its page is written, or given up (R452). -/
def State.curdErrRetry (s : State) (q : Nat) (e : CurdErr) : State :=
  if ¬ s.engFree e.id then s
  else match (s.eng e.id).failed with
    | some c => ((s.devRecord e.ctx c e.at_ (packetWord q (dwAt e.bytes 0))).dropEng e.id).updQueue q fun y =>
        { y with errWait := y.errWait.filter fun x => x.id != e.id }
    | none => s.writeCurdError q e

/-- CURD_RESUME (R421, R452). -/
def execCurdResume (q : Nat) (s : State) : Host.Outcome State Fault Refusal :=
  let s1 := (s.queue q).errWait.foldl (fun acc e => acc.curdErrRetry q e) s
  .next (match (s1.queue q).run with
    | some r => s1.curdWake q r
    | none => s1)

/-- CURD_BUDGET_EXHAUSTED (R421, R423). -/
def execCurdBudgetExhausted (q : Nat) (s : State) : Host.Outcome State Fault Refusal :=
  match (s.queue q).run with
  | some r => if r.park = .running ∧ r.budget = 0 then .next (s.curdError q r 1 0) else .next s
  | none => .next s

end Sys2Proof.Machine
end

