-- ==== Sys2Proof/Machine/CurdFetch.lean ====
section
/-!
DEFINITION. The next operation of a Curd program (17 R419, R421).
-/

namespace Sys2Proof.Machine

/-- One operation of a queue's packet or completion run: it counts in the budget; an exhausted budget
waits for CURD_BUDGET_EXHAUSTED (R421, R423). -/
noncomputable def State.fetchCurd (s : State) (q : Nat) : Fetched :=
  match (s.queue q).run with
  | none => .done s
  | some r =>
    if r.park ≠ .running ∨ r.budget = 0 then .done s
    else match (s.program (s.queue q).program).ops[r.index]? with
      | none => .done s
      | some w => match decodeCurd w with
        | none => .done s
        | some i => .exec i (s.updQueue q fun x => { x with run := some { r with budget := r.budget - 1 } })

end Sys2Proof.Machine
end

