-- ==== Sys2Proof/Machine/Integer.lean ====
section
/-!
DEFINITION. The integer functions of the lane and uniform instructions (04 R101 to R107, 06 R150, R151).
-/

namespace Sys2Proof.Machine

variable {w : Nat}

/-- The high half of a signed product (R101, R150). -/
def mulHiS (a b : BitVec w) : BitVec w := (a.signExtend (2 * w) * b.signExtend (2 * w)).extractLsb' w w
/-- The high half of an unsigned product (R101, R150). -/
def mulHiU (a b : BitVec w) : BitVec w := (a.setWidth (2 * w) * b.setWidth (2 * w)).extractLsb' w w
/-- a & ~b. -/
def andNot (a b : BitVec w) : BitVec w := a &&& ~~~b
/-- The smaller and larger of two values, signed and unsigned. -/
def minS (a b : BitVec w) : BitVec w := if b.slt a then b else a
def maxS (a b : BitVec w) : BitVec w := if a.slt b then b else a
def minU (a b : BitVec w) : BitVec w := if b.ult a then b else a
def maxU (a b : BitVec w) : BitVec w := if a.ult b then b else a
/-- The absolute value, modulo 2^w (R103). -/
def absS (a : BitVec w) : BitVec w := if a.msb then -a else a

/-- A left shift by an amount that may pass the width (R102, R151). -/
def shlBy (a : BitVec w) (s : Nat) : BitVec w := if s < w then a <<< s else 0
/-- A logical right shift (R102, R151). -/
def shrBy (a : BitVec w) (s : Nat) : BitVec w := if s < w then a >>> s else 0
/-- An arithmetic right shift (R102, R151). -/
def sarBy (a : BitVec w) (s : Nat) : BitVec w :=
  if s < w then a.sshiftRight s else if a.msb then BitVec.allOnes w else 0

/-- The low `len` bits of a value. -/
def lowBits (a : BitVec w) (len : Nat) : BitVec w := if len < w then a &&& BitVec.ofNat w (2 ^ len - 1) else a
/-- The low `len` bits sign-extended; 0 for a length of 0 (R104, R105, R151). -/
def sextBits (a : BitVec w) (len : Nat) : BitVec w :=
  if len = 0 then 0
  else if w ≤ len then a
  else if a.getLsbD (len - 1) then lowBits a len ||| (BitVec.allOnes w <<< len) else lowBits a len

/-- bfe with zeros above the top bit (R104, R151). -/
def bfeU (a : BitVec w) (pos len : Nat) : BitVec w := lowBits (a >>> pos) len
/-- bfe with copies of the top bit above it (R104, R151). -/
def bfeS (a : BitVec w) (pos len : Nat) : BitVec w := sextBits (a.sshiftRight pos) len
/-- bfi: `len` low bits of `x` placed at `pos` of `d` (R104, R151). -/
def bfiAt (d x : BitVec w) (pos len : Nat) : BitVec w :=
  let m : BitVec w := lowBits (BitVec.allOnes w) len <<< pos
  (d &&& ~~~m) ||| ((lowBits x len <<< pos) &&& m)

/-- Byte `k` of a word. -/
def byteOf (a : Word) (k : Nat) : Byte := a.extractLsb' (8 * k) 8
/-- A four-way byte dot product added to `d` (R107): how the bytes of a and of b extend. -/
def dp4 (ea eb : Byte → Word) (d a b : Word) : Word :=
  d + ((List.range 4).map fun k => ea (byteOf a k) * eb (byteOf b k)).foldl (· + ·) 0
/-- A byte sign-extended, and zero-extended, to 32 bits. -/
def sx8 (x : Byte) : Word := x.signExtend 32
def zx8 (x : Byte) : Word := x.setWidth 32

end Sys2Proof.Machine
end

