-- ==== Sys2Proof/Machine/LaneInt.lean ====
section
/-!
DEFINITION. The lane integer, address, move, compare and predicate instructions (04 R96 to R110).
-/

namespace Sys2Proof.Machine

/-- A two-source word: d from a and b. -/
def State.bin (s : State) (f : Word → Word → Word) (d a : Code) (b : BSrc) :
    Host.Outcome State Fault Refusal :=
  s.alu (a :: bCodes b) d fun e t => t.write32 e d (f (e.read32 t a) (e.readB t b))
/-- A two-source word whose second operand is sext(imm7) (R97). -/
def State.binImm (s : State) (f : Word → Word → Word) (d a : Code) (i : BitVec 7) :
    Host.Outcome State Fault Refusal :=
  s.alu [a] d fun e t => t.write32 e d (f (e.read32 t a) (i.signExtend 32))
/-- A word that also reads its d field (R98). -/
def State.tri (s : State) (f : Word → Word → Word → Word) (d a : Code) (b : BSrc) :
    Host.Outcome State Fault Refusal :=
  s.alu (a :: bCodes b) d fun e t =>
    t.write32 e d (f (e.read32 t d) (e.read32 t a) (e.readB t b))
/-- A one-source word. -/
def State.un (s : State) (f : Word → Word) (d a : Code) : Host.Outcome State Fault Refusal :=
  s.alu [a] d fun e t => t.write32 e d (f (e.read32 t a))
/-- A word from two pairs to a pair (R106). -/
def State.bin64 (s : State) (f : DWord → DWord → DWord) (d a : Code) (b : BSrc) :
    Host.Outcome State Fault Refusal :=
  s.alu (a :: bCodes b) d fun e t => t.write64 e d (f (e.read64 t a) (e.readB64 t b))
/-- The same with sext(imm7) (R106). -/
def State.bin64Imm (s : State) (f : DWord → DWord → DWord) (d a : Code) (i : BitVec 7) :
    Host.Outcome State Fault Refusal :=
  s.alu [a] d fun e t => t.write64 e d (f (e.read64 t a) (i.signExtend 64))

/-- add (R101). -/
def execAdd (d a : Code) (b : BSrc) (s : State) : Host.Outcome State Fault Refusal :=
  s.bin (· + ·) d a b
/-- add with sext(imm7) (R101). -/
def execAddImm (d a : Code) (i : BitVec 7) (s : State) : Host.Outcome State Fault Refusal :=
  s.binImm (· + ·) d a i
/-- sub (R101). -/
def execSub (d a : Code) (b : BSrc) (s : State) : Host.Outcome State Fault Refusal :=
  s.bin (· - ·) d a b
/-- sub with sext(imm7) (R101). -/
def execSubImm (d a : Code) (i : BitVec 7) (s : State) : Host.Outcome State Fault Refusal :=
  s.binImm (· - ·) d a i
/-- mul.lo (R101). -/
def execMulLo (d a : Code) (b : BSrc) (s : State) : Host.Outcome State Fault Refusal :=
  s.bin (· * ·) d a b
/-- mul.lo with sext(imm7) (R101). -/
def execMulLoImm (d a : Code) (i : BitVec 7) (s : State) : Host.Outcome State Fault Refusal :=
  s.binImm (· * ·) d a i
/-- mul.hi.i32 (R101). -/
def execMulHiI32 (d a : Code) (b : BSrc) (s : State) : Host.Outcome State Fault Refusal :=
  s.bin mulHiS d a b
/-- mul.hi.i32 with sext(imm7) (R101). -/
def execMulHiI32Imm (d a : Code) (i : BitVec 7) (s : State) : Host.Outcome State Fault Refusal :=
  s.binImm mulHiS d a i
/-- mul.hi.n32 (R101). -/
def execMulHiN32 (d a : Code) (b : BSrc) (s : State) : Host.Outcome State Fault Refusal :=
  s.bin mulHiU d a b
/-- mul.hi.n32 with sext(imm7) (R101). -/
def execMulHiN32Imm (d a : Code) (i : BitVec 7) (s : State) : Host.Outcome State Fault Refusal :=
  s.binImm mulHiU d a i
/-- and (R101). -/
def execAnd (d a : Code) (b : BSrc) (s : State) : Host.Outcome State Fault Refusal :=
  s.bin (· &&& ·) d a b
/-- and with sext(imm7) (R101). -/
def execAndImm (d a : Code) (i : BitVec 7) (s : State) : Host.Outcome State Fault Refusal :=
  s.binImm (· &&& ·) d a i
/-- or (R101). -/
def execOr (d a : Code) (b : BSrc) (s : State) : Host.Outcome State Fault Refusal :=
  s.bin (· ||| ·) d a b
/-- or with sext(imm7) (R101). -/
def execOrImm (d a : Code) (i : BitVec 7) (s : State) : Host.Outcome State Fault Refusal :=
  s.binImm (· ||| ·) d a i
/-- xor (R101). -/
def execXor (d a : Code) (b : BSrc) (s : State) : Host.Outcome State Fault Refusal :=
  s.bin (· ^^^ ·) d a b
/-- xor with sext(imm7) (R101). -/
def execXorImm (d a : Code) (i : BitVec 7) (s : State) : Host.Outcome State Fault Refusal :=
  s.binImm (· ^^^ ·) d a i
/-- andn (R101). -/
def execAndn (d a : Code) (b : BSrc) (s : State) : Host.Outcome State Fault Refusal :=
  s.bin andNot d a b
/-- andn with sext(imm7) (R101). -/
def execAndnImm (d a : Code) (i : BitVec 7) (s : State) : Host.Outcome State Fault Refusal :=
  s.binImm andNot d a i
/-- min.i32 (R101). -/
def execMinI32 (d a : Code) (b : BSrc) (s : State) : Host.Outcome State Fault Refusal :=
  s.bin minS d a b
/-- min.i32 with sext(imm7) (R101). -/
def execMinI32Imm (d a : Code) (i : BitVec 7) (s : State) : Host.Outcome State Fault Refusal :=
  s.binImm minS d a i
/-- max.i32 (R101). -/
def execMaxI32 (d a : Code) (b : BSrc) (s : State) : Host.Outcome State Fault Refusal :=
  s.bin maxS d a b
/-- max.i32 with sext(imm7) (R101). -/
def execMaxI32Imm (d a : Code) (i : BitVec 7) (s : State) : Host.Outcome State Fault Refusal :=
  s.binImm maxS d a i
/-- min.n32 (R101). -/
def execMinN32 (d a : Code) (b : BSrc) (s : State) : Host.Outcome State Fault Refusal :=
  s.bin minU d a b
/-- min.n32 with sext(imm7) (R101). -/
def execMinN32Imm (d a : Code) (i : BitVec 7) (s : State) : Host.Outcome State Fault Refusal :=
  s.binImm minU d a i
/-- max.n32 (R101). -/
def execMaxN32 (d a : Code) (b : BSrc) (s : State) : Host.Outcome State Fault Refusal :=
  s.bin maxU d a b
/-- max.n32 with sext(imm7) (R101). -/
def execMaxN32Imm (d a : Code) (i : BitVec 7) (s : State) : Host.Outcome State Fault Refusal :=
  s.binImm maxU d a i
/-- shl (R102). -/
def execShl (d a : Code) (b : BSrc) (s : State) : Host.Outcome State Fault Refusal :=
  s.bin (fun a b => shlBy a (fieldNat b 5 0)) d a b
/-- shl with sext(imm7) (R102). -/
def execShlImm (d a : Code) (i : BitVec 7) (s : State) : Host.Outcome State Fault Refusal :=
  s.binImm (fun a b => shlBy a (fieldNat b 5 0)) d a i
/-- shr.n (R102). -/
def execShrN (d a : Code) (b : BSrc) (s : State) : Host.Outcome State Fault Refusal :=
  s.bin (fun a b => shrBy a (fieldNat b 5 0)) d a b
/-- shr.n with sext(imm7) (R102). -/
def execShrNImm (d a : Code) (i : BitVec 7) (s : State) : Host.Outcome State Fault Refusal :=
  s.binImm (fun a b => shrBy a (fieldNat b 5 0)) d a i
/-- shr.i (R102). -/
def execShrI (d a : Code) (b : BSrc) (s : State) : Host.Outcome State Fault Refusal :=
  s.bin (fun a b => sarBy a (fieldNat b 5 0)) d a b
/-- shr.i with sext(imm7) (R102). -/
def execShrIImm (d a : Code) (i : BitVec 7) (s : State) : Host.Outcome State Fault Refusal :=
  s.binImm (fun a b => sarBy a (fieldNat b 5 0)) d a i
/-- rot (R102). -/
def execRot (d a : Code) (b : BSrc) (s : State) : Host.Outcome State Fault Refusal :=
  s.bin (fun a b => a.rotateLeft (fieldNat b 4 0)) d a b
/-- rot with sext(imm7) (R102). -/
def execRotImm (d a : Code) (i : BitVec 7) (s : State) : Host.Outcome State Fault Refusal :=
  s.binImm (fun a b => a.rotateLeft (fieldNat b 4 0)) d a i
/-- sext (R105). -/
def execSext (d a : Code) (b : BSrc) (s : State) : Host.Outcome State Fault Refusal :=
  s.bin (fun a b => sextBits a (fieldNat b 5 0)) d a b
/-- sext with sext(imm7) (R105). -/
def execSextImm (d a : Code) (i : BitVec 7) (s : State) : Host.Outcome State Fault Refusal :=
  s.binImm (fun a b => sextBits a (fieldNat b 5 0)) d a i
/-- zext (R105). -/
def execZext (d a : Code) (b : BSrc) (s : State) : Host.Outcome State Fault Refusal :=
  s.bin (fun a b => lowBits a (fieldNat b 5 0)) d a b
/-- zext with sext(imm7) (R105). -/
def execZextImm (d a : Code) (i : BitVec 7) (s : State) : Host.Outcome State Fault Refusal :=
  s.binImm (fun a b => lowBits a (fieldNat b 5 0)) d a i
/-- mad (R98, R101). -/
def execMad (d a : Code) (b : BSrc) (s : State) : Host.Outcome State Fault Refusal :=
  s.tri (fun d a b => d + a * b) d a b
/-- mad with sext(imm7) (R98, R101). -/
def execMadImm (d a : Code) (i : BitVec 7) (s : State) : Host.Outcome State Fault Refusal :=
  s.alu [a] d fun e t => t.write32 e d (e.read32 t d + e.read32 t a * i.signExtend 32)
/-- bfe.n32 (R104). -/
def execBfeN32 (d a : Code) (b : BSrc) (s : State) : Host.Outcome State Fault Refusal :=
  s.bin (fun a b => bfeU a (fieldNat b 4 0) (min (fieldNat b 13 8) 32)) d a b
/-- bfe.i32 (R104). -/
def execBfeI32 (d a : Code) (b : BSrc) (s : State) : Host.Outcome State Fault Refusal :=
  s.bin (fun a b => bfeS a (fieldNat b 4 0) (min (fieldNat b 13 8) 32)) d a b
/-- bfi (R98, R104). -/
def execBfi (d a : Code) (b : BSrc) (s : State) : Host.Outcome State Fault Refusal :=
  s.tri (fun d a b => bfiAt d a (fieldNat b 4 0) (min (fieldNat b 13 8) 32)) d a b
/-- dp4.i8 (R98, R107). -/
def execDp4I8 (d a : Code) (b : BSrc) (s : State) : Host.Outcome State Fault Refusal :=
  s.tri (dp4 sx8 sx8) d a b
/-- dp4.n8 (R98, R107). -/
def execDp4N8 (d a : Code) (b : BSrc) (s : State) : Host.Outcome State Fault Refusal :=
  s.tri (dp4 zx8 zx8) d a b
/-- dp4.i8n8 (R98, R107). -/
def execDp4I8n8 (d a : Code) (b : BSrc) (s : State) : Host.Outcome State Fault Refusal :=
  s.tri (dp4 sx8 zx8) d a b
/-- abs.i32 (R103). -/
def execAbsI32 (d a : Code) (s : State) : Host.Outcome State Fault Refusal :=
  s.un absS d a
/-- neg.i32 (R103). -/
def execNegI32 (d a : Code) (s : State) : Host.Outcome State Fault Refusal :=
  s.un (fun a => -a) d a
/-- clz (R103). -/
def execClz (d a : Code) (s : State) : Host.Outcome State Fault Refusal :=
  s.un BitVec.clz d a
/-- popc (R103). -/
def execPopc (d a : Code) (s : State) : Host.Outcome State Fault Refusal :=
  s.un BitVec.cpop d a
/-- brev (R103). -/
def execBrev (d a : Code) (s : State) : Host.Outcome State Fault Refusal :=
  s.un BitVec.reverse d a
/-- mov (R103). -/
def execMov (d a : Code) (s : State) : Host.Outcome State Fault Refusal :=
  s.un id d a
/-- add.64 (R106). -/
def execAdd64 (d a : Code) (b : BSrc) (s : State) : Host.Outcome State Fault Refusal :=
  s.bin64 (· + ·) d a b
/-- add.64 with sext(imm7) (R106). -/
def execAdd64Imm (d a : Code) (i : BitVec 7) (s : State) : Host.Outcome State Fault Refusal :=
  s.bin64Imm (· + ·) d a i
/-- sub.64 (R106). -/
def execSub64 (d a : Code) (b : BSrc) (s : State) : Host.Outcome State Fault Refusal :=
  s.bin64 (· - ·) d a b
/-- sub.64 with sext(imm7) (R106). -/
def execSub64Imm (d a : Code) (i : BitVec 7) (s : State) : Host.Outcome State Fault Refusal :=
  s.bin64Imm (· - ·) d a i
/-- lea.sN (R106). -/
def execLea (n : BitVec 2) (d a : Code) (b : BSrc) (s : State) : Host.Outcome State Fault Refusal :=
  s.alu (a :: bCodes b) d fun e t =>
    t.write64 e d (e.read64 t a + ((e.readB t b).setWidth 64 <<< n.toNat))
/-- lea.i.sN (R106). -/
def execLeaI (n : BitVec 2) (d a : Code) (b : BSrc) (s : State) : Host.Outcome State Fault Refusal :=
  s.alu (a :: bCodes b) d fun e t =>
    t.write64 e d (e.read64 t a + ((e.readB t b).signExtend 64 <<< n.toNat))
/-- movl (R108). -/
def execMovl (d : Code) (lit : Word) (s : State) : Host.Outcome State Fault Refusal :=
  s.alu [] d fun e t => t.write32 e d lit
/-- movi (R108). -/
def execMovi (d : Code) (i : BitVec 7) (s : State) : Host.Outcome State Fault Refusal :=
  s.alu [] d fun e t => t.write32 e d (i.signExtend 32)
/-- sel.pN (R108). -/
def execSel (n : BitVec 3) (d a : Code) (b : BSrc) (s : State) : Host.Outcome State Fault Refusal :=
  s.alu (a :: bCodes b) d fun e t =>
    t.write32 e d (if t.pred n then e.read32 t a else e.readB t b)
/-- The truth of an integer compare: type index 0 i32, 1 n32, 2 i64, 3 n64 (R109). -/
def LaneEnv.cmpInt (e : LaneEnv) (t : Thread) (k : BitVec 2) (cc : BitVec 4) (a : Code) (b : BSrc) : Bool :=
  let a32 := e.read32 t a
  let b32 := e.readB t b
  let a64 := e.read64 t a
  let b64 := e.readB64 t b
  match k.toNat with
  | 0 => intCond cc (a32 == b32) (a32.slt b32)
  | 1 => intCond cc (a32 == b32) (a32.ult b32)
  | 2 => intCond cc (a64 == b64) (a64.slt b64)
  | _ => intCond cc (a64 == b64) (a64.ult b64)

/-- cmp.cc.i32, .n32, .i64 and .n64 (R109). -/
def execCmpInteger (t : BitVec 2) (p : BitVec 3) (cc : BitVec 4) (a : Code) (b : BSrc) (s : State) : Host.Outcome State Fault Refusal :=
  s.alu (a :: bCodes b) 120#7 fun e x => x.writePred e p (e.cmpInt x t cc a b)
/-- plut (R110). -/
def execPlut (p : BitVec 3) (t : BitVec 4) (x y : BitVec 3) (s : State) : Host.Outcome State Fault Refusal :=
  s.alu [] 120#7 fun e th => th.writePred e p (plutBit t (th.pred x) (th.pred y))
/-- reorder (R118). -/
def execReorder (a : Code) (s : State) : Host.Outcome State Fault Refusal :=
  s.alu [a] 120#7 fun e t => { t.writeNone e with reorderKey := e.read32 t a }
/-- nop (R119). -/
def execNop (s : State) : Host.Outcome State Fault Refusal :=
  s.alu [] 120#7 fun e t => t.writeNone e
/-- join: no visible state but its latch (R117). -/
def execJoin (s : State) : Host.Outcome State Fault Refusal :=
  s.alu [] 120#7 fun e t => t.writeNone e

end Sys2Proof.Machine
end

