-- ==== Sys2Proof/Machine/Special.lean ====
section
/-!
DEFINITION. The special functions (05 R136): their exact cases, and elsewhere a free value that keeps the
bound of R136 (log entry 10). The functions are evaluated in fixed point with 400 fraction bits, far below
every bound.
-/

namespace Sys2Proof.Machine

/-- Fraction bits of the fixed-point evaluation. -/
def fxBits : Nat := 400
/-- One in fixed point. -/
def fxOne : Int := 2 ^ fxBits
/-- A product of fixed-point numbers. -/
def fxMul (a b : Int) : Int := a * b / fxOne
/-- A quotient of fixed-point numbers. -/
def fxDiv (a b : Int) : Int := a * fxOne / b

/-- The sum of x^(2i+1)/(2i+1), with alternating signs when `alt` (atan) or without (artanh). -/
def fxArc (alt : Bool) (x2 : Int) : Nat → Nat → Int → Int
  | 0, _, _ => 0
  | n + 1, i, p =>
    (if alt && i % 2 == 1 then -(p / (2 * i + 1 : Nat)) else p / (2 * i + 1 : Nat)) +
      fxArc alt x2 n (i + 1) (fxMul p x2)
/-- artanh of a number of magnitude at most 1/3. -/
def fxArtanh (x : Int) : Int := fxArc false (fxMul x x) 140 0 x
/-- atan of 1/k. -/
def fxAtanInv (k : Nat) : Int := fxArc true (fxOne / (k * k : Nat)) 180 0 (fxOne / k)
/-- ln 2. -/
def fxLn2 : Int := 2 * fxArtanh (fxOne / 3)
/-- π, by Machin's formula. -/
def fxPi : Int := 16 * fxAtanInv 5 - 4 * fxAtanInv 239
/-- The sum of x^i/i! in steps of `st` from i, with alternating signs when `alt`. -/
def fxSeries (st : Nat) (x : Int) : Nat → Nat → Int → Int
  | 0, _, _ => 0
  | n + 1, i, p => p + fxSeries st x n (i + st)
      (if st = 1 then fxMul p x / (i + 1 : Nat)
       else -(fxMul p x / ((i + 1) * (i + 2) : Nat)))
/-- exp of a number in 0 to 1. -/
def fxExp (x : Int) : Int := fxSeries 1 x 110 0 fxOne
/-- sin and cos of a number in 0 to 2. -/
def fxSin (x : Int) : Int := fxSeries 2 (fxMul x x) 80 1 x
def fxCos (x : Int) : Int := fxSeries 2 (fxMul x x) 80 0 fxOne

/-- A fixed-point number as an exact value. -/
def fxEx (x : Int) : Ex := .fin (decide (x < 0)) x.natAbs (2 ^ fxBits)
/-- A finite value in fixed point. -/
def fxOf (n : Bool) (a b : Nat) : Int := signed n a * fxOne / (b : Int)

/-- 2^x for a fixed-point x of moderate size. -/
def exp2Ex (x : Int) : Ex :=
  let n := x / fxOne
  let m := fxEx (fxExp (fxMul (x % fxOne) fxLn2))
  if 200 ≤ n then .pow2 200 else if n ≤ -400 then .pow2 (-400) else m.mul (.pow2 n)
/-- log2 of a positive value. -/
def log2Ex (a b : Nat) : Ex :=
  let e := floorLog2 a b
  let m : Int := (a * 2 ^ fxBits * 2 ^ (-e).toNat : Nat) / (b * 2 ^ e.toNat : Nat)
  fxEx (e * fxOne + fxDiv (2 * fxArtanh (fxDiv (m - fxOne) (m + fxOne))) fxLn2)
/-- sin(πx) for a fixed-point x in 0 to 2. -/
def sinPi (y : Int) : Int :=
  let h := fxOne / 2
  let core (z : Int) : Int :=
    if z ≤ h / 2 then fxSin (fxMul z fxPi)
    else if z ≤ h + h / 2 then fxCos (fxMul (if z ≤ h then h - z else z - h) fxPi)
    else fxSin (fxMul (fxOne - z) fxPi)
  if y ≤ fxOne then core y else -(core (y - fxOne))
/-- e^(-x) for a fixed-point x that is not negative. -/
def expNeg (x : Int) : Ex := exp2Ex (-(fxDiv x fxLn2))
/-- A quotient of two sums of exact values. -/
def ratio (xs ys : List Ex) : Ex := (Ex.sum false xs).div (Ex.sum false ys)

/-- The value of a special function at a finite operand that is no exact case: 0 rcp, 1 rsqrt, 2 sqrt,
3 exp2, 4 log2, 5 sinpi, 6 cospi, 7 tanh, 8 sigm (R136). Log entry 10, DESIGN CHOICE. -/
def specialEx (op : Nat) (n : Bool) (a b : Nat) : Ex :=
  let x := fxOf n a b
  let one := Ex.fin false 1 1
  match op with
  | 0 => .fin n b a
  | 1 => .fin false (Nat.sqrt (b * 2 ^ (2 * fxBits) / a)) (2 ^ fxBits)
  | 2 =>
    let q := a * 2 ^ (2 * fxBits) / b
    let r := Nat.sqrt q
    if r * r = q ∧ q * b = a * 2 ^ (2 * fxBits) then .fin false r (2 ^ fxBits)
    else .fin false (2 * r + 1) (2 ^ (fxBits + 1))
  | 3 => exp2Ex x
  | 4 => log2Ex a b
  | 5 => fxEx (sinPi (x % (2 * fxOne)))
  | 6 => fxEx (sinPi ((x + fxOne / 2) % (2 * fxOne)))
  | 7 =>
    let e := expNeg (2 * x.natAbs)
    let r := ratio [one, e.negate] [one, e]
    if n then r.negate else r
  | _ =>
    let e := expNeg x.natAbs
    if n then ratio [e] [one, e] else ratio [one] [one, e]

/-- ulp(v, FP32) (R95). -/
def ulp32 : Ex → Ex
  | .fin _ a b => .pow2 (max (if a = 0 then -126 else floorLog2 a b) (-126) - 23)
  | x => x

/-- The bound of R136 on the error of a special function at a value;
log2 in 0.5 to 2 has an absolute bound. -/
def specialBound (op : Nat) (a b : Nat) (v : Ex) : Ex :=
  match op with
  | 2 => .zero
  | 0 | 5 | 6 => ulp32 v
  | 4 => if b ≤ 2 * a ∧ a ≤ 2 * b then .pow2 (-22) else (ulp32 v).mul (.fin false 2 1)
  | _ => (ulp32 v).mul (.fin false 2 1)

/-- A result meets the bound, or is the nearest FP32 value. Log entry 10, DESIGN CHOICE. -/
def specialOk (op : Nat) (a b : Nat) (v : Ex) (r : Word) : Bool :=
  r == rnd v || match f32 r with
    | .fin .. => ((Ex.sum false [f32 r, v.negate]).abs).le (specialBound op a b v)
    | _ => false

/-- The fraction of a value in lowest terms is a power of two over a power of two. -/
def isPow2 (a b : Nat) : Bool := decide (a * 2 ^ (-(floorLog2 a b)).toNat = b * 2 ^ (floorLog2 a b).toNat)

/-- An exact case or special value of R136, for an operand. -/
def specialExact (op : Nat) (x : Ex) : Option Ex :=
  match op, x with
  | _, .nan => some .nan
  | 0, .inf n => some (.fin n 0 1)
  | 0, .fin n a b => if a = 0 then some (.inf n) else if isPow2 a b then some (.fin n b a) else none
  | 1, .inf n => some (if n then .nan else .zero)
  | 1, .fin n a _ => if a = 0 then some (.inf n) else if n then some .nan else none
  | 2, .inf n => some (if n then .nan else .inf false)
  | 2, .fin n a _ => if a = 0 then some x else if n then some .nan else none
  | 3, .inf n => some (if n then .zero else .inf false)
  | 3, .fin n a b =>
    if a % b = 0 then
      some (.pow2 (if n then -(min (a / b) 400 : Nat) else (min (a / b) 400 : Nat)))
    else none
  | 4, .inf n => some (if n then .nan else .inf false)
  | 4, .fin n a b =>
    if a = 0 then some (.inf true) else if n then some .nan
    else if isPow2 a b then some (.ofInt (floorLog2 a b)) else none
  | 5, .inf _ => some .nan
  | 5, .fin n a b =>
    if a = 0 then some (.fin n 0 1)
    else if a % b = 0 then some .zero
    else if 2 * a % b = 0 then
      some (if (2 * a / b % 4 == 1) != n then .fin false 1 1 else .fin true 1 1)
    else none
  | 6, .inf _ => some .nan
  | 6, .fin _ a b =>
    if a % b = 0 then some (if a / b % 2 = 0 then .fin false 1 1 else .fin true 1 1)
    else if 2 * a % b = 0 then some .zero else none
  | 7, .inf n => some (.fin n 1 1)
  | 7, .fin _ a _ => if a = 0 then some x else none
  | _, .inf n => some (if n then .zero else .fin false 1 1)
  | _, .fin _ a _ => if a = 0 then some (.fin false 1 2) else none

/-- The result of a special function on an FP32 pattern: the exact case, or the free value where it meets
the bound, or the nearest value (R136; log entry 10, DESIGN CHOICE). -/
def special (op : Nat) (w : Word) : Word :=
  match specialExact op (f32 w) with
  | some v => rnd v
  | none => match f32 w with
    | .fin n a b =>
      let v := specialEx op n a b
      let r := Config.freeSpecial op w
      if specialOk op a b v r then r else rnd v
    | _ => rnd .nan

end Sys2Proof.Machine
end

