-- ==== Sys2Proof/Machine/LaneFloat.lean ====
section
/-!
DEFINITION. The lane floating-point, conversion, quantisation and special-function instructions (05 R123 to
R137).
-/

namespace Sys2Proof.Machine

/-! ## Arithmetic -/

/-- A packed result: `f` gives the code of each element from its rounding and its index (R126). -/
def LaneEnv.packed (e : LaneEnv) (t : Thread) (ty : FTy) (r : BitVec 3) (f : Rnd → Nat → Ex) : Word :=
  let fm := fmtOf ty
  BitVec.ofNat 32 (pack fm ((List.range (elems ty)).map fun k =>
    let md := e.rnd t r k
    e.out fm (fm.round md (f md k))))

/-- An element's value in a word (R123). -/
def LaneEnv.elemVal (e : LaneEnv) (ty : FTy) (w : Word) (k : Nat) : Ex := e.val (fmtOf ty) (elem (fmtOf ty) w k)

/-- add, sub, mul and fma: `f` gives the exact result of an element from whether the rounding is toward −∞,
and the values of d, a and b (R126). Log entry 81, DEDUCED. -/
def State.floatOp (s : State) (ty : FTy) (r : BitVec 3) (f : Bool → Ex → Ex → Ex → Ex) (d a : Code)
    (b : BSrc) : Host.Outcome State Fault Refusal :=
  s.alu (a :: bCodes b) d fun e t =>
    let w := e.packed t ty r fun md k =>
      f md.down (e.elemVal ty (e.read32 t d) k) (e.elemVal ty (e.read32 t a) k)
        (e.elemVal ty (e.readB t b) k)
    (t.write32 e d w).countStoch e r (elems ty)

/-- A word that rounds one FP32 result by MODE.ROUND (R124). -/
def State.fp32Op (s : State) (srcs : List Code) (r : BitVec 3) (d : Code)
    (f : LaneEnv → Thread → Rnd → Ex) : Host.Outcome State Fault Refusal :=
  s.alu srcs d fun e t =>
    let md := e.rnd t r 0
    (t.write32 e d (BitVec.ofNat 32 (e.out fp32 (fp32.round md (f e t md))))).countStoch e r 1

/-- A word on element codes without rounding (R127, R128). -/
def State.codeOp (s : State) (ty : FTy) (f : Fmt → Nat → Nat → Nat) (d a : Code) (b : BSrc) :
    Host.Outcome State Fault Refusal :=
  s.alu (a :: bCodes b) d fun e t =>
    let fm := fmtOf ty
    t.write32 e d (BitVec.ofNat 32 (pack fm ((List.range (elems ty)).map fun k =>
      e.out fm (f fm (fm.flush e.daz (elem fm (e.read32 t a) k))
        (fm.flush e.daz (elem fm (e.readB t b) k))))))

/-- The smaller of two codes that are not NaN: −0 below +0 (R127). -/
def Fmt.minCode (f : Fmt) (x y : Nat) : Nat :=
  if (f.value x).lt (f.value y) then x else if (f.value y).lt (f.value x) then y
  else if f.sign x then x else y
/-- The larger of two codes that are not NaN (R127). -/
def Fmt.maxCodeOf (f : Fmt) (x y : Nat) : Nat :=
  if (f.value x).lt (f.value y) then y else if (f.value y).lt (f.value x) then x
  else if f.sign x then y else x
/-- min and max: NaN if either input is (R127). -/
def nanBoth (g : Fmt → Nat → Nat → Nat) (f : Fmt) (x y : Nat) : Nat :=
  if (f.value x).isNan || (f.value y).isNan then f.canonNan else g f x y
/-- minnum and maxnum: the other input if one is NaN (R127). -/
def nanOther (g : Fmt → Nat → Nat → Nat) (f : Fmt) (x y : Nat) : Nat :=
  if (f.value x).isNan then (if (f.value y).isNan then f.canonNan else y)
  else if (f.value y).isNan then x else g f x y

/-! ## Conversions -/

/-- The results of a narrowing conversion, one per element (R88, R132). -/
def LaneEnv.narrowed (e : LaneEnv) (t : Thread) (f : Fmt) (sat : Bool) (xs : List Ex) : List Nat :=
  (List.range xs.length).map fun k =>
    e.out f (f.narrow (e.rnd t 0#3 k) sat (xs.getD k .nan))

/-- The FP32 value of a word, with DAZ. -/
def LaneEnv.f32v (e : LaneEnv) (w : Word) : Ex := e.val fp32 w.toNat
/-- An exact widening (R132). -/
def LaneEnv.widen (e : LaneEnv) (f g : Fmt) (c : Nat) : Nat := e.out g (g.round .rn (e.val f c))
/-- A word from two 16-bit codes. -/
def halves (lo hi : Nat) : Word := BitVec.ofNat 32 (lo % 65536 + 65536 * (hi % 65536))

/-- How many elements a form of cvt rounds (R87). -/
def cvtRounds (k : Nat) : Nat :=
  if k < 4 ∨ k = 6 ∨ k = 7 then 1
  else if k = 8 ∨ k = 9 ∨ (12 ≤ k ∧ k < 16) ∨ k = 20 ∨ k = 21 then 2 else 0

/-- The result of cvt (R132). -/
def LaneEnv.cvt (e : LaneEnv) (t : Thread) (k : Nat) (sat : Bool) (d a b : Word) : Word :=
  let md := e.rnd t 0#3 0
  let x := e.f32v a
  let y := e.f32v b
  let int (lo hi : Int) : Word := BitVec.ofInt 32 (narrowInt lo hi md x)
  let real (v : Ex) : Word := BitVec.ofNat 32 (e.out fp32 (fp32.round md v))
  let lo16 := a.toNat % 65536
  let hi16 := a.toNat / 65536
  let two (f : Fmt) (v w : Ex) : List Nat := e.narrowed t f sat [v, w]
  let bytes8 (f : Fmt) : Nat := pack f (two f x y)
  let wide8 (f : Fmt) (h : Nat) : Word := halves (e.widen f fp16 (h % 256)) (e.widen f fp16 (h / 256))
  match k with
  | 0 => real (.ofInt a.toInt)
  | 1 => real (.fin false a.toNat 1)
  | 2 => int (-2 ^ 31) (2 ^ 31 - 1)
  | 3 => int 0 (2 ^ 32 - 1)
  | 4 => BitVec.ofNat 32 (e.widen fp16 fp32 lo16)
  | 5 => BitVec.ofNat 32 (e.widen bf16 fp32 lo16)
  | 6 => halves ((e.narrowed t fp16 sat [x]).headD 0) 0
  | 7 => halves ((e.narrowed t bf16 sat [x]).headD 0) 0
  | 8 => BitVec.ofNat 32 (pack fp16 (two fp16 x y))
  | 9 => BitVec.ofNat 32 (pack bf16 (two bf16 x y))
  | 10 => BitVec.ofNat 32 (e.widen fp16 fp32 hi16)
  | 11 => BitVec.ofNat 32 (e.widen bf16 fp32 hi16)
  | 12 => halves (bytes8 e4m3) (d.toNat / 65536)
  | 13 => halves d.toNat (bytes8 e4m3)
  | 14 => halves (bytes8 e5m2) (d.toNat / 65536)
  | 15 => halves d.toNat (bytes8 e5m2)
  | 16 => wide8 e4m3 lo16
  | 17 => wide8 e4m3 hi16
  | 18 => wide8 e5m2 lo16
  | 19 => wide8 e5m2 hi16
  | 20 => BitVec.ofNat 32 (pack bf16 (two bf16 (e.val fp16 lo16) (e.val fp16 hi16)))
  | 21 => BitVec.ofNat 32 (pack fp16 (two fp16 (e.val bf16 lo16) (e.val bf16 hi16)))
  | _ => 0

/-! ## Quantisation -/

/-- The floating-point format of a quantisation index; 5 and 6 are INT8 and INT4 (R56). -/
def qntFmt (f : BitVec 3) : Option Fmt :=
  match f.toNat with
  | 0 => some e4m3 | 1 => some e5m2 | 2 => some e3m2 | 3 => some e2m3 | 4 => some e2m1 | _ => none
/-- The bits of an integer quantisation format (R133). -/
def qntBits (f : BitVec 3) : Nat := if f = 5#3 then 8 else 4

/-- A quantised code (R133). -/
def LaneEnv.qntCode (e : LaneEnv) (f : BitVec 3) (md : Rnd) (sat : Bool) (x : Ex) : Nat :=
  match qntFmt f with
  | some fm => e.out fm (fm.narrow md sat x)
  | none =>
    let n := qntBits f
    (BitVec.ofInt n (narrowInt (-(2 ^ (n - 1) : Nat)) ((2 ^ (n - 1) : Nat) - 1) md x)).toNat

/-- The value of a quantised code (R135). -/
def LaneEnv.qntValue (e : LaneEnv) (f : BitVec 3) (c : Word) : Ex :=
  match qntFmt f with
  | some fm => e.val fm (c.toNat % 2 ^ fm.width)
  | none => .ofInt (sextNat (qntBits f) c.toNat)

/-- The rounding of qnt: MODE.ROUND, or the keyed draw of R134. -/
def LaneEnv.qntRnd (e : LaneEnv) (t : Thread) (rs : Bool) (d : Word) : Rnd :=
  if rs then
    let i : DWord := e.qntBase + d.setWidth 64
    .rs (stochDraw e.qntSeed (i.setWidth 32) (i.extractLsb' 32 32) e.qntTensor 1#32)
  else e.rnd t 0#3 0

/-! ## Special functions -/

/-- A special-function word: long-latency, ignoring MODE.ROUND (R136, R137). -/
def State.sfu (s : State) (op : Nat) (d a : Code) : Host.Outcome State Fault Refusal :=
  s.alu [a] 120#7 fun e t =>
    let x : Word := BitVec.ofNat 32 (fp32.flush e.daz (e.read32 t a).toNat)
    t.writeLong e d 1 (.words [BitVec.ofNat 32 (e.out fp32 (special op x).toNat)])

/-! ## The instructions -/

/-- add.f32, .f16x2 and .bf16x2 (R126). -/
def execFloatAdd (t : FTy) (r : BitVec 3) (d a : Code) (b : BSrc) (s : State) : Host.Outcome State Fault Refusal :=
  s.floatOp t r (fun dn _ x y => .sum dn [x, y]) d a b
/-- sub.f32, .f16x2 and .bf16x2 (R126). -/
def execFloatSub (t : FTy) (r : BitVec 3) (d a : Code) (b : BSrc) (s : State) : Host.Outcome State Fault Refusal :=
  s.floatOp t r (fun dn _ x y => .sum dn [x, y.negate]) d a b
/-- mul.f32, .f16x2 and .bf16x2 (R126). -/
def execFloatMul (t : FTy) (r : BitVec 3) (d a : Code) (b : BSrc) (s : State) : Host.Outcome State Fault Refusal :=
  s.floatOp t r (fun _ _ x y => x.mul y) d a b
/-- fma.f32, .f16x2 and .bf16x2 (R126). -/
def execFma (t : FTy) (r : BitVec 3) (d a : Code) (b : BSrc) (s : State) : Host.Outcome State Fault Refusal :=
  s.floatOp t r (fun dn z x y => .sum dn [z, x.mul y]) d a b
/-- min (R127). -/
def execFloatMin (t : FTy) (d a : Code) (b : BSrc) (s : State) : Host.Outcome State Fault Refusal :=
  s.codeOp t (nanBoth Fmt.minCode) d a b
/-- max (R127). -/
def execFloatMax (t : FTy) (d a : Code) (b : BSrc) (s : State) : Host.Outcome State Fault Refusal :=
  s.codeOp t (nanBoth Fmt.maxCodeOf) d a b
/-- minnum (R127). -/
def execMinnum (t : FTy) (d a : Code) (b : BSrc) (s : State) : Host.Outcome State Fault Refusal :=
  s.codeOp t (nanOther Fmt.minCode) d a b
/-- maxnum (R127). -/
def execMaxnum (t : FTy) (d a : Code) (b : BSrc) (s : State) : Host.Outcome State Fault Refusal :=
  s.codeOp t (nanOther Fmt.maxCodeOf) d a b
/-- abs.f32 (R128). -/
def execAbsF32 (d a : Code) (s : State) : Host.Outcome State Fault Refusal :=
  s.un (· &&& 0x7fffffff#32) d a
/-- neg.f32 (R128). -/
def execNegF32 (d a : Code) (s : State) : Host.Outcome State Fault Refusal :=
  s.un (· ^^^ 0x80000000#32) d a
/-- abs.f16x2 and abs.bf16x2 (R128). -/
def execAbsPacked (d a : Code) (s : State) : Host.Outcome State Fault Refusal :=
  s.un (· &&& 0x7fff7fff#32) d a
/-- neg.f16x2 and neg.bf16x2 (R128). -/
def execNegPacked (d a : Code) (s : State) : Host.Outcome State Fault Refusal :=
  s.un (· ^^^ 0x80008000#32) d a
/-- cmp.cc.f32 (R129). -/
def execCmpF32 (p : BitVec 3) (cc : BitVec 4) (a : Code) (b : BSrc) (s : State) : Host.Outcome State Fault Refusal :=
  s.alu (a :: bCodes b) 120#7 fun e t =>
    t.writePred e p (floatCond cc (e.f32v (e.read32 t a)) (e.f32v (e.readB t b)))
/-- dot2.f32.bf16x2 (R130). -/
def execDot2Bf16x2 (d a : Code) (b : BSrc) (s : State) : Host.Outcome State Fault Refusal :=
  s.fp32Op (a :: bCodes b) 0#3 d fun e t md =>
    let p (k : Nat) : Ex := (e.elemVal .bf16x2 (e.read32 t a) k).mul (e.elemVal .bf16x2 (e.readB t b) k)
    .sum md.down [e.f32v (e.read32 t d), p 0, p 1]
/-- dot2.f32.f16x2 (R130). -/
def execDot2F16x2 (d a : Code) (b : BSrc) (s : State) : Host.Outcome State Fault Refusal :=
  s.fp32Op (a :: bCodes b) 0#3 d fun e t md =>
    let p (k : Nat) : Ex := (e.elemVal .f16x2 (e.read32 t a) k).mul (e.elemVal .f16x2 (e.readB t b) k)
    .sum md.down [e.f32v (e.read32 t d), p 0, p 1]
/-- A signed 16-bit field of a pair (R140). -/
def field16 (x : DWord) (k : Nat) : Int := (x.extractLsb' (16 * k) 16).toInt
/-- csc.m3 (R140). -/
def execCscM3 (d a : Code) (b : BSrc) (s : State) : Host.Outcome State Fault Refusal :=
  s.fp32Op (a :: bCodes b) 0#3 d fun e t md =>
    let x := e.read64 t a
    let c := e.readB64 t b
    let comp (k : Nat) : Int := (x.extractLsb' (16 * k) 16).toNat
    let sum := field16 c 0 * comp 0 + field16 c 1 * comp 1 + field16 c 2 * comp 2 + field16 c 3 * 2 ^ 14
    if sum = 0 then .fin md.down 0 1 else .fin (decide (sum < 0)) sum.natAbs (2 ^ 14)
/-- csc.clip (R141). -/
def execCscClip (d a : Code) (b : BSrc) (s : State) : Host.Outcome State Fault Refusal :=
  s.alu (a :: bCodes b) d fun e t =>
    let lo : Int := ((e.readB t b).extractLsb' 0 16).toNat
    let hi : Int := ((e.readB t b).extractLsb' 16 16).toNat
    let v : Int := match e.f32v (e.read32 t a) with
      | .nan => lo
      | .inf n => if n then lo else hi
      | .fin n x y => min (max (signed n (roundIntMag (e.rnd t 0#3 0) n x y)) lo) hi
    (t.write32 e d (BitVec.ofInt 32 v)).countStoch e 0#3 1
/-- rnd.f32 (R131). -/
def execRndF32 (r : BitVec 3) (d a : Code) (s : State) : Host.Outcome State Fault Refusal :=
  s.fp32Op [a] r d fun e t md =>
    match e.f32v (e.read32 t a) with
    | .fin n x y => .fin n (roundIntMag md n x y) 1
    | v => v
/-- cvt (R132). -/
def execCvt (k : BitVec 5) (sat : Bool) (d a : Code) (b : BSrc) (s : State) : Host.Outcome State Fault Refusal :=
  s.alu (a :: if cvtReadsB k then bCodes b else []) d fun e t =>
    (t.write32 e d (e.cvt t k.toNat sat (e.read32 t d) (e.read32 t a) (e.readB t b))).countStoch e 0#3
      (cvtRounds k.toNat)
/-- qnt (R133, R134). -/
def execQnt (sat rs : Bool) (f : BitVec 3) (d a : Code) (b : BSrc) (s : State) : Host.Outcome State Fault Refusal :=
  s.alu (a :: bCodes b) d fun e t =>
    let md := e.qntRnd t rs (e.read32 t d)
    let x := (e.f32v (e.read32 t a)).div (e.f32v (e.readB t b))
    let t1 := t.write32 e d (BitVec.ofNat 32 (e.qntCode f md sat x))
    if rs then t1 else t1.countStoch e 0#3 1
/-- dqnt (R135). -/
def execDqnt (f : BitVec 3) (d a : Code) (b : BSrc) (s : State) : Host.Outcome State Fault Refusal :=
  s.fp32Op (a :: bCodes b) 0#3 d fun e t _ =>
    (e.qntValue f (e.read32 t a)).mul (e.f32v (e.readB t b))
/-- rcp (R136, R137). -/
def execRcp (d a : Code) (s : State) : Host.Outcome State Fault Refusal :=
  s.sfu 0 d a
/-- rsqrt (R136, R137). -/
def execRsqrt (d a : Code) (s : State) : Host.Outcome State Fault Refusal :=
  s.sfu 1 d a
/-- sqrt (R136, R137). -/
def execSqrt (d a : Code) (s : State) : Host.Outcome State Fault Refusal :=
  s.sfu 2 d a
/-- exp2 (R136, R137). -/
def execExp2 (d a : Code) (s : State) : Host.Outcome State Fault Refusal :=
  s.sfu 3 d a
/-- log2 (R136, R137). -/
def execLog2 (d a : Code) (s : State) : Host.Outcome State Fault Refusal :=
  s.sfu 4 d a
/-- sinpi (R136, R137). -/
def execSinpi (d a : Code) (s : State) : Host.Outcome State Fault Refusal :=
  s.sfu 5 d a
/-- cospi (R136, R137). -/
def execCospi (d a : Code) (s : State) : Host.Outcome State Fault Refusal :=
  s.sfu 6 d a
/-- tanh (R136, R137). -/
def execTanh (d a : Code) (s : State) : Host.Outcome State Fault Refusal :=
  s.sfu 7 d a
/-- sigm (R136, R137). -/
def execSigm (d a : Code) (s : State) : Host.Outcome State Fault Refusal :=
  s.sfu 8 d a

end Sys2Proof.Machine
end

