-- ==== Sys2Proof/Machine/Collective.lean ====
section
/-!
DEFINITION. Tile tables and collectives (09 R263, R264, 16 R404 to R412), Treldy Link ports and accesses of
peer cards (16 R400 to R403).
-/

namespace Sys2Proof.Machine

/-! ## Entries of a tile table -/

/-- The fields of an entry (R406). -/
def CollEntry.local_ (e : CollEntry) : DWord := dwAt e.fields 0
def CollEntry.result (e : CollEntry) : DWord := dwAt e.fields 8
def CollEntry.peers (e : CollEntry) : Word := wAt e.fields 24
def CollEntry.op (e : CollEntry) : Nat := natAt e.fields 28 1
def CollEntry.fmt (e : CollEntry) : Nat := natAt e.fields 29 1
def CollEntry.root (e : CollEntry) : Nat := natAt e.fields 30 1
def CollEntry.count (e : CollEntry) : Nat := natAt e.fields 32 4
def CollEntry.epoch (e : CollEntry) : Word := wAt e.fields 36
/-- E, the element size (R408). -/
def CollEntry.esize (e : CollEntry) : Nat := if e.fmt = 1 ∨ e.fmt = 2 then 2 else 4
/-- The bytes of one contribution (R408). -/
def CollEntry.bytes (e : CollEntry) : Nat := e.count * e.esize
/-- The members, in ascending order. -/
def CollEntry.members (e : CollEntry) : List Nat := (List.range 32).filter fun k => bit e.peers k

/-- The fields lie in their ranges (R406, R407). -/
def CollEntry.ok (e : CollEntry) (card : Nat) : Bool :=
  decide (e.op ≤ 4 ∧ e.fmt ≤ 3 ∧ e.count % 32 = 0 ∧ 32 ≤ e.count ∧ e.count ≤ 2 ^ 20) &&
    (if e.op = 3 then e.members.contains e.root else e.root == 0xff) &&
    e.members.contains card && decide (2 ≤ e.members.length) &&
    !nonzeroAt e.fields 31 1 && !nonzeroAt e.fields 44 4 && !nonzeroAt e.fields 56 8

/-! ## Reduction -/

/-- The format of FMT 0 to 2 (R406). -/
def collFmt : Nat → Fmt
  | 1 => bf16 | 2 => fp16 | _ => fp32

/-- Element `i` of a contribution. -/
def collElem (size : Nat) (bs : List Byte) (i : Nat) : Nat := natAt bs (size * i) size

/-- E_b of a block (R409): the elements of every member. -/
def blockExp (f : Fmt) (codes : List Nat) : Int :=
  ((codes.filterMap fun c => match f.value c with
    | .fin _ a b => if a = 0 then none else some (floorLog2 a b)
    | _ => none).foldl (fun m x => match m with
      | none => some x
      | some y => some (max x y)) (none : Option Int)).getD 0

/-- A contribution quantised at entry (R410). -/
def quantise (f : Fmt) (eb : Int) (c : Nat) : Int :=
  match (f.value c).mul (.pow2 (30 - eb)) with
  | .fin n a b => signed n (roundIntMag .rn n a b)
  | _ => 0

/-- The sum of one element over the members (R410). -/
def exactSum (f : Fmt) (eb : Int) (codes : List Nat) : Nat :=
  let vs := codes.map f.value
  let s := (codes.map (quantise f eb)).foldl (· + ·) 0
  let r := f.round .rn
  if vs.any Ex.isNan ∨ (vs.contains (.inf false) ∧ vs.contains (.inf true)) then f.canonNan
  else if vs.contains (.inf false) then r (.inf false)
  else if vs.contains (.inf true) then r (.inf true)
  else if s = 0 then f.code (codes.all f.sign) 0
  else r ((Ex.ofInt s).mul (.pow2 (eb - 30)))

/-- A signed 32-bit code. -/
def i32Of (c : Nat) : Int := (BitVec.ofNat 32 c).toInt

/-- A nonempty list folded. -/
def fold1 (g : Nat → Nat → Nat) : List Nat → Nat
  | [] => 0
  | x :: xs => xs.foldl g x

/-- Element `i` of the result of sum, max or min, from the members' contributions (R408 to R411). -/
def CollEntry.reduce (e : CollEntry) (ds : List (List Byte)) (i : Nat) : Nat :=
  let at_ (j : Nat) : List Nat := ds.map fun d => collElem e.esize d j
  let f := collFmt e.fmt
  match e.op, decide (e.fmt = 3) with
  | 0, true =>
    (max (-2147483648) (min 2147483647 (((at_ i).map i32Of).foldl (· + ·) 0)) % 4294967296).toNat
  | 0, false => exactSum f (blockExp f ((List.range 32).flatMap fun j => at_ (i / 32 * 32 + j))) (at_ i)
  | 1, true => fold1 (fun x y => if i32Of x < i32Of y then y else x) (at_ i)
  | 1, false => fold1 (nanBoth Fmt.maxCodeOf f) (at_ i)
  | _, true => fold1 (fun x y => if i32Of y < i32Of x then y else x) (at_ i)
  | _, false => fold1 (nanBoth Fmt.minCode f) (at_ i)

/-- What RESULT receives: pieces of bytes with their offsets (R408); `ds` the contributions by card. -/
def CollEntry.results (e : CollEntry) (ds : List (Nat × List Byte)) : List (Nat × List Byte) :=
  let of (k : Nat) : List Byte := bytesAt (((ds.find? fun d => d.1 == k).map (·.2)).getD []) 0 e.bytes
  match e.op with
  | 3 => [(0, of e.root)]
  | 4 => e.members.map fun k => (k * e.bytes, of k)
  | _ => [(0, (List.range e.count).flatMap fun i => toLe e.esize (e.reduce (e.members.map of) i))]

/-! ## coll.ready and coll.wait -/

/-- An entry's name: its context, its table, its index. -/
def CollEntry.name (e : CollEntry) : Nat × DWord × Nat := (e.ctx, e.table, e.index)

/-- The table is installed and has the entry (R263 subcode 1). -/
def State.hasTile (s : State) (n : Nat × DWord × Nat) : Bool :=
  s.tiles.any fun t => t.ctx == n.1 && t.addr == n.2.1 && decide (n.2.2 < t.len)
/-- The entry is ready and not complete. -/
def State.inProgress (s : State) (n : Nat × DWord × Nat) : Bool := s.colls.any fun e => e.name == n

/-- An entry of a crew over, its status written (R407): DONE_TIME, then STATUS with READY clear, then the counter.
Writes that fail are dropped. Log entry 52, DEDUCED. -/
def State.closeColl (s : State) (e : CollEntry) (status : Nat) (cause : Byte) : State :=
  let wid := (s.crew e.cid).wid
  let ea := ptrAdd e.table (64 * e.index)
  let poke (s : State) (off : Nat) (bs : List Byte) : State := match s.engWrite wid (ptrAdd ea off) bs with
    | .ok s1 _ => s1
    | _ => s
  let s1 := poke s 48 (toLe 8 s.time.toNat)
  let s2 := poke s1 40 (toLe 4 (status + cause.toNat * 256))
  ({ s2 with
    colls := s2.colls.filter fun x => x.id != e.id
    collDone := (e.name, status) :: s2.collDone.filter fun x => x.1 != e.name }.completeOp e.cid e.id).dropEng e.id

/-- An entry of a crew ends with a status and cause, the first that it met; the write of the status waits for its page
or pool (R349, R407). Log entry 52, DEDUCED. -/
def State.endEntry (s : State) (e : CollEntry) (status : Nat) (cause : Byte) : State :=
  let wid := (s.crew e.cid).wid
  let fin := e.ending.getD (status, cause)
  let note (s : State) : State := { s with colls := s.colls.map fun x =>
    if x.id == e.id then { x with ending := some fin } else x }
  if (s.eng e.id).failed.isSome then s.closeColl e fin.1 fin.2
  else match engCan wid (ptrAdd e.table (64 * e.index + 40)) 16 0 s with
    | .wait s1 => note s1
    | .fault s1 k ia ea => (note s1).engFault e.id wid k ia ea 2#8
    | _ => s.closeColl e fin.1 fin.2

/-- How many times a crew has readied an entry, and how many the service layer accepted (R244). -/
def seqOf {α : Type} [BEq α] (xs : List (α × Nat)) (k : α) : Nat := ((xs.find? fun x => x.1 == k).map (·.2)).getD 0
/-- One more. -/
def bumpSeq {α : Type} [BEq α] (xs : List (α × Nat)) (k : α) : List (α × Nat) :=
  (k, seqOf xs k + 1) :: xs.filter fun x => !(x.1 == k)

/-- coll.ready for one thread (R244, R263, R407): the ready flag is set by the issuing access, which can fail or fault
as R240 says; a full counter holds the thread only after that (R22). -/
def collReadyThread (a : Code) (b : BSrc) (r : Run) (s : State) (t : TRef) : ThrRes :=
  let e := s.env r t.cid
  let x := s.thread t
  let p := e.read64 x a
  let i := (e.readB x b).toNat
  let c := s.crew t.cid
  let name := ((s.crewLaunch t.cid).ctx, p, i)
  let mine : Nat × DWord × Nat := (t.cid, p, i)
  let fin (s1 : State) : State := (s1.updCrew t.cid fun y =>
    { y with collSeq := bumpSeq y.collSeq (p, i) }).updThread t fun y => y.writeNone e
  if x.helper then .ok ((s.commitAt r t).updThread t fun y => y.writeNone e)
  else if ¬ s.hasTile name then .trap s (r.trap 0x7b#8 1#8 (some p))
  else if seqOf c.collSeq (p, i) < seqOf s.collAcc mine then s.issue r t fun s1 => .ok (fin s1)
  else if s.inProgress name then .trap s (r.trap 0x7b#8 2#8 (some p))
  else match s.issueRead r t (ptrAdd p (64 * i)) 64 with
    | .error res => res
    | .ok (s0, bs) =>
      let ea := ptrAdd p (64 * i + 40)
      match engCan c.wid ea 4 0 s0 with
      | .fail s1 cause st => .trap s1 ⟨cause, r.wordAddr, ea, stepData r.word st.toNat⟩
      | .wait s1 => s1.issuePark r t .other
      | .fault s1 k ia p1 => .leave (s1.commitFault r t k ia p1 2#8)
      | .ok s1 _ => s1.handOver r t .collective fun s1 id =>
        let s2 := match s1.engWrite c.wid ea (toLe 4 (2 ^ 16 + natAt bs 41 1 * 256)) with
          | .ok s2 _ => s2
          | _ => s1
        let ent : CollEntry := {
          id := id, ctx := name.1, table := p, index := i, cid := t.cid, fields := bs, readiedAt := s2.timeNs }
        let s3 : State := { s2 with colls := s2.colls ++ [ent], collAcc := bumpSeq s2.collAcc mine }
        fin (if ent.ok s.cardId then s3 else s3.endEntry ent 3 0x7b#8)

/-- coll.ready (R263). -/
def execCollReady (a : Code) (b : BSrc) (s : State) : Host.Outcome State Fault Refusal :=
  s.lanes (collReadyThread a b)

/-- coll.wait for one thread (R264): DONE acquires at system scope (R298, R312). -/
def collWaitThread (d a : Code) (b : BSrc) (r : Run) (s : State) (t : TRef) : ThrRes :=
  let e := s.env r t.cid
  let x := s.thread t
  let p := e.read64 x a
  let name := ((s.crewLaunch t.cid).ctx, p, (e.readB x b).toNat)
  let fin (v : Nat) : ThrRes :=
    let s1 := if v = 0 ∧ ¬ x.helper then s.acquired (s.crewCol t.cid) 5 else s
    .ok (s1.updThread t fun y => y.write32 e d (BitVec.ofNat 32 v))
  if x.helper then fin 0
  else if ¬ s.hasTile name then .trap s (r.trap 0x7b#8 1#8 (some p))
  else if s.inProgress name then .park s .other
  else fin (((s.collDone.find? fun y => y.1 == name).map (·.2)).getD 2)

/-- coll.wait (R264). -/
def execCollWait (d a : Code) (b : BSrc) (s : State) : Host.Outcome State Fault Refusal :=
  s.lanesAll (thenPush (collWaitThread d a b))

/-! ## The exchange -/

/-- An entry in progress. -/
def State.coll (s : State) (id : Nat) : Option CollEntry := s.colls.find? fun e => e.id == id

/-- COLL_MESSAGE (R407): a member's contribution to an entry; another EPOCH is discarded. -/
def execCollMessage (e card : Nat) (epoch : Word) (data : List Byte) (s : State) :
    Host.Outcome State Fault Refusal :=
  .next (match s.coll e with
    | none => s
    | some x =>
      if x.epoch ≠ epoch ∨ card = s.cardId ∨ ¬ x.members.contains card ∨ x.heard.any (fun h => h.1 == card) then s
      else { s with colls := s.colls.map fun y =>
        if y.id == e then { y with heard := y.heard ++ [(card, data)] } else y })

/-- The last sign of life of a member for an entry (R405). Log entry 82, DEDUCED. -/
def State.lastBeat (s : State) (e : CollEntry) (card : Nat) : Nat :=
  max e.readiedAt (((s.beats.find? fun b => b.1 == card).map (·.2)).getD 0)

/-- COLL_TIMEOUT as it is read (R416). Log entry 66, DEDUCED. -/
def State.collNs (s : State) : Nat := max 200000 s.collTimeout

/-- A member is lost to this card (R405). Log entry 82, DEDUCED. -/
def State.lostMember (s : State) (e : CollEntry) (card : Nat) : Bool :=
  card != s.cardId && e.members.contains card &&
    (decide (s.lastBeat e card + s.collNs ≤ s.timeNs) ||
      (!e.heard.any (fun h => h.1 == card) && decide (e.readiedAt + s.collNs ≤ s.timeNs)))

/-- Pieces that may all be written, each byte checked. -/
def canPieces (wid : Nat) (base : DWord) : List (Nat × List Byte) → State → EngOut
  | [], s => .ok s []
  | (off, bs) :: ps, s => match engCan wid (ptrAdd base off) bs.length 0 s with
    | .ok s1 _ => canPieces wid base ps s1
    | o => o

/-- Pieces written. -/
def putPieces (wid : Nat) (base : DWord) : List (Nat × List Byte) → State → EngOut
  | [], s => .ok s []
  | (off, bs) :: ps, s => match engPut wid (ptrAdd base off) (sectorParts (ptrOff (ptrAdd base off)) bs) s with
    | .ok s1 _ => putPieces wid base ps s1
    | o => o

/-- RESULT written: all of its pieces, or none (R408, R412). Log entry 52, DEDUCED. -/
def writePieces (wid : Nat) (base : DWord) (ps : List (Nat × List Byte)) (s : State) : EngOut :=
  match canPieces wid base ps s with
  | .ok s1 _ => putPieces wid base ps s1
  | o => o

/-- The first check of LOCAL and RESULT: their alignment and space (R174, R406). Log entry 52, DEDUCED. -/
def tilePtrErr (p : DWord) : Option Byte :=
  if ptrOff p % 16 ≠ 0 then some 0x40#8 else if ptrSpace p ≠ 0 then some 0x41#8 else none

/-- The exchange of an entry proceeds on this card (R407): its own contribution is read and sent to the other members,
once. A read that fails ends the entry. Log entry 52, DEDUCED. -/
def State.sendLocal (s : State) (x : CollEntry) : State :=
  let wid := (s.crew x.cid).wid
  if x.mine.isSome ∨ x.ending.isSome ∨ ¬ s.engFree x.id then s
  else match (s.eng x.id).failed <|> tilePtrErr x.local_ <|> tilePtrErr x.result with
    | some cause => (s.engQuit x.id).endEntry x 3 cause
    | none => match s.engRead wid x.local_ x.bytes with
      | .wait s1 => s1
      | .fail s1 cause _ => s1.endEntry x 3 cause
      | .fault s1 k ia ea => s1.engFault x.id wid k ia ea 1#8
      | .ok s1 bs =>
        let s2 := s1.engPast x.id
        { s2 with
          colls := s2.colls.map fun y => if y.id == x.id then { y with mine := some bs } else y
          outbox := s2.outbox ++
            [.collData (x.members.filter fun k => k != s.cardId) x.epoch (dwAt x.fields 16) bs] }

/-- COLL_ENTRY_COMPLETION (R407 to R411): the exchange proceeds; once every member has contributed, RESULT is written.
Log entry 52, DEDUCED. -/
def execCollEntryCompletion (e : Nat) (s0 : State) : Host.Outcome State Fault Refusal :=
  .next (match s0.coll e with
    | none => s0
    | some x0 =>
      let s := s0.sendLocal x0
      match s.coll e with
      | none => s
      | some x =>
        let wid := (s.crew x.cid).wid
        let ready := x.members.all fun k => k == s.cardId || x.heard.any fun h => h.1 == k
        if ¬ s.engFree e then s
        else if x.ending.isSome then s.endEntry x 0 0
        else match x.mine, ready with
          | some mine, true => match (s.eng e).failed with
            | some cause => (s.engQuit e).endEntry x 3 cause
            | none => match writePieces wid x.result (x.results ((s.cardId, mine) :: x.heard)) s with
              | .wait s2 => s2
              | .fail s2 cause _ => s2.endEntry x 3 cause
              | .fault s2 k ia ea => s2.engFault e wid k ia ea 2#8
              | .ok s2 _ => (s2.engPast e).endEntry x 0 0
          | _, _ => s)

/-- COLL_HEARTBEAT (R405): a heartbeat of a card. -/
def execCollHeartbeat (card : Nat) (s : State) : Host.Outcome State Fault Refusal :=
  .next { s with beats := (card, s.timeNs) :: s.beats.filter fun b => b.1 != card }

/-- The heartbeats that the card sends, one every 100,000 ns, to every card in the PEERS mask of an entry in progress
(R405), when its clock has moved from a time. Log entry 82, DEDUCED. -/
def State.sendCollBeats (s : State) (old : Nat) : State :=
  let cards := (List.range 32).filter fun k => k != s.cardId && s.colls.any fun e => bit e.peers k
  if cards = [] then s
  else { s with outbox := s.outbox ++ List.replicate (s.timeNs / 100000 - old / 100000) (.collBeat cards) }

/-- PARTNER_LOST (R412): an entry whose member is lost. -/
def execPartnerLost (e card : Nat) (s : State) : Host.Outcome State Fault Refusal :=
  .next (match s.coll e with
    | none => s
    | some x => if s.lostMember x card ∧ x.ending.isNone then (s.engQuit e).endEntry x 1 0 else s)

/-- LINK_PROCESSOR_STOP (R404): every entry in progress ends with FAULT, and a KIND 3 record is written; the
spec names no cause for either: one of the codes of R346. Log entry 53, DEDUCED. -/
def execLinkProcessorStop (n : Nat) (s : State) : Host.Outcome State Fault Refusal :=
  let cause := anyCause (Config.freeByte 5 s.freeCtr)
  let s1 : State := { s with linkStopped := s.linkStopped.setIfInBounds n true, freeCtr := s.freeCtr + 1 }
  .next ((s1.colls.foldl (fun acc e => if e.ending.isSome then acc else (acc.engQuit e.id).endEntry e 3 cause) s1).writeRecord
    { cause := cause, kind := 3, time := s.time })

/-- LINK_PROCESSOR_IMAGE_START (17 R425): a staged image starts once no entry is in progress. -/
def execLinkProcessorImageStart (n : Nat) (s : State) : Host.Outcome State Fault Refusal :=
  .next (match s.linkStaged[n]?.getD none with
    | none => s
    | some i =>
      if s.colls.isEmpty then
        { s with linkImages := s.linkImages.setIfInBounds n i, linkStaged := s.linkStaged.setIfInBounds n none
                 linkStopped := s.linkStopped.setIfInBounds n false }
      else s)

/-! ## Links -/

/-- LINK_STATE_CHANGE (R400, R401); a port has 8 lanes. -/
def execLinkStateChange (port : Nat) (up : Bool) (lanes : BitVec 4) (s : State) :
    Host.Outcome State Fault Refusal :=
  let l := s.links[port]?.getD {}
  .next { s with links := s.links.setIfInBounds port { l with up := up, lanes := if up then (if lanes.ult 9#4 then lanes else 8#4) else 0 } }

/-- FLIT_RETRY (R400, R416): RETRIES saturates. -/
def execFlitRetry (port : Nat) (s : State) : Host.Outcome State Fault Refusal :=
  let l := s.links[port]?.getD {}
  let n : Byte := if l.retries = 0xff#8 then l.retries else l.retries + 1
  .next { s with links := s.links.setIfInBounds port { l with retries := n } }

/-! ## Accesses of peer cards -/

/-- The bytes of a peer's access and the permissions it needs (R271, R402). -/
def peerSize : PeerAcc → Nat
  | .read n => n
  | .write d => d.length
  | .atomic k _ _ => atomicSize k
  | .reduce k _ => atomSize k
def peerNeed : PeerAcc → BitVec 4
  | .read _ => permR
  | .write _ | .reduce .. => permW
  | .atomic .. => permRWA

/-- A window admits an access of a card (R402). Log entry 54, DEDUCED. -/
def InWindow.admits (w : InWindow) (card addr : Nat) (a : PeerAcc) : Bool :=
  bit w.ctl 7 && w.ctl.getLsbD (32 + card) && decide (card < 32) &&
    decide (fieldNat w.base 51 16 ≤ addr / 65536 ∧ addr / 65536 ≤ fieldNat w.limit 51 16 ∧
      (addr + peerSize a - 1) / 65536 ≤ fieldNat w.limit 51 16 ∧ addr < 2 ^ 52) &&
    (peerNeed a &&& w.ctl.setWidth 4) == peerNeed a

/-- The region behind a window and its size. Log entry 54, DEDUCED. -/
def InWindow.region (w : InWindow) : Nat × Nat := if bit w.ctl 4 then (regKeep, keepSize) else (regDram, dramSize)

/-- An admitted access performed at its home slice (R281, R402), in a stash entry's global range on the stash copy, which a
write fills first (R283). The spec states no data for a read of a sector
with an uncorrectable error. Log entry 54, DEDUCED. -/
def State.peerDo (s : State) (card k : Nat) (a : PeerAcc) : State :=
  let answer (s : State) (bs : List Byte) : State := { s with outbox := s.outbox ++ [.peerData card bs] }
  let n := peerSize a
  let s := (match a with
    | .read _ => s
    | _ => s.fillAll k n).dcFillAll k n
  let old : DWord := BitVec.ofNat 64 (leNat (s.bytes k n))
  let read (s : State) : State :=
    if (s.eccAt (s.route k) n).isSome then
      answer { s with freeCtr := s.freeCtr + n } ((List.range n).map fun i => Config.freeByte 6 (s.freeCtr + i))
    else answer s (s.bytes k n)
  match a with
  | .read _ => read s
  | .write d => s.putAll k d
  | .atomic op x y => match atomicNew op x y old with
    | some v => (read s).putAll k (toLe n v.toNat)
    | none => read s
  | .reduce op x => s.putAll k (toLe n (atomNew addF32 op old x).toNat)

/-- PEER_INBOUND_ACCESS (R402, R403). An address beyond the memory that a window names is not admitted.
Log entry 54, DEDUCED. -/
def execPeerInboundAccess (card addr : Nat) (a : PeerAcc) (s : State) : Host.Outcome State Fault Refusal :=
  .next (match s.inwins.toList.find? fun w => w.admits card addr a with
    | none => { s with outbox := s.outbox ++ [.refused card] }
    | some w =>
      if w.region.2 < addr + peerSize a then { s with outbox := s.outbox ++ [.refused card] }
      else s.peerDo card (mkKey w.region.1 addr) a)

end Sys2Proof.Machine
end

