-- ==== Sys2Proof/Machine/Control.lean ====
section
/-!
DEFINITION. The lane control transfers, exit and region (04 R111 to R122).
-/

namespace Sys2Proof.Machine

/-- A word that changes each thread's own registers and needs its run. -/
def State.mapRun (s : State) (f : Run → LaneEnv → Thread → Thread) : Host.Outcome State Fault Refusal :=
  match s.current with
  | none => .fault .noRun
  | some r => .next (s.onMembers r fun t => f r (s.env r t.cid) t)

/-- The target of an LB word (R112). -/
def Run.branchTarget (r : Run) (o : BitVec 17) : DWord := r.wordAddr + (o.signExtend 64 <<< 2)
/-- The number of the register pair lr (R15). -/
def Thread.lrNum (t : Thread) : Nat := t.allot - 4
/-- lr (R15). -/
def Thread.lr (t : Thread) : DWord := t.pair t.lrNum
/-- A branch condition (R112): predicate and sense. -/
def Thread.taken (t : Thread) (p : BitVec 3) (sense : Bool) : Bool := t.pred p != sense

/-- bra (R112). -/
def execBra (p : BitVec 3) (sense : Bool) (o : BitVec 17) (s : State) : Host.Outcome State Fault Refusal :=
  s.mapRun fun r e t =>
    let t1 := t.writeNone e
    if t.taken p sense then { t1 with jump := some (r.branchTarget o) } else t1

/-- call label, with a predicate (R113). -/
def execCall (p : BitVec 3) (sense : Bool) (o : BitVec 17) (s : State) : Host.Outcome State Fault Refusal :=
  s.mapRun fun r e t =>
    let t1 := t.writeNone e
    if t.taken p sense then
      { t1.setPair t.lrNum (r.wordAddr + 8) with jump := some (r.branchTarget o) }
    else t1

/-- A transfer to a register's target, for one thread: BAD_TARGET unless it is word-aligned (R114);
`f` is what else the transfer does. -/
def jumpTo (target : LaneEnv → Thread → DWord) (f : Run → Thread → Thread) (r : Run) (s : State) (t : TRef) :
    ThrRes :=
  let e := s.env r t.cid
  let a := target e (s.thread t)
  if fieldNat a 1 0 ≠ 0 then .trap s (r.trap 0x0a#8 0#8 (some a))
  else .ok (s.updThread t fun x => { (f r x).writeNone e with jump := some a })

/-- jmp pair (R114). -/
def execJmp (a : Code) (s : State) : Host.Outcome State Fault Refusal :=
  s.lanes (jumpTo (fun e x => e.read64 x a) fun _ x => x)

/-- call pair: a is read before lr is written (R113, R114). -/
def execCallRegister (a : Code) (s : State) : Host.Outcome State Fault Refusal :=
  s.lanes (jumpTo (fun e x => e.read64 x a) fun r x => x.setPair x.lrNum (r.wordAddr + 8))

/-- ret (R113, R114). -/
def execRet (s : State) : Host.Outcome State Fault Refusal :=
  s.lanes (jumpTo (fun _ x => x.lr) fun _ x => x)

/-- exit, for one thread (R115, R11): it leaves its run. -/
def exitLane (_ : Run) (s : State) (t : TRef) : ThrRes := .leave ((s.exitThread t).exitHelpers t.cid)

/-- exit (R115). -/
def execExit (s : State) : Host.Outcome State Fault Refusal := s.lanes exitLane

/-- region (R120): the open region commits, and REGION_PC is the next instruction word. -/
def execRegion (s : State) : Host.Outcome State Fault Refusal :=
  s.lanes fun r s t => .ok ((s.commitAt r t).updThread t fun x => x.writeNone (s.env r t.cid))

end Sys2Proof.Machine
end

