-- ==== Sys2Proof/Machine/Uniform.lean ====
section
/-!
DEFINITION. The uniform instructions: who executes one (06 R148, R149), integer operations (R150, R151),
control transfers (R152, R153) and memory accesses (R154, R155).
-/

namespace Sys2Proof

/-- The extension words of a uniform source (R45). -/
def USrc.ext : USrc → Nat
  | .lit _ => 1
  | _ => 0

end Sys2Proof

namespace Sys2Proof.Machine

/-! ## Who executes a uniform word -/

/-- A uniform word acts once for the crew of a crew run, or in a column's sequencer stream (R148). -/
inductive UAgent where
  | crew (r : Run) (cid : Nat)
  | seq (c : Nat)

/-- The agent whose word the machine executes. -/
def State.agent (s : State) : Option UAgent :=
  match s.turn with
  | .run k => (s.run? k).map fun r => .crew r (r.crewRun.getD (r.members.headD ⟨0, 0⟩).cid)
  | .seq c => some (.seq c)
  | _ => none

/-- A word executed by its agent. -/
def State.uni (s : State) (f : UAgent → State) : Host.Outcome State Fault Refusal :=
  match s.agent with
  | none => .fault .noRun
  | some a => .next (f a)

/-- A g register of the agent. -/
def State.ug (s : State) (a : UAgent) (n : UReg) : DWord :=
  match a with
  | .crew _ cid => gReg (s.crew cid).g n.toNat
  | .seq c => gReg (s.col c).seqr.g n.toNat

/-- A g register of the agent written. -/
def State.setUg (s : State) (a : UAgent) (n : UReg) (v : DWord) : State :=
  match a with
  | .crew _ cid => s.updCrew cid fun c => { c with g := c.g.setIfInBounds n.toNat v }
  | .seq c => s.updCol c fun x => { x with seqr := { x.seqr with g := x.seqr.g.setIfInBounds n.toNat v } }

/-- The value of a uniform source (R45): a latch holds one value in every member. Log entry 95, DEDUCED. -/
def State.uVal (s : State) (a : UAgent) : USrc → DWord
  | .reg n => s.ug a n
  | .lit w => w.signExtend 64
  | .latch n => match a with
    | .crew r _ => ((s.thread (r.members.headD ⟨0, 0⟩)).latch n.toNat).val64
    | .seq _ => 0

/-- The latches of a crew run's members take a uniform result (R23). Log entry 95, DEDUCED. -/
def State.uLatch (s : State) (r : Run) (v : DWord) : State :=
  r.members.foldl (fun acc t => acc.updThread t fun x => x.setLatch (r.pos % 8) (.uniform v)) s

/-- The word is complete: the latches take `v`, and the stream goes on; `n` is how many extension words the
word has. -/
def State.uNext (s : State) (a : UAgent) (v : DWord) (n : Nat) : State :=
  match a with
  | .crew r _ => (s.uLatch r v).updRun r.key Run.advance
  | .seq c => s.updCol c fun x =>
      { x with seqr := { x.seqr with pc := x.seqr.pc + BitVec.ofNat 64 (4 + 4 * n), parked := none,
                                     refaultCnt := 0, refaultUnit := none } }

/-- A result written to d, unless mod[3] sends it to the latch alone (R45, R148). -/
def State.uPut (s : State) (a : UAgent) (d : UReg) (lo : Bool) (v : DWord) (n : Nat) : State :=
  (if lo then s else s.setUg a d v).uNext a v n

/-- The word parks (R161, R342). -/
def State.uPark (s : State) (a : UAgent) (why : ParkWhy) : State :=
  match a with
  | .crew r _ => s.parkRun r.key false why
  | .seq c => s.updCol c fun x => { x with seqr := { x.seqr with parked := some why } }

/-- The address of the word. -/
def State.uAddr (s : State) : UAgent → DWord
  | .crew r _ => r.wordAddr
  | .seq c => (s.col c).seqr.pc

/-- A crew trap: every gathered member takes it (R169); in the sequencer's stream it faults the workgroup
(R171, R210). -/
def State.uTrap (s : State) (a : UAgent) (f : Run → TrapInfo) : State :=
  match a with
  | .crew r _ => (r.members.foldl (fun acc t => (acc.leaveRun r.key t).raise t (f r)) s).settle
  | .seq c =>
    let ti := f { Run.empty ⟨c, 0, 0⟩ with start := (s.col c).seqr.pc }
    s.seqTrap c ti.cause (bits ti.data 47 40) ti.addr

/-- The column of the agent. -/
def State.uCol (s : State) : UAgent → Nat
  | .crew _ cid => s.crewCol cid
  | .seq c => c

/-- The workgroup that the agent acts for. -/
def State.uWid (s : State) : UAgent → Nat
  | .crew _ cid => (s.crew cid).wid
  | .seq c => (s.col c).seqr.holder.getD 0

/-- The region of every gathered member commits (R155). -/
def State.uCommit (s : State) : UAgent → State
  | .crew r _ => r.members.foldl (fun acc t => acc.commitAt r t) s
  | .seq _ => s

/-- The same while the word has to wait: the members would restart at it (R155). -/
def State.uCommitHere (s : State) : UAgent → State
  | .crew r _ => r.members.foldl (fun acc t => acc.commitHere r t) s
  | .seq _ => s

/-- A uniform memory word that has to wait parks, its members' regions committed (R155). -/
def State.uWait (s : State) (a : UAgent) (why : ParkWhy) : State := (s.uCommitHere a).uPark a why

/-- A page fault of a uniform access: the members restart at the word; the sequencer parks there (R155). -/
def State.uFault (s : State) (a : UAgent) (kind ia : Nat) (ea : DWord) (access : Byte) : State :=
  match a with
  | .crew r _ => (r.members.foldl (fun acc t => acc.commitFault r t kind ia ea access) s).settle
  | .seq c => s.seqPageFault c kind ia ea access

/-- A boundary trap is due for every gathered member; the sequencer's workgroup faults (R182, R186, R403). -/
def State.uDue (s : State) (a : UAgent) (ti : TrapInfo) : State :=
  match a with
  | .crew r _ => r.members.foldl (fun acc t => acc.dueTrap t ti) s
  | .seq c => s.seqTrap c ti.cause (bits ti.data 47 40) ti.addr

/-- A binary operation (R148). -/
def State.uBin (s : State) (f : DWord → DWord → DWord) (d : UReg) (b : USrc) (lo : Bool) :
    Host.Outcome State Fault Refusal :=
  s.uni fun a => s.uPut a d lo (f (s.ug a d) (s.uVal a b)) b.ext
/-- The same with sext(imm13) (R148). -/
def State.uBinImm (s : State) (f : DWord → DWord → DWord) (d : UReg) (i : BitVec 13) :
    Host.Outcome State Fault Refusal :=
  s.uni fun a => s.uPut a d false (f (s.ug a d) (i.signExtend 64)) 0
/-- A unary operation on b (R148). -/
def State.uUn (s : State) (f : DWord → DWord) (d : UReg) (b : USrc) (lo : Bool) :
    Host.Outcome State Fault Refusal :=
  s.uBin (fun _ x => f x) d b lo
/-- A comparison: 1 or 0 (R150). -/
def State.uSet (s : State) (f : DWord → DWord → Bool) (d : UReg) (b : USrc) (lo : Bool) :
    Host.Outcome State Fault Refusal :=
  s.uBin (fun x y => if f x y then 1 else 0) d b lo

/-- The shift amount of R151. -/
def sh8 (b : DWord) : Nat := fieldNat b 7 0
/-- A rotation by b[5:0] (R151). -/
def rot64 (d b : DWord) : DWord := d.rotateLeft (fieldNat b 5 0)
/-- The length of a bit-field extract (R151). -/
def bfeLen (b : DWord) : Nat := min (fieldNat b 14 8) 64
/-- uniform bfi (R151). -/
def bfi64 (d b : DWord) : DWord := bfiAt d (b >>> 32) (fieldNat b 5 0) (min (fieldNat b 13 8) 32)
/-- The bits in reverse order. -/
def brev64 (b : DWord) : DWord := b.reverse
/-- Set bits. -/
def popc64 (b : DWord) : DWord :=
  BitVec.ofNat 64 ((List.range 64).foldl (fun acc i => acc + b2n (b.getLsbD i)) 0)

/-! ## Integer operations -/

/-- uniform add (R150). -/
def execUniformAdd (d : UReg) (b : USrc) (lo : Bool) (s : State) : Host.Outcome State Fault Refusal :=
  s.uBin (· + ·) d b lo
/-- uniform add with sext(imm13) (R150). -/
def execUniformAddImm (d : UReg) (i : BitVec 13) (s : State) : Host.Outcome State Fault Refusal :=
  s.uBinImm (· + ·) d i
/-- uniform sub (R150). -/
def execUniformSub (d : UReg) (b : USrc) (lo : Bool) (s : State) : Host.Outcome State Fault Refusal :=
  s.uBin (· - ·) d b lo
/-- uniform sub with sext(imm13) (R150). -/
def execUniformSubImm (d : UReg) (i : BitVec 13) (s : State) : Host.Outcome State Fault Refusal :=
  s.uBinImm (· - ·) d i
/-- uniform mul.lo (R150). -/
def execUniformMulLo (d : UReg) (b : USrc) (lo : Bool) (s : State) : Host.Outcome State Fault Refusal :=
  s.uBin (· * ·) d b lo
/-- uniform mul.lo with sext(imm13) (R150). -/
def execUniformMulLoImm (d : UReg) (i : BitVec 13) (s : State) : Host.Outcome State Fault Refusal :=
  s.uBinImm (· * ·) d i
/-- uniform mul.hi.i64 (R150). -/
def execUniformMulHiI64 (d : UReg) (b : USrc) (lo : Bool) (s : State) : Host.Outcome State Fault Refusal :=
  s.uBin mulHiS d b lo
/-- uniform mul.hi.i64 with sext(imm13) (R150). -/
def execUniformMulHiI64Imm (d : UReg) (i : BitVec 13) (s : State) : Host.Outcome State Fault Refusal :=
  s.uBinImm mulHiS d i
/-- uniform mul.hi.n64 (R150). -/
def execUniformMulHiN64 (d : UReg) (b : USrc) (lo : Bool) (s : State) : Host.Outcome State Fault Refusal :=
  s.uBin mulHiU d b lo
/-- uniform mul.hi.n64 with sext(imm13) (R150). -/
def execUniformMulHiN64Imm (d : UReg) (i : BitVec 13) (s : State) : Host.Outcome State Fault Refusal :=
  s.uBinImm mulHiU d i
/-- uniform shl (R151). -/
def execUniformShl (d : UReg) (b : USrc) (lo : Bool) (s : State) : Host.Outcome State Fault Refusal :=
  s.uBin (fun d b => shlBy d (sh8 b)) d b lo
/-- uniform shl with sext(imm13) (R151). -/
def execUniformShlImm (d : UReg) (i : BitVec 13) (s : State) : Host.Outcome State Fault Refusal :=
  s.uBinImm (fun d b => shlBy d (sh8 b)) d i
/-- uniform shr.n (R151). -/
def execUniformShrN (d : UReg) (b : USrc) (lo : Bool) (s : State) : Host.Outcome State Fault Refusal :=
  s.uBin (fun d b => shrBy d (sh8 b)) d b lo
/-- uniform shr.n with sext(imm13) (R151). -/
def execUniformShrNImm (d : UReg) (i : BitVec 13) (s : State) : Host.Outcome State Fault Refusal :=
  s.uBinImm (fun d b => shrBy d (sh8 b)) d i
/-- uniform shr.i (R151). -/
def execUniformShrI (d : UReg) (b : USrc) (lo : Bool) (s : State) : Host.Outcome State Fault Refusal :=
  s.uBin (fun d b => sarBy d (sh8 b)) d b lo
/-- uniform shr.i with sext(imm13) (R151). -/
def execUniformShrIImm (d : UReg) (i : BitVec 13) (s : State) : Host.Outcome State Fault Refusal :=
  s.uBinImm (fun d b => sarBy d (sh8 b)) d i
/-- uniform rot (R151). -/
def execUniformRot (d : UReg) (b : USrc) (lo : Bool) (s : State) : Host.Outcome State Fault Refusal :=
  s.uBin rot64 d b lo
/-- uniform rot with sext(imm13) (R151). -/
def execUniformRotImm (d : UReg) (i : BitVec 13) (s : State) : Host.Outcome State Fault Refusal :=
  s.uBinImm rot64 d i
/-- uniform and (R150). -/
def execUniformAnd (d : UReg) (b : USrc) (lo : Bool) (s : State) : Host.Outcome State Fault Refusal :=
  s.uBin (· &&& ·) d b lo
/-- uniform and with sext(imm13) (R150). -/
def execUniformAndImm (d : UReg) (i : BitVec 13) (s : State) : Host.Outcome State Fault Refusal :=
  s.uBinImm (· &&& ·) d i
/-- uniform or (R150). -/
def execUniformOr (d : UReg) (b : USrc) (lo : Bool) (s : State) : Host.Outcome State Fault Refusal :=
  s.uBin (· ||| ·) d b lo
/-- uniform or with sext(imm13) (R150). -/
def execUniformOrImm (d : UReg) (i : BitVec 13) (s : State) : Host.Outcome State Fault Refusal :=
  s.uBinImm (· ||| ·) d i
/-- uniform xor (R150). -/
def execUniformXor (d : UReg) (b : USrc) (lo : Bool) (s : State) : Host.Outcome State Fault Refusal :=
  s.uBin (· ^^^ ·) d b lo
/-- uniform xor with sext(imm13) (R150). -/
def execUniformXorImm (d : UReg) (i : BitVec 13) (s : State) : Host.Outcome State Fault Refusal :=
  s.uBinImm (· ^^^ ·) d i
/-- uniform andn (R150). -/
def execUniformAndn (d : UReg) (b : USrc) (lo : Bool) (s : State) : Host.Outcome State Fault Refusal :=
  s.uBin andNot d b lo
/-- uniform andn with sext(imm13) (R150). -/
def execUniformAndnImm (d : UReg) (i : BitVec 13) (s : State) : Host.Outcome State Fault Refusal :=
  s.uBinImm andNot d i
/-- uniform min.i64 (R150). -/
def execUniformMinI64 (d : UReg) (b : USrc) (lo : Bool) (s : State) : Host.Outcome State Fault Refusal :=
  s.uBin minS d b lo
/-- uniform max.i64 (R150). -/
def execUniformMaxI64 (d : UReg) (b : USrc) (lo : Bool) (s : State) : Host.Outcome State Fault Refusal :=
  s.uBin maxS d b lo
/-- uniform min.n64 (R150). -/
def execUniformMinN64 (d : UReg) (b : USrc) (lo : Bool) (s : State) : Host.Outcome State Fault Refusal :=
  s.uBin minU d b lo
/-- uniform max.n64 (R150). -/
def execUniformMaxN64 (d : UReg) (b : USrc) (lo : Bool) (s : State) : Host.Outcome State Fault Refusal :=
  s.uBin maxU d b lo
/-- uniform bfe.n64 (R151). -/
def execUniformBfeN64 (d : UReg) (b : USrc) (lo : Bool) (s : State) : Host.Outcome State Fault Refusal :=
  s.uBin (fun d b => bfeU d (fieldNat b 5 0) (bfeLen b)) d b lo
/-- uniform bfe.i64 (R151). -/
def execUniformBfeI64 (d : UReg) (b : USrc) (lo : Bool) (s : State) : Host.Outcome State Fault Refusal :=
  s.uBin (fun d b => bfeS d (fieldNat b 5 0) (bfeLen b)) d b lo
/-- uniform bfi (R151). -/
def execUniformBfi (d : UReg) (b : USrc) (lo : Bool) (s : State) : Host.Outcome State Fault Refusal :=
  s.uBin bfi64 d b lo
/-- uniform clz (R150). -/
def execUniformClz (d : UReg) (b : USrc) (lo : Bool) (s : State) : Host.Outcome State Fault Refusal :=
  s.uUn (fun b => b.clz) d b lo
/-- uniform popc (R150). -/
def execUniformPopc (d : UReg) (b : USrc) (lo : Bool) (s : State) : Host.Outcome State Fault Refusal :=
  s.uUn popc64 d b lo
/-- uniform brev (R150). -/
def execUniformBrev (d : UReg) (b : USrc) (lo : Bool) (s : State) : Host.Outcome State Fault Refusal :=
  s.uUn brev64 d b lo
/-- uniform mov (R150). -/
def execUniformMov (d : UReg) (b : USrc) (lo : Bool) (s : State) : Host.Outcome State Fault Refusal :=
  s.uUn id d b lo
/-- set.eq (R150). -/
def execSetEq (d : UReg) (b : USrc) (lo : Bool) (s : State) : Host.Outcome State Fault Refusal :=
  s.uSet (fun x y => x == y) d b lo
/-- set.ne (R150). -/
def execSetNe (d : UReg) (b : USrc) (lo : Bool) (s : State) : Host.Outcome State Fault Refusal :=
  s.uSet (fun x y => x != y) d b lo
/-- set.lt.i64 (R150). -/
def execSetLtI64 (d : UReg) (b : USrc) (lo : Bool) (s : State) : Host.Outcome State Fault Refusal :=
  s.uSet (fun x y => x.slt y) d b lo
/-- set.le.i64 (R150). -/
def execSetLeI64 (d : UReg) (b : USrc) (lo : Bool) (s : State) : Host.Outcome State Fault Refusal :=
  s.uSet (fun x y => x.sle y) d b lo
/-- set.gt.i64 (R150). -/
def execSetGtI64 (d : UReg) (b : USrc) (lo : Bool) (s : State) : Host.Outcome State Fault Refusal :=
  s.uSet (fun x y => y.slt x) d b lo
/-- set.ge.i64 (R150). -/
def execSetGeI64 (d : UReg) (b : USrc) (lo : Bool) (s : State) : Host.Outcome State Fault Refusal :=
  s.uSet (fun x y => y.sle x) d b lo
/-- set.lt.n64 (R150). -/
def execSetLtN64 (d : UReg) (b : USrc) (lo : Bool) (s : State) : Host.Outcome State Fault Refusal :=
  s.uSet (fun x y => x.ult y) d b lo
/-- set.le.n64 (R150). -/
def execSetLeN64 (d : UReg) (b : USrc) (lo : Bool) (s : State) : Host.Outcome State Fault Refusal :=
  s.uSet (fun x y => x.ule y) d b lo
/-- set.gt.n64 (R150). -/
def execSetGtN64 (d : UReg) (b : USrc) (lo : Bool) (s : State) : Host.Outcome State Fault Refusal :=
  s.uSet (fun x y => y.ult x) d b lo
/-- set.ge.n64 (R150). -/
def execSetGeN64 (d : UReg) (b : USrc) (lo : Bool) (s : State) : Host.Outcome State Fault Refusal :=
  s.uSet (fun x y => y.ule x) d b lo
/-- uniform movi (R150). -/
def execUniformMovi (d : UReg) (i : BitVec 13) (s : State) : Host.Outcome State Fault Refusal :=
  s.uBinImm (fun _ x => x) d i
/-- uniform movl (R150): two literal words. -/
def execUniformMovl (d : UReg) (v : DWord) (lo : Bool) (s : State) : Host.Outcome State Fault Refusal :=
  s.uni fun a => s.uPut a d lo v 2

/-! ## Control transfer -/

/-- A taken transfer: every gathered member's run ends at the target, or the sequencer goes there (R153). -/
def State.uJump (s : State) (a : UAgent) (target v : DWord) : State :=
  match a with
  | .crew r _ => (r.members.foldl (fun acc t => acc.updThread t fun x => { x with jump := some target }) s).uNext
      a v 0
  | .seq c => s.updCol c fun x => { x with seqr := { x.seqr with pc := target } }

/-- The target of a UB word (R152). -/
def State.uTarget (s : State) (a : UAgent) (o : BitVec 13) : DWord := s.uAddr a + (o.signExtend 64 <<< 2)

/-- A relative branch, taken or not. -/
def State.uBranch (s : State) (taken : UAgent → Bool) (o : BitVec 13) : Host.Outcome State Fault Refusal :=
  s.uni fun a => if taken a then s.uJump a (s.uTarget a o) 0 else s.uNext a 0 0

/-- bz (R152). -/
def execBz (g : UReg) (o : BitVec 13) (s : State) : Host.Outcome State Fault Refusal :=
  s.uBranch (fun a => s.ug a g == 0) o
/-- bnz (R152). -/
def execBnz (g : UReg) (o : BitVec 13) (s : State) : Host.Outcome State Fault Refusal :=
  s.uBranch (fun a => s.ug a g != 0) o
/-- br (R152). -/
def execBr (o : BitVec 13) (s : State) : Host.Outcome State Fault Refusal := s.uBranch (fun _ => true) o

/-- The return address of a call word: after the trailer, or in the sequencer's stream the next word (R152,
R153). -/
def State.uReturn (s : State) (a : UAgent) : DWord :=
  match a with
  | .crew .. => s.uAddr a + 8
  | .seq _ => s.uAddr a + 4

/-- uniform call (R152): the result of the word is the return address. -/
def execUniformCall (g : UReg) (o : BitVec 13) (s : State) : Host.Outcome State Fault Refusal :=
  s.uni fun a => (s.setUg a g (s.uReturn a)).uJump a (s.uTarget a o) (s.uReturn a)

/-- A jump to a value: BAD_TARGET unless it is word-aligned (R152). -/
def State.uGoto (s : State) (b : USrc) : Host.Outcome State Fault Refusal :=
  s.uni fun a =>
    let x := s.uVal a b
    if fieldNat x 1 0 ≠ 0 then s.uTrap a fun r => r.trap 0x0a#8 0#8 (some x) else s.uJump a x 0

/-- uniform jmp (R152). -/
def execUniformJmp (b : USrc) (_lo : Bool) (s : State) : Host.Outcome State Fault Refusal := s.uGoto b
/-- uniform ret (R152). -/
def execUniformRet (b : USrc) (_lo : Bool) (s : State) : Host.Outcome State Fault Refusal := s.uGoto b

/-! ## Memory access -/

/-- The crew index that a uniform store is logged under: 16 for the sequencer (14 R369). -/
def State.uCrew (s : State) : UAgent → Nat
  | .crew _ cid => (s.crew cid).idx
  | .seq _ => 16
/-- The crew and the thread that a uniform store belongs to: the lowest gathered member (14 R369).
Log entry 90, DEDUCED. -/
def UAgent.ref : UAgent → TRef
  | .crew r cid => ⟨cid, (r.members.map (·.tid)).min?.getD 0⟩
  | .seq c => ⟨noCid + c, 0⟩
/-- The other gathered members (R403). -/
def UAgent.others (a : UAgent) : List Nat :=
  match a with
  | .crew r _ => (r.members.map (·.tid)).filter fun t => t != a.ref.tid
  | .seq _ => []
/-- The word of the agent, for reports. -/
def UAgent.word : UAgent → Word
  | .crew r _ => r.word
  | .seq _ => 0

/-- Gathered members whose commit point has to be sealed first (R291, R323). -/
def State.uUnsealed (s : State) : UAgent → List TRef
  | .crew r _ => r.members.filter fun t => s.mustSeal t r.wordAddr
  | .seq _ => []
/-- The number of the word's own access, once the seal of its commit point is valid (R291). -/
def State.uSealedOwn (s : State) : UAgent → Option Nat
  | .crew r _ => r.members.findSome? fun t => (s.thread t).sealedOwn r.wordAddr
  | .seq _ => none
/-- Steps 1 and 2 of R291 for the gathered members: their held stores are numbered, then the word's own access. -/
def State.uSeal (s : State) (a : UAgent) (own : Option HeldStore) (rel : Bool) : State :=
  match a, (s.uUnsealed a).reverse with
  | .crew r _, t :: ts =>
    let shut (acc : State) (o : Option HeldStore) (u : TRef) : State := acc.sealAt u r.wordAddr r.nextInstr o rel
    (shut (ts.foldl (fun acc u => shut acc none u) s) own t).uPark a .seal
  | _, _ => s

/-- What commits the members' regions although the word's own access cannot be made yet: under RIND_MODE 1 regions that
hold stores are sealed first (R155, R291). -/
def State.uSealedFirst (s : State) (a : UAgent) (k : State) : State :=
  match a with
  | .crew r _ =>
    let due := (s.uUnsealed a).filter fun t => s.holdsStores t
    if due.isEmpty then k
    else (due.foldl (fun acc t => acc.sealAt t r.wordAddr r.wordAddr none) s).uPark a .seal
  | .seq _ => k

/-- A uniform access (R154, R155): the checks and the translation; `f` what it does at the key. -/
def State.uAccess (s : State) (a : UAgent) (p : DWord) (size : Nat) (kind : AccKind)
    (f : State → Dest → Nat → State) : State :=
  let wid := s.uWid a
  let ea := s.actEa wid p
  match s.memCheck wid ea size kind with
  | .error st => s.uTrap a fun r => r.accTrap st p
  | .ok d =>
    if kind ≠ .store ∧ s.sharedWait wid ea then s.uSealedFirst a (s.uWait a .ticket)
    else if s.poolDown d then s.uSealedFirst a ((s.wakePool d).uWait a .other)
    else match s.locate d (decide (kind ≠ .load)) with
      | .pageFault k ia _ => s.uSealedFirst a (s.uFault a k ia p kind.access)
      | .at s1 k => f s1 d k

/-- The result of a read that fails after its word (R182, R186, R403): d keeps its value, and what the latch
takes the spec does not state. Log entry 90, DEDUCED. -/
def State.uFailed (s : State) (a : UAgent) (ti : TrapInfo) (n : Nat) : State :=
  ({ s with freeCtr := s.freeCtr + 1 }.uNext a (Config.freeDWord 2 s.freeCtr) n).uDue a ti

/-- The same for a failed read as its readers report it. -/
def State.uFail (s : State) (a : UAgent) (v : PendVal) (n : Nat) : State :=
  match v with
  | .ecc sec pc => s.uFailed a ⟨0x45#8, 0, sec, pc⟩ n
  | .peer ea data => s.uFailed a ⟨0x44#8, 0, ea, data⟩ n
  | .host ea _ =>
    { s with freeCtr := s.freeCtr + 1 }.uFailed a ⟨0x48#8, 0, ea, Config.freeDWord 1 s.freeCtr⟩ n
  | _ => s

/-- A uniform load of `size` bytes, once the members' regions are committed; `f` extends the number read (R155, R211).
Log entry 90, DEDUCED. -/
def State.uLoad (s : State) (kind : ReadKind) (size : Nat) (f : Nat → DWord) (d : UReg) (b : USrc) (lo : Bool) :
    Host.Outcome State Fault Refusal :=
  s.uni fun a =>
    let ea := s.actEa (s.uWid a) (s.uVal a b)
    s.uAccess a (s.uVal a b) size .load fun s1 dst k =>
      let c := s1.uCol a
      let t := a.ref
      let strong := decide (3 ≤ kind.acquire)
      match (s1.uCommitHere a).settleRead c (some t) strong k size with
      | none => s1.uWait a .seal
      | some s2 => match (s2.acquired c kind.acquire).readBase c t.cid (s2.uWid a) (s2.uAddr a) a.word kind dst ea k size with
        | .full => s2.uPark a .miss
        | .fail v => (s2.uCommit a).uFail a v b.ext
        | .ok s3 base =>
          let s4 := if strong then s3.noteRead c t k size else s3
          (s4.uCommit a).uPut a d lo (f (leNat (s3.seen (some t) (s3.uWid a) ea k base))) b.ext

/-- The bytes of a uniform access of variant z (R154). -/
def uSize (z : BitVec 3) : Nat :=
  match z.toNat with
  | 0 | 4 => 1 | 1 | 5 => 2 | 2 | 6 => 4 | _ => 8
/-- The extension of a loaded number: variants 4 to 6 sign-extend (R154). -/
def uExt (z : BitVec 3) (x : Nat) : DWord :=
  match z.toNat with
  | 4 => (BitVec.ofNat 8 x).signExtend 64
  | 5 => (BitVec.ofNat 16 x).signExtend 64
  | 6 => (BitVec.ofNat 32 x).signExtend 64
  | _ => BitVec.ofNat 64 x

/-- uniform ld (R154). -/
def execUniformLd (z : BitVec 3) (d : UReg) (b : USrc) (lo : Bool) (s : State) :
    Host.Outcome State Fault Refusal := s.uLoad {} (uSize z) (uExt z) d b lo
/-- uniform ld.acq.dev (R154). -/
def execUniformLdAcqDev (d : UReg) (b : USrc) (lo : Bool) (s : State) : Host.Outcome State Fault Refusal :=
  s.uLoad { acquire := 4 } 8 (BitVec.ofNat 64) d b lo

/-- A uniform store to a scratchpad, performed at its position: after the core's pending stores to the same stash copy,
after what its agent has read if it is another column's, and, for a release, after everything before it; none while that
waits for a seal (R211, R304, R308). -/
def State.uScratch (s : State) (a : UAgent) (h : HeldStore) (rel : Bool) : Option State :=
  let c := s.uCol a
  ((if rel then s.performed c a.ref 4 else s.settleWrite c h.key h.op.size).bind fun s1 =>
    if keyRegion h.key = regScratch c then some s1 else s1.settleSeen c a.ref).map fun s2 => s2.applyStore a.ref.cid h

/-- A uniform store: the members' regions commit, and it is released at once (R155); `rel` says whether it is a release.
Log entry 90, DEDUCED. -/
def State.uStore (s : State) (rel : Bool) (size : Nat) (d : UReg) (b : USrc) : Host.Outcome State Fault Refusal :=
  s.uni fun a =>
    let ea := s.actEa (s.uWid a) (s.uVal a b)
    let x := s.ug a d
    if (s.uSealedOwn a).isSome then (s.uCommit a).uNext a 0 b.ext
    else s.uAccess a (s.uVal a b) size .store fun s1 dst k =>
      let t := a.ref
      let h : HeldStore := {
        tid := t.tid, key := k, op := .write (toLe size x.toNat), ea := ea, word := a.word, pc := s.uAddr a
        epoch := (s1.thread t).keepEpoch, also := a.others }
      let global : Bool := match dst with | .global .. => true | .scratch .. => false
      if ¬ (s1.uUnsealed a).isEmpty then s1.uSeal a (if global then some h else none) rel
      else
        let s2 := s1.uCommitHere a
        match (if global then some (s2.releaseAs (s2.uWid a) t.cid (s2.uCrew a) h rel) else s2.uScratch a h rel) with
        | some s3 => (s3.uCommit a).uNext a 0 b.ext
        | none => s2.uPark a .seal

/-- uniform st (R154). -/
def execUniformSt (z : BitVec 3) (d : UReg) (b : USrc) (s : State) : Host.Outcome State Fault Refusal :=
  s.uStore false (uSize z) d b
/-- uniform st.rel.dev (R154). -/
def execUniformStRelDev (d : UReg) (b : USrc) (s : State) : Host.Outcome State Fault Refusal :=
  s.uStore true 8 d b

end Sys2Proof.Machine
end

