-- ==== Sys2Proof/Machine/System.lean ====
section
/-!
DEFINITION. The uniform system instructions: system registers (06 R156 to R159), time and counters (R160 to
R162), tasks and yielding (R163 to R165), trapping, exit and return from a trap (R166 to R168).
-/

namespace Sys2Proof.Machine

/-! ## System registers -/

/-- STACK_BASE, STACK_SIZE and the MODE default of a launch (R422). -/
def Launch.stackBase (l : Launch) : DWord := dwAt l.record 56
def Launch.stackSize (l : Launch) : Word := wAt l.record 64
def Launch.mode (l : Launch) : Word := wAt l.record 68

/-- The assigned numbers of R157: thread, crew, launch and other registers. -/
def sysThread (n : Nat) : Bool := decide (n ≤ 8)
def sysCrew (n : Nat) : Bool := decide (0x10 ≤ n ∧ n ≤ 0x19)
def sysOther (n : Nat) : Bool := decide (0x20 ≤ n ∧ n ≤ 0x24) || n == 0x30 || n == 0x31

/-- A thread register as it reads (R157); a thread that has exited reads 0 (R158). -/
def State.threadSys (s : State) (t : TRef) (n : Nat) : DWord :=
  let x := s.thread t
  if x.exited then 0
  else match n with
    | 0x00 => match s.runOf t with
      | some r => r.wordAddr
      | none => x.pc
    | 0x01 => x.regionPc
    | 0x02 => x.trapPc
    | 0x03 => x.trapCause.setWidth 64
    | 0x04 => x.trapAddr
    | 0x05 => x.trapData
    | 0x06 => BitVec.ofNat 64 (b2n x.trapLevel)
    | 0x07 => x.stochCount.setWidth 64
    | _ => x.reorderKey.setWidth 64

/-- ENGINE_CNT (R158). -/
def Crew.engineCnt (c : Crew) : DWord :=
  BitVec.ofNat 64 (c.count .transfer + c.count .matrix * 2 ^ 8 + c.count .sampling * 2 ^ 16 +
    c.count .traversal * 2 ^ 24 + c.count .collective * 2 ^ 32 + c.count .stream * 2 ^ 40)

/-- The threads of a run as a mask. -/
def Run.gatherMask (r : Run) : DWord := r.members.foldl (fun acc t => acc ||| (1#64 <<< t.tid)) 0

/-- A crew register as it reads (R157). -/
def State.crewSys (s : State) (r : Run) (cid n : Nat) : DWord :=
  let c := s.crew cid
  match n with
  | 0x10 => c.mode.setWidth 64
  | 0x11 => s.liveMask cid
  | 0x12 => s.helperMask cid
  | 0x13 => c.engineCnt
  | 0x14 => c.stochSeed
  | 0x15 => c.qntSeed
  | 0x16 => c.qntTensor.setWidth 64
  | 0x17 => c.qntBase
  | 0x18 => c.tsel.setWidth 64
  | _ => r.gatherMask

/-- A launch, core, column or device register as it reads (R157). -/
def State.otherSys (s : State) (wid n : Nat) : DWord :=
  let w := s.wg wid
  let l := s.launch w.lid
  match n with
  | 0x20 => l.trapVec
  | 0x21 => BitVec.ofNat 64 l.decodeNum
  | 0x22 => l.stackBase
  | 0x23 => l.stackSize.setWidth 64
  | 0x24 => BitVec.ofNat 64 w.col
  | 0x30 => s.time
  | _ => BitVec.ofNat 64 (s.col w.col).clock

/-- A system register as the agent reads it, or none where the number traps (R156, R159). -/
def State.readSys (s : State) (a : UAgent) (n : Nat) : Option DWord :=
  if sysOther n then some (s.otherSys (s.uWid a) n)
  else match a with
    | .seq _ => none
    | .crew r cid =>
      if sysThread n then some (s.threadSys ⟨cid, (s.crew cid).tsel.toNat⟩ n)
      else if sysCrew n then some (s.crewSys r cid n) else none

/-- SYSREG_ACCESS (R156). -/
def State.sysTrap (s : State) (a : UAgent) (n : Nat) : State :=
  s.uTrap a fun r => r.trap 0x0d#8 (BitVec.ofNat 8 n)

/-- mfs (R156). -/
def execMfs (d : UReg) (n : BitVec 8) (lo : Bool) (s : State) : Host.Outcome State Fault Refusal :=
  s.uni fun a => match s.readSys a n.toNat with
    | some v => s.uPut a d lo v 0
    | none => s.sysTrap a n.toNat

/-- A thread register written; the others are RO (R157). -/
def Thread.putSys (t : Thread) (n : Nat) (v : DWord) : Thread :=
  if t.exited then t
  else match n with
    | 0x02 => { t with trapPc := v &&& ~~~ 3#64 }
    | 0x03 => { t with trapCause := v.setWidth 8 }
    | 0x04 => { t with trapAddr := v }
    | 0x05 => { t with trapData := v }
    | 0x07 => { t with stochCount := v.setWidth 32 }
    | _ => t

/-- MODE written: a ROUND of 6 or 7 is ignored (R21). -/
def modeWrite (old v : Word) : Word :=
  if 5 < fieldNat v 2 0 then (v &&& 0x18#32) ||| (old &&& 7#32) else v &&& 0x1f#32

/-- A crew register written; the others are RO (R157, R158). -/
def Crew.putSys (c : Crew) (n : Nat) (v : DWord) : Crew :=
  match n with
  | 0x10 => { c with mode := modeWrite c.mode (v.setWidth 32) }
  | 0x14 => { c with stochSeed := v }
  | 0x15 => { c with qntSeed := v }
  | 0x16 => { c with qntTensor := v.setWidth 32 }
  | 0x17 => { c with qntBase := v }
  | 0x18 => { c with tsel := v.setWidth 6 }
  | _ => c

/-- mts (R156): with mod[3] only the latch is written, and the word has no register result for it (R45).
Log entry 34, DEDUCED. -/
def execMts (n : BitVec 8) (b : USrc) (lo : Bool) (s : State) : Host.Outcome State Fault Refusal :=
  s.uni fun a =>
    let v := s.uVal a b
    match s.readSys a n.toNat with
    | none => s.sysTrap a n.toNat
    | some _ =>
      let s1 := match a with
        | .seq _ => s
        | .crew _ cid =>
          if lo then s
          else if sysThread n.toNat then
            s.updThread ⟨cid, (s.crew cid).tsel.toNat⟩ fun t => t.putSys n.toNat v
          else if sysCrew n.toNat then s.updCrew cid fun c => c.putSys n.toNat v else s
      s1.uNext a 0 b.ext

/-! ## Time and counters -/

/-- rdtime (R160). -/
def execRdtime (d : UReg) (lo : Bool) (s : State) : Host.Outcome State Fault Refusal :=
  s.uni fun a => s.uPut a d lo s.time 0

/-- What a wait.time that has parked its agent waits for (R161). -/
def State.uWaitsFor (s : State) : UAgent → Option (Nat × Option DWord)
  | .crew r _ => r.waitsFor
  | .seq c => (s.col c).seqr.waitsFor
/-- That, set. -/
def State.uSetWaits (s : State) (a : UAgent) (w : Option (Nat × Option DWord)) : State :=
  match a with
  | .crew r _ => s.updRun r.key fun x => { x with waitsFor := w }
  | .seq c => s.updCol c fun x => { x with seqr := { x.seqr with waitsFor := w } }

/-- A wait at a clock edge (R161): the first one that reaches its moment fixes the value that it gives. -/
def waitEdge (now : DWord) : Option (Nat × Option DWord) → Option (Nat × Option DWord)
  | some (at_, none) => some (at_, if at_ ≤ t64ToNs now then some now else none)
  | w => w
/-- What a clock edge of a column does to its waits for a time (R161). -/
def State.clockWaits (s : State) : State :=
  { s with
    runs := s.runs.map fun r =>
      if (s.col r.key.col).awake then { r with waitsFor := waitEdge s.time r.waitsFor } else r
    columns := s.columns.map fun x =>
      if x.awake then { x with seqr := { x.seqr with waitsFor := waitEdge s.time x.seqr.waitsFor } } else x }

/-- wait.time (R161): its latch takes TIME at the first clock edge at which TIME has reached the source; a time that is
past already does not wait. -/
def execWaitTime (b : USrc) (_lo : Bool) (s : State) : Host.Outcome State Fault Refusal :=
  s.uni fun a =>
    let at_ := t64ToNs (s.uVal a b)
    match (s.uWaitsFor a).bind (·.2), (s.uWaitsFor a).isNone, decide (at_ ≤ t64ToNs s.time) with
    | some v, _, _ => (s.uNext a v b.ext).uSetWaits a none
    | none, true, true => s.uNext a s.time b.ext
    | none, _, _ => (s.uSetWaits a (some (at_, none))).uPark a .time

/-- The class of a number of R59. -/
def classOf : Nat → EngClass
  | 0 => .transfer | 1 => .matrix | 2 => .sampling | 3 => .traversal | 4 => .collective | _ => .stream

/-- wait.cnt (R162): its latch takes the counter, and it acquires what the operations wrote (R312); in the sequencer's
stream it is ILLEGAL_INSTR (R47). -/
def execWaitCnt (c : BitVec 3) (n : BitVec 13) (s : State) : Host.Outcome State Fault Refusal :=
  s.uni fun a => match a with
    | .seq _ => s.uTrap a fun r => r.trap 0x01#8 2#8
    | .crew _ cid =>
      let v := (s.crew cid).count (classOf c.toNat)
      if v ≤ n.toNat then (s.acquired (s.crewCol cid) 4).uNext a (BitVec.ofNat 64 v) 0 else s.uPark a .engine

/-! ## Tasks and yielding -/

/-- The fields of a continuation record (R31). -/
def Record.parse (bs : List Byte) (addr : DWord) (lid : Nat) : Record :=
  { code := dwAt bs 0, frame := dwAt bs 8, join := wAt bs 16, threads := bs.getD 20 0, flags := bs.getD 21 0
    deadline := dwAt bs 24, addr := addr, lid := lid, resv := BitVec.ofNat 16 (natAt bs 22 2) }

/-- TASK, RESUME and NOSTEAL of a record (R31). -/
def Record.task (r : Record) : Bool := bit r.flags 0
def Record.resume (r : Record) : Bool := bit r.flags 1
def Record.nosteal (r : Record) : Bool := bit r.flags 2
/-- Reserved bits of a record are nonzero (R33). -/
def Record.resvBad (r : Record) : Bool := fieldNat r.flags 7 3 != 0 || r.resv != 0


/-- The subcode of a record that spawn refuses (R163); of several conditions that it meets the lowest subcode, which the
spec does not say (log entry 107, DESIGN CHOICE). -/
def Record.spawnErr (r : Record) : Option Byte :=
  firstSub [(!r.task, 2), (r.threads == 0 || decide (64 < r.threads.toNat), 3), (r.resvBad, 4),
            (fieldNat r.code 1 0 != 0, 5), (r.join != 0, 6)]
/-- The subcode of a record that a final join.dec refuses (R164). Log entry 107, DESIGN CHOICE. -/
def Record.joinErr (r : Record) : Option Byte := firstSub [(r.resvBad, 4), (fieldNat r.code 1 0 != 0, 5)]
/-- The subcode of a record that yield refuses (R165). Log entry 107, DESIGN CHOICE. -/
def Record.yieldErr (r : Record) : Option Byte :=
  let threadsBad := if r.task then r.threads == 0 || decide (64 < r.threads.toNat) else r.threads != 0
  firstSub [(threadsBad, 3), (r.resvBad, 4), (fieldNat r.code 1 0 != 0, 5), (r.join != 0, 6), (!r.resume, 7)]

/-- A launch that has faulted runs a record no more: in a deterministic one, the lower indices go on (R357, 14
R371). -/
def Launch.drops (l : Launch) (r : Record) : Bool :=
  l.fault.any fun f => !(l.deterministic && r.index.any fun i => decide (i < f.2))
/-- A record pushed at the young end of a core's deque (R337, R339); its launch has one more to run. -/
def State.pushRecord (s : State) (c : Nat) (r : Record) : State :=
  if (s.launch r.lid).drops r then s
  else
    (s.updCol c fun x => x.enqueue r).updLaunch r.lid fun l => { l with tasks := l.tasks + 1 }

/-- A record at an address read by a uniform word, once the members' regions are committed and what precedes the word is
performed at device scope; `f` is what the word does with it. While the word waits, the members would restart at it
(R155, R163, R362, R368). Log entry 40, DEDUCED. Log entry 32, DEDUCED. -/
def State.uRecord (s : State) (a : UAgent) (p : DWord) (f : State → Record → State) : State :=
  let wid := s.uWid a
  let s0 := s.uCommitHere a
  if ptrOff p % 32 ≠ 0 then s.uTrap a fun r => r.trap 0x90#8 1#8 (some p)
  else if s.sharedWait wid p then s0.uPark a .ticket
  else match s0.objDown wid p 32 with
  | some s1 => s1.uPark a .other
  | none => match s0.performed (s.uCol a) a.ref 4 with
    | none => s0.uPark a .seal
    | some s1 => match s1.readObj wid p 32 with
      | .acc st ea => s0.uTrap a fun r => r.accTrap st ea
      | .fault k ia ea => s0.uFault a k ia ea 1#8
      | .ecc sec => (s0.uCommit a).uFail a (.ecc sec (s.uAddr a)) 0
      | .peer ea => (s0.uCommit a).uFail a (.peer ea (stepData a.word 9)) 0
      | .host ea => (s0.uCommit a).uFail a (.host ea 0) 0
      | .ok s2 bs => f s2 (.parse bs p (s.wg wid).lid)

/-- SPAWN_RECORD with the record's address (R163, R451). -/
def State.recordTrap (s : State) (a : UAgent) (p : DWord) (sub : Byte) : State :=
  s.uTrap a fun r => r.trap 0x90#8 sub (some p)

/-- spawn (R163, R366). -/
def execSpawn (b : USrc) (s : State) : Host.Outcome State Fault Refusal :=
  s.uni fun a => match a with
    | .seq _ => s.uTrap a fun r => r.trap 0x01#8 2#8
    | .crew _ cid =>
      let p := s.uVal a b
      if (s.crewLaunch cid).deterministic then s.uTrap a fun r => r.trap 0xb2#8 1#8
      else s.uRecord a p fun s1 rec => match rec.spawnErr with
        | some sub => s1.recordTrap a p sub
        | none =>
          if (s1.col (s.uCol a)).hasRoom then ((s1.uCommit a).pushRecord (s.uCol a) rec).uNext a 0 b.ext
          else s1.uPark a .deque

/-- join.dec once the old count is known (R164): `dec` performs the decrement, where it is not performed yet, and a trap
leaves JOIN as it is. Log entry 32, DEDUCED. -/
def State.joinWith (s : State) (a : UAgent) (p : DWord) (d : UReg) (lo : Bool) (n old : Nat) (dec : State → State) :
    State :=
  let c := s.uCol a
  let fin (s : State) : State := (s.uCommit a).uPut a d lo (BitVec.ofNat 64 (old - 1)) n
  if old = 0 then s.uTrap a fun r => r.trap 0x91#8 0#8 (some p)
  else if 1 < old then fin (dec s)
  else s.uRecord a p fun s1 rec => match rec.joinErr with
    | some sub => s1.recordTrap a p sub
    | none =>
      if (s1.col c).hasRoom then fin ((dec s1).pushRecord c { rec with join := 0 }) else s1.uPark a .deque

/-- join.dec with JOIN at a key (R155, R164): the members' regions commit, what precedes it is performed at device
scope, and the decrement is an atomic of the core. Log entry 32, DEDUCED. -/
def State.joinAt (s : State) (a : UAgent) (p : DWord) (d : UReg) (lo : Bool) (dst : Dest) (k n : Nat) : State :=
  let t := a.ref
  let ea := ptrAdd p 16
  let dec (s1 : State) : State :=
    ((s1.performAtomic (s.uWid a) t.cid (s.uCrew a) t.tid ea dst k joinOp 1 0).map (·.2)).getD s1
  match (s.uCommitHere a).performed (s.uCol a) t 4 with
  | none => s.uWait a .seal
  | some s0 => match s0.readFailure (s.uAddr a) a.word ea k 4 with
    | some v => (s0.uCommit a).uFail a v n
    | none => s0.joinWith a p d lo n (leNat (s0.bytes k 4)) dec

/-- join.dec whose decrement was numbered before its seal (R291 step 3): it is performed, and its old value goes on; the
members keep the seal until the word is complete, so that it is not numbered again. -/
def State.joinSealed (s : State) (a : UAgent) (p : DWord) (d : UReg) (lo : Bool) (m n : Nat) : State :=
  let c := s.uCol a
  match (s.uCommitHere a).performed c a.ref 4 with
  | none => s.uWait a .seal
  | some s0 => match ((s0.col c).atomicOld.find? fun x => x.1 == m).map (·.2) with
    | some old => s0.joinWith a p d lo n old.toNat id
    | none => s0.joinWith a p d lo n (Config.freeWord 18 (s.freeCtr + m)).toNat id

/-- join.dec (R164, R366). Log entry 32, DEDUCED. -/
def execJoinDec (d : UReg) (b : USrc) (lo : Bool) (s : State) : Host.Outcome State Fault Refusal :=
  s.uni fun a => match a with
    | .seq _ => s.uTrap a fun r => r.trap 0x01#8 2#8
    | .crew _ cid =>
      let p := s.uVal a b
      let ea := ptrAdd p 16
      if (s.crewLaunch cid).deterministic then s.uTrap a fun r => r.trap 0xb2#8 1#8
      else match s.uSealedOwn a with
      | some m => s.joinSealed a p d lo m b.ext
      | none => s.uAccess a ea 4 (.atomic false) fun s1 dst k =>
        let global : Bool := match dst with | .global .. => true | .scratch .. => false
        let own : HeldStore := {
          tid := a.ref.tid, key := k, op := .atomic joinOp 1 0, ea := ea, word := a.word, pc := s.uAddr a }
        if ¬ (s1.uUnsealed a).isEmpty then s1.uSeal a (if global then some own else none) false
        else s1.joinAt a p d lo dst k b.ext

/-- Every thread of a crew ends, and the run with them (R115, R165). -/
def State.endCrew (s : State) (r : Run) (cid : Nat) : State :=
  ((s.liveMembers cid).foldl (fun acc t => (acc.exitThread t.ref).leaveRun r.key t.ref) s).settle

/-- yield (R165). -/
def execYield (b : USrc) (s : State) : Host.Outcome State Fault Refusal :=
  s.uni fun a => match a with
    | .seq _ => s.uTrap a fun r => r.trap 0x01#8 2#8
    | .crew r cid =>
      let p := s.uVal a b
      let wid := s.uWid a
      let fin (s : State) (ys : List (Nat × Record)) : State :=
        ((s.uCommit a).updWg wid fun w => { w with yielding := true, yields := w.yields ++ ys }).endCrew r cid
      if p = 0 then fin s []
      else s.uRecord a p fun s1 rec => match rec.yieldErr with
        | some sub => s1.recordTrap a p sub
        | none => fin s1 [((s.crew cid).idx, rec)]

/-! ## Ending, trapping and returning -/

/-- trap imm13 (R166). -/
def execTrap (i : BitVec 13) (s : State) : Host.Outcome State Fault Refusal :=
  s.uni fun a => s.uTrap a fun r => ⟨0x0b#8, r.wordAddr + 8, r.wordAddr, i.setWidth 64⟩

/-- brk (R166). -/
def execBrk (s : State) : Host.Outcome State Fault Refusal :=
  s.uni fun a => s.uTrap a fun r => ⟨0x0c#8, r.wordAddr + 8, r.wordAddr, 0⟩

/-- exit of a crew run, or of a sequencer program (R167). -/
def execUniformExit (s : State) : Host.Outcome State Fault Refusal :=
  s.uni fun a => match a with
    | .crew r cid =>
      ((r.members.foldl (fun acc t => (acc.exitThread t).leaveRun r.key t) s).exitHelpers cid).settle
    | .seq c => s.updCol c fun x => { x with seqr := { x.seqr with holder := none, running := false } }

/-- A return from a trap for one member: its region commits, PC and REGION_PC become TRAP_PC (R168). -/
def State.returnFrom (s : State) (t : TRef) : State :=
  (s.commit t).updThread t fun x =>
    { x with jump := some x.trapPc, regionPc := x.trapPc, trapLevel := false }

/-- rte (R168): a member whose TRAP_LEVEL is 0 traps. -/
def execRte (s : State) : Host.Outcome State Fault Refusal :=
  s.uni fun a => match a with
    | .seq _ => s.uTrap a fun r => r.trap 0x01#8 2#8
    | .crew r _ =>
      let (back, bad) := r.members.partition fun t => (s.thread t).trapLevel
      let s1 := back.foldl (fun acc t => acc.returnFrom t) s
      let s2 := s1.uNext a 0 0
      if bad.isEmpty then s2
      else (bad.foldl (fun acc t => (acc.leaveRun r.key t).raise t (r.trap 0x01#8 3#8)) s2).settle

end Sys2Proof.Machine
end

