-- ==== Sys2Proof/Machine/Launch.lean ====
section
/-!
DEFINITION. A launch from its record to its end, but for placement: the LAUNCH operation and its checks
(17 R422), bound fields (12 R321, R322), the dequeue and its refusals (R327, 14 R365, R367, R374, R375),
eligibility (R324), completion and the status word (R326, R422, 13 R452).
-/

namespace Sys2Proof.Machine

/-! ## The fields of a launch record (R422) -/

/-- CLASS, PRIORITY and YIELDABLE. -/
def Launch.cls (l : Launch) : Nat := (l.record.getD 115 0).toNat % 4
def Launch.priority (l : Launch) : Nat := (l.record.getD 115 0).toNat / 4 % 8
def Launch.yieldable (l : Launch) : Bool := bit (l.record.getD 115 0) 6
/-- POWER_CLASS. -/
def Launch.powerClass (l : Launch) : Nat := (l.record.getD 116 0).toNat % 16
/-- The extents of the grid. -/
def Launch.ext (l : Launch) (i : Nat) : Nat := natAt l.record (16 + 4 * i) 4
/-- FRAME, ESTIMATE, NOT_BEFORE, DEADLINE. -/
def Launch.frame (l : Launch) : DWord := dwAt l.record 8
def Launch.estimate (l : Launch) : Nat := natAt l.record 28 4
def Launch.notBefore (l : Launch) : DWord := dwAt l.record 32
def Launch.deadline (l : Launch) : DWord := dwAt l.record 40
/-- ENTRIES and DEGRADE_ENTRY. -/
def Launch.entries (l : Launch) : DWord := dwAt l.record 0
def Launch.degradeEntry (l : Launch) : DWord := dwAt l.record 48
/-- DONE_AT, DONE_SEM. -/
def Launch.doneAt (l : Launch) : DWord := dwAt l.record 96
def Launch.doneSem (l : Launch) : Nat := (l.record.getD 113 0).toNat
/-- The attached wait, if the launch has one. -/
def Launch.attach (l : Launch) : Option (Nat × DWord) :=
  if l.record.getD 112 0 = 0xff#8 then none else some ((l.record.getD 112 0).toNat, dwAt l.record 104)

/-- A pointer's space and alignment. -/
def ptrIs (spaces : List Nat) (align : Nat) (p : DWord) : Bool :=
  spaces.contains (ptrSpace p) && ptrOff p % align == 0
/-- The same, with 0 for none. -/
def ptrOr0 (spaces : List Nat) (align : Nat) (p : DWord) : Bool := p == 0 || ptrIs spaces align p
/-- A semaphore number, or 0xFF for none. -/
def semOr (b : Byte) : Bool := decide (b.toNat < 64) || b == 0xff#8

/-! ## Checks of the LAUNCH operation -/

/-- The record offsets that a bound field may name (R422). -/
def boundOffsets : List Nat := [8, 16, 20, 24, 28, 32, 40, 48]

/-- The bound-field entries of a block (R422). -/
def parseBounds (bs : List Byte) (n : Nat) : List BoundField :=
  (List.range n).map fun i => ⟨dwAt bs (24 * i), dwAt bs (24 * i + 8), (bs.getD (24 * i + 16) 0).toNat,
    (bs.getD (24 * i + 17) 0).toNat⟩
/-- Every entry of a block is well formed (R321, R422). -/
def boundsOk (bs : List Byte) (n : Nat) : Bool :=
  (List.range n).all fun i =>
    ptrIs [0, 4] 8 (dwAt bs (24 * i)) && decide ((bs.getD (24 * i + 16) 0).toNat < 64) &&
    boundOffsets.contains (bs.getD (24 * i + 17) 0).toNat && !nonzeroAt bs (24 * i + 18) 6

/-- An extent is in range; 0 is, when the field is bound (R422). -/
def extentOk (rec : List Byte) (fields : List BoundField) (i : Nat) : Bool :=
  let v := natAt rec (16 + 4 * i) 4
  decide (v ≤ 2097152) && (v != 0 || fields.any fun f => f.field == 16 + 4 * i)

/-- A launch record whose fields are in range and whose reserved bytes are zero (R422). -/
def recordOk (rec : List Byte) : Bool :=
  let at_ (i : Nat) : Byte := rec.getD i 0
  ptrIs [0] 64 (dwAt rec 0) && ptrOr0 [0] 64 (dwAt rec 48) &&
  decide (natAt rec 68 4 < 32 ∧ natAt rec 68 4 % 8 ≤ 5) &&
  decide ((at_ 117).toNat ≤ 4) && dwAt rec 80 &&& 7#64 == 0#64 && (at_ 117 != 0 || dwAt rec 80 == 0) &&
  dwAt rec 88 &&& 7#64 == 0#64 && (!bit (at_ 115) 5 || dwAt rec 88 != 0) &&
  ptrOr0 [0, 4] 8 (dwAt rec 96) && semOr (at_ 112) && semOr (at_ 113) && decide ((at_ 114).toNat ≤ 15) &&
  decide ((at_ 116).toNat < 32) && !nonzeroAt rec 118 10

/-- Registers of an allotment code (R422). -/
def allotOf (b : Nat) : Nat := match b % 4 with
  | 0 => 32 | 1 => 48 | 2 => 64 | _ => 96
/-- The fields of a role-entry table (R422). -/
def Roles.parse (bs : List Byte) : Roles :=
  { prodPc := dwAt bs 0, consPc := dwAt bs 8, seqPc := dwAt bs 16
    prodCrews := (bs.getD 24 0).toNat, consCrews := (bs.getD 25 0).toNat, crewSize := (bs.getD 26 0).toNat
    prodAllot := allotOf (bs.getD 27 0).toNat, consAllot := allotOf ((bs.getD 27 0).toNat / 4)
    scratch := natAt bs 28 4 }
/-- A role-entry table whose fields are in range and whose reserved bytes are zero (R422). -/
def rolesOk (bs : List Byte) : Bool :=
  let r := Roles.parse bs
  decide (1 ≤ r.prodCrews ∧ r.prodCrews ≤ 2 ∧ 1 ≤ r.consCrews ∧ r.consCrews ≤ 15 ∧
    r.prodCrews + r.consCrews ≤ 16 ∧ 1 ≤ r.crewSize ∧ r.crewSize ≤ 64) &&
  decide ((bs.getD 27 0).toNat < 16) && r.scratch % 128 == 0 && !nonzeroAt bs 32 32 &&
  r.prodPc &&& 3#64 == 0#64 && r.consPc &&& 3#64 == 0#64 && r.seqPc &&& 3#64 == 0#64

/-! ## Bound fields -/

/-- A bound value lies outside its field's range (R322, R422). -/
def boundBad (field : Nat) (v : DWord) : Bool :=
  match field with
  | 16 | 20 | 24 => decide (2097152 < v.toNat)
  | 28 => decide (2 ^ 32 ≤ v.toNat)
  | 48 => !ptrOr0 [0] 64 v
  | _ => false
/-- A bound value placed in its field: four bytes or eight (R322). -/
def placeBound (rec : List Byte) (field : Nat) (v : DWord) : List Byte :=
  setBytes rec field (toLe (if 16 ≤ field ∧ field < 32 then 4 else 8) v.toNat)

/-! ## The dequeue -/

/-- The 32-B entries of an ownership table (R367). -/
def parseOwn (bs : List Byte) (n : Nat) : List OwnEnt :=
  (List.range n).map fun i => ⟨ptrOff (dwAt bs (32 * i)), natAt bs (32 * i + 8) 8, natAt bs (32 * i + 16) 4,
    natAt bs (32 * i + 20) 4, natAt bs (32 * i + 24) 8⟩
/-- Every entry is well formed (R367). -/
def ownOk (bs : List Byte) (n : Nat) : Bool :=
  (List.range n).all (fun i => ptrIs [0] 128 (dwAt bs (32 * i))) &&
  (parseOwn bs n).all fun e => e.len != 0 && e.len % 128 == 0 && decide (e.kind ≤ 2) &&
    if e.kind = 1 then e.chunk != 0 && e.chunk % 128 == 0 else e.chunk == 0 && e.first == 0

/-- The fields of a deterministic block (R422). -/
def DetInfo.parse (bs : List Byte) : DetInfo :=
  { ownTable := dwAt bs 0, logBase := dwAt bs 8, cairn := dwAt bs 16, logSize := natAt bs 24 4
    logSlots := natAt bs 28 2, redStride := natAt bs 30 2, ownCount := natAt bs 32 1, redMode := natAt bs 33 1 }
/-- The attributes lie in their ranges (R365). -/
def DetInfo.ok (d : DetInfo) : Bool :=
  ptrOr0 [0] 32 d.ownTable && decide (d.ownCount ≤ 64) && ptrIs [0] 4096 d.logBase &&
  d.logSize != 0 && d.logSize % 4096 == 0 && decide (1 ≤ d.logSlots ∧ d.logSlots ≤ 4096) &&
  d.redStride != 0 && decide (d.redMode ≤ 2)

/-- The image of table 0: every assigned opcode, the trailer's among them, mapped to itself (R61, R62, R64). -/
def builtinImage : List Byte :=
  toLe 2 1 ++ [0, 0] ++ toLe 4 1 ++ (List.range 2048).flatMap fun k =>
    toLe 2 (if (findRow k).isSome ∨ k = 1023 then 32768 + k % 1024 else 0)

/-- The first 4 bytes of the digest of a launch's decode table (R64). -/
def State.tableDigest (s : State) (l : Launch) : Word :=
  if l.decodeNum = 0 then wAt (sha3 builtinImage) 0
  else ((((s.ctx? l.ctx).bind fun c => c.tables.find? fun t => t.num == l.decodeNum).map (·.digest)).getD 0)

/-- The cairn input (R374). -/
def State.cairnInput (s : State) (l : Launch) (d : DetInfo) : List Byte :=
  toLe 4 1 ++ [BitVec.ofNat 8 l.decodeNum] ++ toLe 4 (s.tableDigest l).toNat ++ [0, 0, 0] ++
  toLe 4 l.mode.toNat ++ [BitVec.ofNat 8 d.redMode, 0] ++ toLe 2 d.redStride ++ toLe 2 d.logSlots ++
  List.replicate 10 0

/-- A nonzero CAIRN is the computed one (R374, R375). -/
def State.cairnOk (s : State) (l : Launch) (d : DetInfo) : Bool :=
  d.cairn == 0 || (bits d.cairn 63 56 == 0x01 &&
    fieldNat d.cairn 55 0 == leNat ((sha3 (s.cairnInput l d)).take 7))

/-- The deterministic block and the ownership table as read at the dequeue, or none: the launch is refused
(R365, R367, R375). Log entry 58, DEDUCED. -/
def State.readDet (s : State) (l : Launch) : Option DetInfo :=
  match s.devRead l.ctx (dwAt l.record 88) 40 false with
  | .ok s1 bs =>
    let d := DetInfo.parse bs
    if nonzeroAt bs 34 6 ∨ ¬ d.ok ∨ ¬ s.cairnOk l d then none
    else if d.ownCount = 0 ∨ d.ownTable = 0 then some d
    else match s1.devRead l.ctx d.ownTable (32 * d.ownCount) false with
      | .ok _ os => if ownOk os d.ownCount then some { d with own := parseOwn os d.ownCount } else none
      | _ => none
  | _ => none

/-- The launch's decode table is installed in its context (R64). -/
def State.tableThere (s : State) (l : Launch) : Bool :=
  l.decodeNum == 0 || ((s.ctx? l.ctx).map fun c => c.tables.any fun t => t.num == l.decodeNum).getD false

/-- The token cost of a workgroup with a sequencer program (R329). -/
def State.cost (s : State) (l : Launch) : Nat := s.pwrCost[l.powerClass]?.getD 0

/-- The reason for which a launch is refused at its dequeue, the first of the table that applies (R327).
Log entry 58, DEDUCED. -/
def State.refusal (s : State) (l : Launch) : Option Byte :=
  if l.cls = 3 then some 0x01#8
  else if l.cls = 1 ∧ l.degradeEntry = 0 then some 0x02#8
  else if 4194304 < l.roles.scratch then some 0x03#8
  else if l.roles.seqPc ≠ 0 ∧ s.pwrTokens < s.cost l then some 0x04#8
  else if l.refused.isSome then l.refused
  else if ¬ s.tableThere l then some 0x09#8
  else if l.deterministic ∧ (s.readDet l).isNone then some 0xb4#8
  else none

/-- A launch passes to the presentation scheduler (R327). -/
def State.dequeue (s : State) (lid : Nat) : State :=
  let l := s.launch lid
  let why := s.refusal l
  s.updLaunch lid fun x => { x with
    phase := .queued, bounds := [], refused := why, total := l.ext 0 * l.ext 1 * l.ext 2
    det := if l.deterministic then (s.readDet l).getD {} else {} }

/-! ## LAUNCH (R422) -/

/-- An object that LAUNCH reads; one that cannot be read is a Curd error (R423). -/
def State.launchRead (s : State) (q : Nat) (r : CurdRun) (p : DWord) (n : Nat)
    (ok : State → List Byte → State) : State :=
  if n = 0 then ok s []
  else s.curdAccess q r 1#8 (s.devRead (s.queue q).ctx p n false) (fun s1 _ => s1.curdError q r 3 0) ok

/-- The launch enters: a handle, wA, and its bound fields or its dequeue (R422). -/
def State.issueLaunch (s : State) (q : Nat) (r : CurdRun) (a : BitVec 4) (fields : List BoundField)
    (roles degrade : Roles) : State :=
  let x := s.queue q
  let (n, s1) := s.packetNo q r
  let (lid, s2) := s1.fresh
  let l : Launch := { lid := lid, queue := q, packet := n.toNat, handle := x.nextHandle, ctx := x.ctx
                      record := x.record, roles := roles, degradeRoles := degrade, bounds := fields }
  let s3 := { s2.updQueue q fun y => { y with
      nextHandle := (y.nextHandle + 1) % 2 ^ 64
      handles := (y.nextHandle, lid, none) :: y.handles.take 255
      w := y.w.setIfInBounds a.toNat (BitVec.ofNat 64 y.nextHandle) } with
    launches := s2.launches ++ [l] }
  if fields.isEmpty then (s3.dequeue lid).curdNext q r
  else (match r.eng with
    | some id => s3.dropEng id
    | none => s3).curdPark q { r with eng := none } (.launch x.nextHandle)

/-- LAUNCH (R422, R423). -/
def execCurdLaunch (a : BitVec 4) (s : State) : Host.Outcome State Fault Refusal :=
  s.curdOp fun q r =>
    let rec_ := (s.queue q).record
    let n := (rec_.getD 117 0).toNat
    if ¬ recordOk rec_ then s.curdError q r 3 0
    else s.launchRead q r (dwAt rec_ 80) (24 * n) fun s1 bb =>
      if ¬ boundsOk bb n ∨ ¬ (List.range 3).all (extentOk rec_ (parseBounds bb n)) then s1.curdError q r 3 0
      else s1.launchRead q r (dwAt rec_ 0) 64 fun s2 t =>
        s2.launchRead q r (dwAt rec_ 48) (if dwAt rec_ 48 = 0 then 0 else 64) fun s3 d =>
          if ¬ rolesOk t ∨ (dwAt rec_ 48 ≠ 0 ∧ (¬ rolesOk d ∨ t.drop 16 ≠ d.drop 16)) then
            s3.curdError q r 3 0
          else s3.issueLaunch q r a (parseBounds bb n) (Roles.parse t) (Roles.parse d)

/-! ## Bound fields (R321, R322) -/

/-- The report fields of an access for a launch (R350). -/
def faultWhoLaunch (l : Launch) (access : Byte) : FaultWho :=
  { who := .engine l.lid, ctx := l.ctx, col := 0, launch := launchWord l, access := access ||| 0x10#8 }

/-- The next bound field, or the dequeue when there is none. -/
def State.nextBound (s : State) (lid : Nat) : State :=
  let s1 := (s.dropEng lid).updLaunch lid fun l => { l with bounds := l.bounds.drop 1 }
  if (s1.launch lid).bounds.isEmpty then s1.dequeue lid else s1

/-- A bound field is out of range, or cannot be read: the launch will be refused (R322). Log entry 58, DEDUCED. -/
def State.refuseBound (s : State) (lid : Nat) : State :=
  (s.updLaunch lid fun l => { l with refused := some 0x05#8 }).nextBound lid

/-- A bound value in its field (R322): an extent of 0 completes the launch at once. A bound DEGRADE_ENTRY is
read as LAUNCH reads one. Log entry 58, DEDUCED. -/
def State.bindValue (s : State) (l : Launch) (f : BoundField) (v : DWord) : State :=
  let put (s : State) (g : Launch → Launch) : State :=
    (s.updLaunch l.lid fun x => g { x with record := placeBound x.record f.field v }).nextBound l.lid
  if boundBad f.field v then s.refuseBound l.lid
  else if v = 0 ∧ 16 ≤ f.field ∧ f.field < 28 ∧ l.refused.isNone then
    (s.dropEng l.lid).updLaunch l.lid fun x => { x with phase := .queued, bounds := [], total := 0 }
  else if f.field = 48 ∧ v ≠ 0 then
    match s.devRead l.ctx v 64 false, s.devRead l.ctx (dwAt l.record 0) 64 false with
    | .ok s1 d, .ok _ t =>
      if rolesOk d ∧ t.drop 16 = d.drop 16 then put s1 fun x => { x with degradeRoles := Roles.parse d }
      else s1.refuseBound l.lid
    | _, _ => s.refuseBound l.lid
  else put s id

/-- BOUND_FIELD_RESOLVE (R321). -/
def execBoundFieldResolve (lid : Nat) (s : State) : Host.Outcome State Fault Refusal :=
  let l := s.launch lid
  match l.bounds with
  | [] => .next s
  | f :: _ =>
    if l.phase ≠ .binding ∨ ¬ serialGe (s.sem f.sem) f.target ∨ ¬ s.engFree lid then .next s
    else if (s.eng lid).failed.isSome then .next (s.refuseBound lid)
    else match s.devRead l.ctx f.ptr 8 true with
      | .bad _ => .next (s.refuseBound lid)
      | .fault k ia ea => .next (s.opFault lid (faultWhoLaunch l 1#8) k ia ea)
      | .ok s1 bs => .next (s1.bindValue l f (dwAt bs 0))

/-! ## Eligibility (R324) -/

/-- The attached wait is satisfied. -/
def State.attached (s : State) (l : Launch) : Bool :=
  match l.attach with
  | some (n, v) => serialGe (s.sem n) v
  | none => true

/-- LAUNCH_ELIGIBLE (R324). -/
def execLaunchEligible (lid : Nat) (s : State) : Host.Outcome State Fault Refusal :=
  let l := s.launch lid
  if l.phase = .queued ∧ l.refused.isNone ∧ s.attached l ∧ t64ToNs l.notBefore ≤ s.timeNs then
    .next (s.updLaunch lid fun x => { x with phase := .eligible, eligibleAt := s.ticks })
  else .next s

/-! ## Completion (R326, R357, R422) -/

/-- A launch has nothing left to run: it was refused or shed, or each of its workgroups has ended, or one
has faulted and no placed one is left, nor in a deterministic launch any index below the fault's (R9, R322, R325, R327,
R357, R371). -/
def State.launchOver (s : State) (l : Launch) : Bool :=
  l.phase != .binding &&
  (l.refused.isSome || l.shed ||
    s.wgs.all (fun w => w.lid != l.lid) &&
      l.tasks == 0 && match l.fault with
        | none => decide (l.total ≤ l.ended.length)
        | some f => !l.deterministic || (List.range (min f.2 l.total)).all fun i => l.ended.contains i)

/-- A fault record of the launch still waits for the fault queue (R351). -/
def State.recordWaits (s : State) (l : Launch) : Bool :=
  s.waiting.any fun r => decide (r.kind.toNat < 2) && r.launch == launchWord l

/-- The status word (R326). Log entry 59, DEDUCED. -/
def State.statusWord (s : State) (l : Launch) : Word :=
  let late := !l.shed && l.deadline != 0 && decide (t64ToNs l.deadline < s.timeNs)
  let (st, why) : Nat × Nat := match l.refused, l.fault with
    | some r, _ => (3, r.toNat)
    | none, some (c, _) => (2, c.toNat)
    | none, none => (if l.shed then 1 else 0, 0)
  BitVec.ofNat 32 (st + b2n l.degraded * 256 + b2n l.lateStart * 512 + b2n late * 1024 + why * 65536)

/-- What follows the write of DONE_AT: DONE_SEM is raised, ENTRY_DONE may run (R421, R422). -/
def State.signalDone (s : State) (l : Launch) (st : Word) : State :=
  let s1 := if l.doneSem < 64 then s.setSem l.doneSem (s.sem l.doneSem + 1) else s
  let runs := (s1.program (s1.queue l.queue).program).entryDone.isSome
  { (s1.dropEng l.lid).updQueue l.queue fun x => { x with
      handles := x.handles.map fun h => if h.2.1 == l.lid then (h.1, h.2.1, some st) else h
      completions := if runs then x.completions ++ [(l.handle, st)] else x.completions } with
    launches := s1.launches.filter fun x => x.lid != l.lid, doneHeld := s1.doneHeld.filter fun x => x != l.lid }

/-- A completion is delivered: DONE_AT is written, unless its page makes it wait, then DONE_SEM and ENTRY_DONE follow
(R421, R422, R452). -/
def State.deliver (s : State) (l : Launch) (st : Word) : State :=
  if ¬ s.engFree l.lid then s
  else if l.doneAt = 0 then s.signalDone l st
  else match (s.eng l.lid).failed with
    | some c => (s.devRecord l.ctx c l.doneAt (launchWord l)).signalDone l st
    | none => match s.devWrite l.ctx l.doneAt (toLe 8 st.toNat) true with
      | .ok s1 _ => s1.signalDone l st
      | .bad c => (s.devRecord l.ctx c l.doneAt (launchWord l)).signalDone l st
      | .fault k ia ea => s.opFault l.lid (faultWhoLaunch l 2#8) k ia ea

/-- A launch completes, every store of it performed: its status word is fixed (R326, R422). -/
def State.complete (s : State) (l : Launch) : Word × State :=
  let s1 := l.cores.foldl (fun acc c => acc.drain c) s
  let st := l.status.getD (s1.statusWord l)
  (st, s1.updLaunch l.lid fun x => { x with status := some st })

/-- LAUNCH_COMPLETION (R422, R452). A hand-over holds completions; they are delivered in completion order once it is over
(R427). Log entry 59, DEDUCED. Log entry 85, DEDUCED. -/
def execLaunchCompletion (lid : Nat) (s : State) : Host.Outcome State Fault Refusal :=
  let l := s.launch lid
  .next (if ¬ s.launches.any (fun x => x.lid == lid) ∨ ¬ s.launchOver l ∨ s.recordWaits l then s
    else
      let (st, s1) := s.complete l
      if s.handing ∨ (s.doneHeld ≠ [] ∧ s.doneHeld.head? ≠ some lid) then
        { s1 with doneHeld := if s.doneHeld.contains lid then s.doneHeld else s.doneHeld ++ [lid] }
      else s1.deliver l st)

end Sys2Proof.Machine
end

