-- ==== Sys2Proof/Machine/MlDsa.lean ====
section
/-!
DEFINITION. Verification of an ML-DSA-44 signature (17 R426). The spec names the scheme and does not define it: it is
taken from FIPS 204, in its pure form with an empty context string (log entry 13).
-/

namespace Sys2Proof.Machine

/-! ## Polynomials: 256 coefficients modulo q -/

/-- The modulus. -/
def dsaQ : Nat := 8380417
/-- A polynomial, or its transform. -/
abbrev DsaPoly := List Nat

/-- Two polynomials combined coefficient by coefficient, modulo q. -/
def DsaPoly.zip (f : Nat → Nat → Nat) (a b : DsaPoly) : DsaPoly := List.zipWith (fun x y => f x y % dsaQ) a b
/-- The sum. -/
def DsaPoly.add : DsaPoly → DsaPoly → DsaPoly := DsaPoly.zip fun x y => x + y
/-- The difference. -/
def DsaPoly.sub : DsaPoly → DsaPoly → DsaPoly := DsaPoly.zip fun x y => x + (dsaQ - y)
/-- The product of two transforms. -/
def DsaPoly.mul : DsaPoly → DsaPoly → DsaPoly := DsaPoly.zip fun x y => x * y
/-- A polynomial times a constant. -/
def DsaPoly.scale (k : Nat) (a : DsaPoly) : DsaPoly := a.map fun x => k * x % dsaQ

/-- The bits of a number below 256 in reverse order. -/
def bitRev8 (m : Nat) : Nat :=
  (List.range 8).foldl (fun acc i => acc + if m.testBit i then 2 ^ (7 - i) else 0) 0
/-- A power modulo q. -/
def dsaPow (b : Nat) : Nat → Nat
  | 0 => 1
  | n + 1 => b * dsaPow b n % dsaQ

/-- The transform of a block of 2 ^ n coefficients, block `m` of its layer. -/
def dsaNtt : Nat → Nat → DsaPoly → DsaPoly
  | 0, _, w => w
  | n + 1, m, w =>
    let lo : DsaPoly := w.take (2 ^ n)
    let hi := DsaPoly.scale (dsaPow 1753 (bitRev8 m)) (w.drop (2 ^ n))
    dsaNtt n (2 * m) (lo.add hi) ++ dsaNtt n (2 * m + 1) (lo.sub hi)

/-- The inverse of such a block, 2 ^ n times too large. -/
def dsaNttInv : Nat → Nat → DsaPoly → DsaPoly
  | 0, _, w => w
  | n + 1, m, w =>
    let lo := dsaNttInv n (2 * m) (w.take (2 ^ n))
    let hi := dsaNttInv n (2 * m + 1) (w.drop (2 ^ n))
    lo.add hi ++ DsaPoly.scale (dsaPow 1753 (512 - bitRev8 m)) (lo.sub hi)

/-- The transform of a polynomial. -/
def DsaPoly.ntt (a : DsaPoly) : DsaPoly := dsaNtt 8 1 a
/-- The polynomial of a transform; 8,347,681 is the inverse of 256. -/
def DsaPoly.inv (a : DsaPoly) : DsaPoly := DsaPoly.scale 8347681 (dsaNttInv 8 1 a)

/-! ## What a key and a signature hold -/

/-- `n` fields of `w` bits from some bytes, the least significant bit first. -/
def dsaUnpack (bs : List Byte) (w n : Nat) : List Nat :=
  let v := leNat bs
  (List.range n).map fun i => v / 2 ^ (w * i) % 2 ^ w

/-- The hint of one polynomial: which of its coefficients are marked; none where the places do not rise. -/
def dsaHint (places : List Nat) : Option (List Bool) :=
  if (places.zip places.tail).all fun p => decide (p.1 < p.2) then
    some ((List.range 256).map fun i => places.contains i)
  else none

/-- The hints of the four polynomials, from 84 bytes. -/
def dsaHints (y : List Byte) : Option (List (List Bool)) :=
  let at_ (i : Nat) : Nat := (y.getD i 0).toNat
  let cut (i : Nat) : Nat := if i = 0 then 0 else at_ (79 + i)
  if (List.range 4).all (fun i => decide (cut i ≤ cut (i + 1) ∧ cut (i + 1) ≤ 80)) ∧
      (List.range 80).all (fun i => decide (i < cut 4) || at_ i == 0) then
    (List.range 4).mapM fun i => dsaHint ((List.range (cut (i + 1) - cut i)).map fun j => at_ (cut i + j))
  else none

/-- A polynomial of the matrix: uniform coefficients below q, sampled from a seed. -/
def dsaUniform (seed : List Byte) : DsaPoly :=
  let bs := shake128 seed 2688
  let v (i : Nat) : Nat :=
    (bs.getD (3 * i) 0).toNat + 256 * (bs.getD (3 * i + 1) 0).toNat + 65536 * ((bs.getD (3 * i + 2) 0).toNat % 128)
  (((List.range 896).map v).filter fun x => decide (x < dsaQ)).take 256

/-- One step of `dsaBall`: the next byte is a place up to `i`, or is passed over. -/
def dsaBallStep (signs : Nat) (acc : Nat × DsaPoly) (b : Byte) : Nat × DsaPoly :=
  let (i, c) := acc
  let j := b.toNat
  if 256 ≤ i ∨ i < j then acc
  else (i + 1, (c.set i (c.getD j 0)).set j (if signs.testBit (i - 217) then dsaQ - 1 else 1))

/-- The challenge: 39 coefficients that are 1 or -1, sampled from a seed. -/
def dsaBall (seed : List Byte) : DsaPoly :=
  let bs := shake256 seed 680
  ((bs.drop 8).foldl (dsaBallStep (leNat (bs.take 8))) (217, List.replicate 256 0)).2

/-! ## The high part of a coefficient, with its hint -/

/-- The high part, in multiples of 190,464, and whether the low part is above 0. -/
def dsaHigh (r : Nat) : Nat × Bool :=
  let low := r % 190464
  let up : Nat := if 95232 < low then 1 else 0
  let h := r / 190464 + up
  (h % 44, decide (up = 0 ∧ low ≠ 0 ∧ h ≠ 44))

/-- The high part as its hint corrects it. -/
def dsaUseHint (h : Bool) (r : Nat) : Nat :=
  let (r1, pos) := dsaHigh r
  if ¬ h then r1 else if pos then (r1 + 1) % 44 else (r1 + 43) % 44

/-- High parts as 6-bit fields. -/
def dsaPackHigh (a : List Nat) : List Byte :=
  toLe 192 ((a.mapIdx fun i x => x * 2 ^ (6 * i)).foldl (· + ·) 0)

/-! ## Verification -/

/-- The signature of a message under a public key verifies. Log entry 13, PRESUMED. -/
def dsaVerify (key msg sig : List Byte) : Bool :=
  let rho := bytesAt key 0 32
  let t1 := (List.range 4).map fun i => dsaUnpack (bytesAt key (32 + 320 * i) 320) 10 256
  let seed := bytesAt sig 0 32
  let raw := (List.range 4).map fun i => dsaUnpack (bytesAt sig (32 + 576 * i) 576) 18 256
  let short := raw.all fun p => p.all fun v => decide (78 < v ∧ v < 262066)
  let z := raw.map fun p => DsaPoly.ntt (p.map fun v => (131072 + (dsaQ - v)) % dsaQ)
  let c := (dsaBall seed).ntt
  let row (r : Nat) : DsaPoly :=
    let entry (s : Nat) : DsaPoly := dsaUniform (rho ++ [BitVec.ofNat 8 s, BitVec.ofNat 8 r])
    let sum : DsaPoly := (List.range 4).foldl (fun acc s => DsaPoly.add acc ((entry s).mul (z.getD s [])))
      (List.replicate 256 0)
    (sum.sub (c.mul (DsaPoly.scale 8192 (t1.getD r [])).ntt)).inv
  match dsaHints (bytesAt sig 2336 84) with
  | none => false
  | some hs =>
    let high := (List.range 4).flatMap fun r => dsaPackHigh (List.zipWith dsaUseHint (hs.getD r []) (row r))
    let mu := shake256 (shake256 key 64 ++ [0, 0] ++ msg) 64
    short && shake256 (mu ++ high) 32 == seed

end Sys2Proof.Machine
end

