-- ==== Sys2Proof/Machine/Streams.lean ====
section
/-!
DEFINITION. Stream ports (15 R380 to R391), the PTP clock (R379), and srd (07 R205).
-/

namespace Sys2Proof.Machine

/-! ## Descriptors -/

/-- The fields of a stream descriptor (R380). -/
def Stream.kind (x : Stream) : Nat := natAt x.desc 0 1
def Stream.flags (x : Stream) : Byte := x.desc.getD 3 0
def Stream.dual (x : Stream) : Bool := bit x.flags 0
def Stream.lineRing (x : Stream) : Bool := bit x.flags 2
def Stream.format (x : Stream) : Nat := natAt x.desc 4 1
def Stream.buffers (x : Stream) : Nat := natAt x.desc 6 1
def Stream.rope (x : Stream) : Nat := natAt x.desc 7 1
def Stream.width (x : Stream) : Nat := natAt x.desc 8 2
def Stream.height (x : Stream) : Nat := natAt x.desc 10 2
def Stream.payload (x : Stream) : Nat := natAt x.desc 12 2
def Stream.cap (x : Stream) : Nat := 2 ^ natAt x.desc 14 1
def Stream.base (x : Stream) : DWord := dwAt x.desc 16
def Stream.pitch (x : Stream) : Nat := natAt x.desc 24 4
def Stream.stride (x : Stream) : Nat := natAt x.desc 28 4
def Stream.objBase (x : Stream) : DWord := dwAt x.desc 32
def Stream.offsetNs (x : Stream) : Nat := natAt x.desc 40 4
def Stream.rateNum (x : Stream) : Nat := natAt x.desc 48 4
def Stream.rateDen (x : Stream) : Nat := natAt x.desc 52 4

/-- Pixels and bytes of a pgroup (R78). -/
def pgroup : Nat → Nat × Nat
  | 0 => (2, 5) | 1 => (2, 6) | 2 => (4, 15) | _ => (2, 9)
/-- The bytes of a line of pgroups. -/
def Stream.lineBytes (x : Stream) : Nat := x.width / (pgroup x.format).1 * (pgroup x.format).2
/-- The stream's clock in Hz (R378, R380). -/
def Stream.hz (x : Stream) : Nat :=
  if x.kind = 1 then 90000 else match x.format with | 0 => 90000 | 1 => 48000 | _ => 96000
/-- Frame buffer `i` (R384). -/
def Stream.bufAt (x : Stream) (i : Nat) : DWord := ptrAdd x.base (i * x.stride)
/-- Frame object `i` (R384). -/
def Stream.objAt (x : Stream) (i : Nat) : DWord := ptrAdd x.objBase (64 * i)

/-- A configured stream. -/
def State.stream? (s : State) (tx : Bool) (n : Nat) : Option Stream :=
  s.streams.find? fun x => x.transmit == tx && x.num == n
/-- A stream replaced. -/
def State.setStream (s : State) (x : Stream) : State :=
  { s with streams := s.streams.map fun y => if y.transmit == x.transmit && y.num == x.num then x else y }

/-! ## Receiving -/

/-- A timestamp is later than another, modulo 2^32 (R383). Log entry 47, DEDUCED. -/
def rtpLater (r r0 : Word) : Bool := r != r0 && !(r - r0).msb

/-- PRES of a received frame (R387). -/
def presOf (hz : Nat) (offset : Nat) (r : Word) (a : Nat) : DWord :=
  let q : Int := a * hz / 1000000000
  let m : Int := q - (q - r.toNat) % 4294967296
  let t : Int := -(-(m * 1000000000) / hz)
  nsToT64 (max (t + offset) 0).toNat

/-- The path by which a packet belongs to the stream, if it does: `true` for B (R382). The descriptor's
sub-ports choose where both paths match. Log entry 48, DEDUCED. -/
def Stream.pathOf (x : Stream) (sub : Nat) (p : Packet) : Option Bool :=
  let hit (off port : Nat) : Bool :=
    p.dst.toNat == natAt x.desc off 16 && p.port.toNat == natAt x.desc port 2 &&
      (natAt x.desc (off + 16) 16 == 0 || p.src.toNat == natAt x.desc (off + 16) 16)
  match hit 64 56, x.dual && hit 96 58 with
  | true, true => some (natAt x.desc 1 1 != sub && natAt x.desc 2 1 == sub)
  | true, false => some false
  | false, true => some true
  | false, false => none

/-- The byte of a line at which a segment starts. -/
def Stream.segOff (x : Stream) (g : RowSeg) : Nat := g.offset / (pgroup x.format).1 * (pgroup x.format).2
/-- A segment lies within the frame, on whole pgroups (R382). Log entry 47, DEDUCED. -/
def Stream.segOk (x : Stream) (g : RowSeg) : Bool :=
  decide (g.row < x.height ∧ g.offset % (pgroup x.format).1 = 0 ∧
    g.data.length % (pgroup x.format).2 = 0 ∧ x.segOff g + g.data.length ≤ x.lineBytes)

/-- A number was taken before, within 2^15 numbers of the newest (R382). -/
def Stream.isCopy (x : Stream) (seq : Word) : Bool :=
  x.taken.contains seq && x.taken.all fun y => (y - seq).msb || decide ((y - seq).toNat < 2 ^ 15)
/-- The number is taken; numbers too old to be compared are forgotten. -/
def Stream.take (x : Stream) (seq : Word) : Stream :=
  { x with taken := seq :: x.taken.filter fun y => decide ((seq - y).toNat < 2 ^ 15 ∨ (seq - y).msb) }

/-- A line is complete (R383). -/
def RxFrame.lineDone (f : RxFrame) (bytes y : Nat) : Bool :=
  let segs := f.got.filter fun g => g.1 == y
  (List.range bytes).all fun j => segs.any fun g => decide (g.2.1 ≤ j ∧ j < g.2.1 + g.2.2)
/-- How many lines are complete. -/
def RxFrame.linesDone (f : RxFrame) (x : Stream) : Nat :=
  ((List.range x.height).filter fun y => f.lineDone x.lineBytes y).length

/-- A frame of a stream updated. -/
def Stream.updFrame (x : Stream) (n : Nat) (f : RxFrame → RxFrame) : Stream :=
  { x with frames := x.frames.map fun y => if y.number == n then f y else y }

/-- A write for a frame of a stream: a failure is reported at most once per frame (R452). -/
def State.frameWrite (s : State) (x : Stream) (n : Nat) (p : DWord) (bs : List Byte) (align : Bool) :
    State × Bool :=
  match s.devWrite x.ctx p bs align with
  | .ok s1 _ => (s1, true)
  | o =>
    let told := (x.frames.find? fun f => f.number == n).any fun f => f.reported
    if told then (s, false)
    else ((s.setStream (x.updFrame n fun f => { f with reported := true })).devRecord x.ctx
      ((o.cause).getD 0) p 0, false)

/-- The highest and the lowest number seen span how many numbers (R386). -/
def seqSpan (seen : List Word) : Nat :=
  match seen with
  | [] => 0
  | b :: _ =>
    let rel := seen.map fun y => (y - b).toInt
    (rel.foldl max 0 - rel.foldl min 0 + 1).toNat

/-- Frames that have settled, with every earlier one, leave the stream's list: the line pointer passes their
lines (R386). -/
def Stream.retire (x : Stream) : List RxFrame → Stream
  | [] => { x with frames := [] }
  | f :: fs => if f.settled then Stream.retire { x with lines := x.lines + x.height } fs
    else { x with frames := f :: fs }

/-- The 16 bits of PATHS and the flags (R384). -/
def RxFrame.paths (f : RxFrame) : Nat :=
  b2n (!f.pathA.isEmpty) + 2 * b2n (!f.pathB.isEmpty) +
    65536 * min 65535 ((f.tookB.filter fun y => !f.pathA.contains y).length)

/-- A frame settles (R383, R384, R386). -/
def State.settleFrame (s : State) (num n : Nat) : State :=
  match s.stream? false num with
  | none => s
  | some x => match x.frames.find? fun f => f.number == n && !f.settled with
    | none => s
    | some f =>
      let span := seqSpan f.seen
      let x1 := { x.updFrame n fun g => { g with settled := true } with
        frameCount := x.frameCount + 1
        lostA := x.lostA + (span - f.pathA.length)
        lostB := if x.dual then x.lostB + (span - f.pathB.length) else x.lostB }
      let s1 := s.setStream x1
      let done := f.linesDone x
      let s2 := if x.lineRing then s1 else
        let s2 := (s1.frameWrite x1 n (ptrAdd f.obj 24) (toLe 4 done ++ toLe 4 f.paths) true).1
        match s2.stream? false num with
        | some x2 => (s2.frameWrite x2 n f.obj (toLe 4 (if done = x.height then 2 else 3)) true).1
        | none => s2
      match s2.stream? false num with
      | some x3 => s2.setStream (x3.retire x3.frames)
      | none => s2

/-- A frame that a path has left behind (R383). -/
def RxFrame.noteLater (isB : Bool) (r : Word) (f : RxFrame) : RxFrame :=
  if rtpLater r f.rtp then { f with laterA := f.laterA || !isB, laterB := f.laterB || isB } else f

/-- Frames that every configured path has left behind settle (R383). -/
def State.settleLeft (s : State) (num : Nat) : State :=
  match s.stream? false num with
  | none => s
  | some x =>
    let due := x.frames.filter fun f => !f.settled && f.laterA && (f.laterB || !x.dual)
    due.foldl (fun acc f => acc.settleFrame num f.number) s

/-- The latest timestamp of a path. -/
def laterOf (r : Word) (latest : Option Word) : Option Word :=
  if latest.all fun y => rtpLater r y then some r else latest

/-- A packet of a timestamp on a path: the path leaves the frames of earlier ones behind (R383). -/
def State.noteLater (s : State) (num : Nat) (isB : Bool) (r : Word) : State :=
  match s.stream? false num with
  | none => s
  | some x => (s.setStream { x with
      frames := x.frames.map (RxFrame.noteLater isB r)
      latestA := if isB then x.latestA else laterOf r x.latestA
      latestB := if isB then laterOf r x.latestB else x.latestB }).settleLeft num

/-- The timestamp is kept; those too far from it to be compared are forgotten (R384). Log entry 47, DEDUCED. -/
def Stream.stamp (x : Stream) (r : Word) : Stream :=
  { x with stamps := r :: x.stamps.filter fun y => decide ((r - y).toNat < 2 ^ 30 ∨ (y - r).toNat < 2 ^ 30) }
/-- A path carries a timestamp later than one. Log entry 47, DEDUCED. -/
def pathLater (r : Word) (latest : Option Word) : Bool := latest.any fun y => rtpLater y r

/-- The first packet of a new timestamp claims a frame, or fails to (R384). Log entry 47, DEDUCED. -/
def State.claimFrame (s : State) (num : Nat) (r : Word) : State :=
  match s.stream? false num with
  | none => s
  | some x =>
    let j := match x.lastBuffer with
      | some j => (j + 1) % x.buffers
      | none => 0
    let obj := if x.lineRing then 0 else x.objAt j
    let free := x.lineRing || match s.devRead x.ctx obj 4 true with
      | .ok _ bs => natAt bs 0 4 == 0
      | _ => false
    let x0 := x.stamp r
    if ¬ free then s.setStream x0
    else
      let pres := presOf x.hz x.offsetNs r s.timeNs
      let f : RxFrame := {
        rtp := r, buffer := j, first := s.timeNs, pres := pres, number := x.claimed, obj := obj
        laterA := pathLater r x.latestA, laterB := pathLater r x.latestB }
      let x1 := { x0 with
        frames := x.frames ++ [f], lastBuffer := some j, claimed := x.claimed + 1
        latest := some (r, pres, s.time, obj) }
      let s1 := s.setStream x1
      if x.lineRing then s1
      else (s1.frameWrite x1 f.number obj
        (toLe 4 1 ++ toLe 4 r.toNat ++ toLe 8 pres.toNat ++ toLe 8 s.time.toNat ++ List.replicate 8 0 ++
          toLe 8 (x.bufAt j).toNat ++ toLe 8 f.number ++ List.replicate 16 0) true).1

/-- The first byte of a segment in a line ring: its column and scratchpad offset (R385). -/
def Stream.ringAt (x : Stream) (f : RxFrame) (y o : Nat) : Nat × Nat :=
  (fieldNat x.base 63 56, fieldNat x.base 21 0 + (f.number * x.height + y) % x.cap * x.pitch + o)

/-- A segment written to a line ring: the bytes that lie in the column's scratchpad (R385).
Log entry 49, DEDUCED. -/
def State.ringSeg (s : State) (c off : Nat) (bs : List Byte) : State × Bool :=
  let room := (s.col c).poolCurrent * 524288 - off
  (s.putAll (mkKey (regScratch c) off) (bs.take room), decide (bs.length ≤ room))

/-- A segment of a packet written for a frame (R383, R385). Log entry 49, DEDUCED. -/
def State.writeSeg (s : State) (num n : Nat) (g : RowSeg) : State × Bool :=
  match s.stream? false num with
  | none => (s, false)
  | some x => match x.frames.find? fun f => f.number == n with
    | none => (s, false)
    | some f =>
      let o := x.segOff g
      let (s1, ok) :=
        if x.lineRing then
          let (c, off) := x.ringAt f g.row o
          s.ringSeg c off g.data
        else s.frameWrite x n (ptrAdd (x.bufAt f.buffer) (g.row * x.pitch + o)) g.data false
      if ok then
        match s1.stream? false num with
        | some x1 => (s1.setStream (x1.updFrame n fun h =>
            { h with got := (g.row, o, g.data.length) :: h.got }), true)
        | none => (s1, true)
      else (s1, false)

/-- A packet of a frame: its number is noted, its segments are written unless it is a copy; the frame settles
when every line is complete (R382, R383, R386). -/
def State.framePacket (s : State) (num n : Nat) (isB : Bool) (p : Packet) : State :=
  match s.stream? false num with
  | none => s
  | some x =>
    let copy := x.isCopy p.seq
    let note (carried : Bool) (f : RxFrame) : RxFrame := { f with
      seen := f.seen ++ [p.seq]
      pathA := if carried && !isB then p.seq :: f.pathA else f.pathA
      pathB := if carried && isB then p.seq :: f.pathB else f.pathB
      tookB := if isB && !copy then p.seq :: f.tookB else f.tookB }
    if copy then s.setStream (x.updFrame n (note true))
    else
      let s1 := s.setStream (x.take p.seq)
      let (s2, ok) := p.rows.foldl (fun (acc : State × Bool) g =>
        let (s', k) := acc.1.writeSeg num n g
        (s', acc.2 && k)) (s1, true)
      match s2.stream? false num with
      | none => s2
      | some x2 =>
        let s3 := s2.setStream (x2.updFrame n (note (ok || !x.lineRing)))
        match (s3.stream? false num).bind fun y => y.frames.find? fun f => f.number == n with
        | some f => if f.linesDone x = x.height then s3.settleFrame num n else s3
        | none => s3

/-- A packet of a video stream (R382 to R385). A line ring in a pool without power waits (13 R362).
Log entry 47, DEDUCED. -/
def State.videoPacket (s : State) (x : Stream) (isB : Bool) (p : Packet) : State :=
  let c := fieldNat x.base 63 56
  if ¬ p.rows.all x.segOk then s
  else if x.lineRing ∧ ((s.col c).gated ∨ ¬ (s.col c).powered) then
    s.updCol c fun y => if y.gated then { y with gateReq := false } else y
  else
    let s1 := s.noteLater x.num isB p.rtp
    match s1.stream? false x.num with
    | none => s1
    | some x1 =>
      match x1.frames.find? fun f => f.rtp == p.rtp && !f.settled with
      | some f => s1.framePacket x.num f.number isB p
      | none =>
        if x1.stamps.contains p.rtp then s1
        else
          let s2 := s1.claimFrame x.num p.rtp
          match (s2.stream? false x.num).bind fun y =>
              y.frames.find? fun f => f.rtp == p.rtp && !f.settled with
          | some f => (s2.framePacket x.num f.number isB p).settleLeft x.num
          | none => s2

/-- A 16-byte piece of a record in a byte ring; a failure is reported at most once in 1,000,000 ns (R388,
R452). Log entry 49, DEDUCED. -/
def State.ringPiece (s : State) (num : Nat) (bs : List Byte) : State :=
  match s.stream? false num with
  | none => s
  | some x =>
    let p := ptrAdd x.base (x.lines % x.cap)
    let s1 := match s.devWrite x.ctx p bs false with
      | .ok s1 _ => s1
      | o =>
        if x.reported.any fun t => decide (t ≤ s.timeNs ∧ s.timeNs < t + 1000000) then s
        else (s.setStream { x with reported := [s.timeNs] }).devRecord x.ctx ((o.cause).getD 0) p 0
    match s1.stream? false num with
    | some y => s1.setStream { y with lines := y.lines + 16 }
    | none => s1

/-- A packet of a byte-ring stream (R388). Log entry 49, DEDUCED. -/
def State.bytePacket (s : State) (x : Stream) (p : Packet) : State :=
  if 9000 < p.payload.length ∨ x.isCopy p.seq then s
  else
    let n := (p.payload.length + 15) / 16
    let head := toLe 4 p.payload.length ++ toLe 4 p.rtp.toNat ++ toLe 4 p.seq.toNat ++ toLe 4 s.timeNs
    let s1 := s.setStream { x.take p.seq with
      frameCount := x.frameCount + 1
      latest := some (p.rtp, presOf x.hz x.offsetNs p.rtp s.timeNs, s.time, 0) }
    ((List.range n).map fun i => bytesAt p.payload (16 * i) 16).foldl (fun acc bs => acc.ringPiece x.num bs)
      (s1.ringPiece x.num head)

/-- STREAM_PACKET (R382): a packet arrives on a sub-port. -/
def execStreamPacket (sub : Nat) (p : Packet) (s : State) : Host.Outcome State Fault Refusal :=
  .next (if ¬ p.sumOk then s else
    (s.streams.filter fun x => !x.transmit).foldl (fun acc x =>
      match x.pathOf sub p, acc.stream? false x.num with
      | some isB, some y => if y.kind = 2 then acc.bytePacket y p else acc.videoPacket y isB p
      | _, _ => acc) s)

/-- FRAME_SETTLE_TIMEOUT (R383): frames settle 100,000,000 ns after FIRST. -/
def execFrameSettleTimeout (n : Nat) (s : State) : Host.Outcome State Fault Refusal :=
  .next (match s.stream? false n with
    | none => s
    | some x => (x.frames.filter fun f => decide (f.first + 100000000 ≤ s.timeNs)).foldl
        (fun acc f => acc.settleFrame n f.number) s)

/-! ## Frame cadence -/

/-- I_k (R389). -/
def instantOf (num den k : Nat) : Nat := k * den * 1000000000 / num
/-- The latest k whose instant is at or before a time, if there is a cadence (R389). Log entry 26, DEDUCED. -/
def instantAt (num den t : Nat) : Option Nat :=
  if num = 0 ∨ den = 0 then none else some (((t + 1) * num - 1) / (den * 1000000000))

/-- The cadence of a transmit stream: its rope's, or its own (R389). Log entry 26, DEDUCED.
Log entry 50, DEDUCED. -/
def State.cadence (s : State) (x : Stream) : Nat × Nat :=
  if x.rope < 4 then
    let r := s.ropes[x.rope]?.getD {}
    (r.num.toNat, r.den.toNat)
  else (x.rateNum, x.rateDen)

/-! ## Transmitting -/

/-- The state of an object of a transmit stream and its PRES in ns, if it can be read (R390, R452). -/
def State.readObj? (s : State) (x : Stream) (i : Nat) : Option (Nat × Nat) :=
  match s.devRead x.ctx (x.objAt i) 16 true with
  | .ok _ bs => some (natAt bs 0 4, t64ToNs (dwAt bs 8))
  | _ => none

/-- A write to an object of a transmit stream for an instant; a failure is reported at most once for each
(R452). Log entry 50, DEDUCED. -/
def State.objWrite (s : State) (num k : Nat) (p : DWord) (bs : List Byte) : State :=
  match s.stream? true num with
  | none => s
  | some x => match s.devWrite x.ctx p bs true with
    | .ok s1 _ => s1
    | o =>
      if x.reported.contains k then s
      else (s.setStream { x with reported := k :: x.reported }).devRecord x.ctx ((o.cause).getD 0) p 0

/-- An expulsion holds for frame k: the frame is not before it, and before the member's admission (R396, R397). -/
def Expulsion.holds (e : Expulsion) (k : Nat) : Bool := decide (e.first ≤ k) && e.back.all fun a => decide (k < a)
/-- Whether a rope presents frame k on this card; none while it is not decided (R390, R396). -/
def Rope.presents (r : Rope) (k : Nat) : Option Bool :=
  if ¬ r.enable ∨ ¬ bit r.mask r.self ∨ r.num = 0 then some false
  else (r.decided.find? fun d => d.k == k).map fun d =>
    d.presented && !(r.expelled.any fun e => e.member == r.self && e.holds k)

/-- TRANSMIT_CHOICE (R390): at the latest instant that is due, once for each, by its time: a step of the clock
backwards makes the instants that come again due again, in a cadence of any rate. Log entry 50, DEDUCED. -/
def execTransmitChoice (n : Nat) (s : State) : Host.Outcome State Fault Refusal :=
  .next (match s.stream? true n with
    | none => s
    | some x =>
      let (num, den) := s.cadence x
      match instantAt num den (s.timeNs + 2000) with
      | none => s
      | some k =>
        let ik := instantOf num den k
        let rope : Option Bool :=
          if x.rope < 4 then (s.ropes[x.rope]?.getD {}).presents k else some true
        if x.lastIk.any fun t => decide (ik ≤ t) then s
        else match rope with
          | none => s
          | some present =>
            let objs := (List.range x.buffers).filterMap fun i => (s.readObj? x i).map fun o => (i, o)
            let old := objs.filter fun o => o.2.1 == 4 && decide (o.2.2 < ik)
            let s1 := s.setStream { x with
              instant := some k, instantNs := some ik, lastIk := some ik, departed := none, missed := x.missed + old.length }
            let s2 := old.foldl (fun acc o => acc.objWrite n k (x.objAt o.1) (toLe 4 7)) s1
            match (objs.find? fun o => o.2.1 == 4 && o.2.2 == ik), present, s2.stream? true n with
            | some o, true, some x2 =>
              let send : TxSend := { instant := k, ik := ik, obj := some o.1, buf := x.bufAt o.1 }
              (s2.setStream { x2 with sends := x2.sends ++ [send], frameCount := x2.frameCount + 1 }).objWrite n k
                (x.objAt o.1) (toLe 4 5)
            | _, _, some x2 =>
              let again : List TxSend := match x2.lastSent with
                | some j => [{ instant := k, ik := ik, obj := none, buf := x.bufAt j }]
                | none => []
              s2.setStream { x2 with sends := x2.sends ++ again, repeats := x2.repeats + 1 }
            | _, _, none => s2)

/-- Packets of a line, one sample-row header each (R378, R380). -/
def Stream.perLine (x : Stream) : Nat := (x.lineBytes + x.payload - 1) / x.payload

/-- The bytes of a packet; those that cannot be read are sent as zero (R452). -/
def State.txBytes (s : State) (ctx : Nat) (p : DWord) (n : Nat) : List Byte :=
  (List.range n).map fun i => match s.devRead ctx (ptrAdd p i) 1 true with
    | .ok _ bs => bs.headD 0
    | _ => 0

/-- A frame has been sent whole: its object becomes SENT, the one before it FREE (R390). -/
def State.finishSend (s : State) (n : Nat) (x : Stream) (t : TxSend) : State :=
  match t.obj with
  | none => s
  | some j =>
    let s1 := s.objWrite n t.instant (ptrAdd (x.objAt j) 16) (toLe 8 (nsToT64 t.first).toNat)
    let s2 := s1.objWrite n t.instant (ptrAdd (x.objAt j) 24) (toLe 4 x.height)
    let s3 := s2.objWrite n t.instant (x.objAt j) (toLe 4 6)
    let s4 := match x.lastSent with
      | some i => if i = j then s3 else s3.objWrite n t.instant (x.objAt i) (toLe 4 0)
      | none => s3
    match s4.stream? true n with
    | some y => s4.setStream { y with lastSent := some j }
    | none => s4

/-- A packet on one path of the stream (R378, R380). -/
def Stream.onPath (x : Stream) (p : TxPacket) (isB : Bool) : Sent :=
  let at_ := if isB then 96 else 64
  .packet { p with
    pathB := isB, subport := natAt x.desc (if isB then 2 else 1) 1
    dst := bytesAt x.desc at_ 16, src := bytesAt x.desc (at_ + 16) 16, port := natAt x.desc (if isB then 58 else 56) 2 }
/-- The copies of a packet: one, or one on each path (R378). -/
def Stream.copies (x : Stream) (p : TxPacket) : List Sent :=
  x.onPath p false :: if x.dual then [x.onPath p true] else []

/-- The packet of a send that leaves next (R378, R380, R390). -/
def State.nextPacket (s : State) (n : Nat) (x : Stream) (t : TxSend) : TxPacket :=
  let line := t.sent / x.perLine
  let off := t.sent % x.perLine * x.payload
  { stream := n, instant := t.instant, pathB := false, subport := 0, dst := [], src := [], port := 0
    pt := natAt x.desc 15 1, ssrc := BitVec.ofNat 32 (natAt x.desc 44 4), seq := x.txSeq
    rtp := BitVec.ofNat 32 (t.ik * 9 / 100000), marker := decide (x.perLine * x.height ≤ t.sent + 1), row := line
    offset := off / (pgroup x.format).2 * (pgroup x.format).1
    data := s.txBytes x.ctx (ptrAdd t.buf (line * x.pitch + off)) (min x.payload (x.lineBytes - off)) }

/-- A send may put out a packet: it has begun, or I_k + TRO has come (R390). -/
def Stream.ready (x : Stream) (now : Nat) (t : TxSend) : Bool := decide (t.sent ≠ 0 ∨ t.ik + x.offsetNs ≤ now)

/-- TRANSMIT_PACKET (R378, R390): the next packet of the oldest send that may put one out leaves, on every path of
the stream, the first no earlier than I_k + TRO. Log entry 50, DEDUCED. -/
def execTransmitPacket (n : Nat) (s : State) : Host.Outcome State Fault Refusal :=
  .next (match s.stream? true n with
    | none => s
    | some x => match x.sends.find? (x.ready s.timeNs) with
      | none => s
      | some t =>
        let pkt := s.nextPacket n x t
        let t1 := { t with sent := t.sent + 1, first := if t.sent = 0 then s.timeNs else t.first }
        let x1 := { x with
          sends := if pkt.marker then x.sends.erase t else x.sends.replace t t1
          txSeq := x.txSeq + 1
          lines := if t1.sent % x.perLine = 0 then x.lines + 1 else x.lines
          departed := if t.sent = 0 ∧ x.instantNs = some t.ik then some s.timeNs else x.departed }
        let s1 := { s.setStream x1 with outbox := s.outbox ++ x.copies pkt }
        if pkt.marker then s1.finishSend n x1 t1 else s1)

/-! ## srd -/

/-- Settled lines at the front of the oldest frame that has not settled (R386). -/
def RxFrame.prefix_ (f : RxFrame) (bytes : Nat) : Nat → Nat → Nat
  | 0, y => y
  | n + 1, y => if f.lineDone bytes y then f.prefix_ bytes n (y + 1) else y

/-- The value of srd for a stream; none where the spec states none: no frame or instant yet (R205, R386,
R391). -/
def State.srdValue (s : State) (tx : Bool) (n b : Nat) : Option DWord :=
  match s.stream? tx n with
  | none => some 0
  | some x =>
    let c : Nat → Option DWord := fun v => some (BitVec.ofNat 64 v)
    if tx then
      match b with
      | 0 => c x.lines
      | 1 => c x.frameCount
      | 2 => x.instantNs.map fun t => BitVec.ofNat 64 (t * 9 / 100000 % 2 ^ 32)
      | 3 => x.instantNs.map nsToT64
      | 4 => x.departed.map nsToT64
      | 5 => c x.repeats
      | 6 => c x.missed
      | _ => x.lastSent.map x.objAt
    else match b with
      | 0 => c (x.lines + match x.frames with
          | f :: _ => f.prefix_ x.lineBytes x.height 0
          | [] => 0)
      | 1 => c x.frameCount
      | 2 => x.latest.map fun l => l.1.setWidth 64
      | 3 => x.latest.map fun l => l.2.1
      | 4 => x.latest.map fun l => l.2.2.1
      | 5 => c x.lostA
      | 6 => c x.lostB
      | _ => if x.lineRing ∨ x.kind = 2 then some 0 else x.latest.map fun l => l.2.2.2

/-- The words of a 64-bit value. -/
def pairWords (v : DWord) : List Word := [v.setWidth 32, v.extractLsb' 32 32]

/-- srd for one thread (R205); a read of b = 0 acquires, at device scope, the scope of rings in global memory. -/
def srdThread (d a : Code) (b : BSrc) (r : Run) (s : State) (t : TRef) : ThrRes :=
  let e := s.env r t.cid
  let x := s.thread t
  let sel := e.read32 x a
  let k := (e.readB x b).toNat
  if fieldNat sel 31 9 ≠ 0 ∨ 7 < k then .trap s (r.trap 0x97#8 0#8)
  else
    let land (s : State) (v : DWord) : ThrRes :=
      .ok ((if k = 0 ∧ ¬ x.helper then s.acquired (s.crewCol t.cid) 4 else s).updThread t fun y => y.writeLong e d 2 (.words (pairWords v)))
    match s.srdValue (bit sel 8) (fieldNat sel 7 0) k with
    | some v => land s v
    | none => land { s with freeCtr := s.freeCtr + 1 } (Config.freeDWord 7 s.freeCtr)

/-- srd (R205). -/
def execSrd (d a : Code) (b : BSrc) (s : State) : Host.Outcome State Fault Refusal :=
  s.lanes (popFirst (a :: bCodes b) (srdThread d a b))

/-! ## The PTP clock -/

/-- PTP_SYNC (R379): a sync message with the offset it measures, which counts whether or not the servo follows
the master. Log entry 27, DEDUCED. -/
def execPtpSync (offset : Int) (s : State) : Host.Outcome State Fault Refusal :=
  .next { s with ptpOffset := max (-2147483648) (min 2147483647 offset)
                 ptpGood := if offset.natAbs ≤ 250 then s.ptpGood + 1 else 0 }

/-- LOCKED (R379). Log entry 27, DEDUCED. -/
def State.ptpLocked (s : State) : Bool := decide (16 ≤ s.ptpGood)

/-- The instants whose choice lies after a time are due again (R390). Log entry 50, DEDUCED. -/
def Stream.stepped (now : Nat) (x : Stream) : Stream := { x with lastIk := x.lastIk.map fun t => min t (now + 1999) }

/-- The first frame of a rope whose decision point lies after a time (R394). -/
def Rope.frameAfter (r : Rope) (t : Nat) : Nat :=
  ((instantAt r.num.toNat r.den.toNat (t + 2000)).map (· + 1)).getD 0
/-- A rope after a step: what comes next is the first frame whose decision point is to come (R396).
Log entry 25, DEDUCED. -/
def Rope.stepped (now : Nat) (r : Rope) : Rope :=
  { r with next := min r.next (r.frameAfter now) }

/-- The clock moves; LOCKED clears (R379). It never stands before the epoch. Log entry 27, DEDUCED. -/
def State.ptpStep (s : State) (v : DWord) : State :=
  let now := (s.timeNs + v.toInt).toNat
  { s with
    timeNs := now, ptpGood := 0, streams := s.streams.map (Stream.stepped now)
    ropes := s.ropes.map (Rope.stepped now), periodAt := s.periodAt.map (min (now - 1)) }

/-- PTP_STEP (R379): a port's write. Log entry 27, DEDUCED. -/
def execPtpStep (v : ByPort DWord) (s : State) : Host.Outcome State Fault Refusal :=
  s.hostWrite v.port fun s1 => s1.ptpStep v.val

end Sys2Proof.Machine
end

