-- ==== Sys2Proof/Machine/CurdCmd.lean ====
section
/-!
DEFINITION. The commands of Curd programs (17 R424, R425): queues, contexts, decode tables, streams, tile
tables, signed images and programs (R420, R426), hand-over (R427) and attestation (R428).
-/

namespace Sys2Proof.Machine

/-! ## A command in progress -/

/-- A command of OP `op` that a queue's CMD waits for. -/
def State.onCommand (s : State) (q op : Nat) (f : CurdRun → Command → State) :
    Host.Outcome State Fault Refusal :=
  match (s.queue q).run with
  | some r => match r.park, r.cmd with
    | .command, some c => if c.op.toNat = op then .next (f r c) else .next s
    | _, _ => .next s
  | none => .next s

/-- The command is complete: wA takes the result code, and the program goes on (R424). -/
def State.cmdDone (s : State) (q : Nat) (r : CurdRun) (c : Command) (code : Nat) : State :=
  { s.curdPut q r c.reg (BitVec.ofNat 64 code) with turn := .curd q }

/-- An access of a command: a page fault makes it wait, another failure is code 6 (R424, R349). -/
def State.cmdAccess (s : State) (q : Nat) (r : CurdRun) (c : Command) (access : Byte) (acc : DevOut)
    (ok : State → List Byte → State) : State :=
  let held := match r.eng with
    | some id => !s.engFree id
    | none => false
  if held then s
  else match r.eng.bind fun id => (s.eng id).failed with
    | some _ => s.cmdDone q r c 6
    | none => match acc with
      | .ok s1 bs => ok s1 bs
      | .bad _ => s.cmdDone q r c 6
      | .fault k ia ea =>
        let (id, s1) := match r.eng with
          | some id => (id, s)
          | none => s.fresh
        let (n, s2) := s1.packetNo q r
        (s2.opFault id (s2.faultWhoCurd q id n access) k ia ea).setCurd q { r with eng := some id }

/-- Bytes that SRC names. -/
def State.cmdRead (s : State) (q : Nat) (r : CurdRun) (c : Command) (p : DWord) (n : Nat)
    (ok : State → List Byte → State) : State :=
  s.cmdAccess q r c 1#8 (s.devRead (s.queue q).ctx p n false) ok

/-! ## Queues -/

/-- A queue descriptor whose fields are in range (R418). -/
def queueDescOk (d : List Byte) : Bool :=
  ptrIs [0, 4] 128 (dwAt d 0) && decide (1 ≤ natAt d 8 4 ∧ natAt d 8 4 ≤ 65536) && semOr (d.getD 13 0) &&
  decide ((d.getD 14 0).toNat < 2) && d.getD 15 0 == 0 && decide (natAt d 16 2 < 256) && !nonzeroAt d 18 6 &&
  ptrOr0 [0, 4] 16 (dwAt d 24) && !nonzeroAt d 32 32

/-- A queue as installed: HEAD, TAIL, the registers and the record are 0, STOPPED is clear (R419, R425).
Log entry 57, DEDUCED. -/
def Queue.install (x : Queue) (d : List Byte) : Queue :=
  { x with installed := true, ring := dwAt d 0, slots := natAt d 8 4, ctx := natAt d 12 1
           ownerSem := natAt d 13 1, admin := bit (d.getD 14 0) 0, program := natAt d 16 2, errAt := dwAt d 24
           tail := 0, head := 0, stopped := false, w := .replicate 16 0, record := List.replicate 128 0 }

/-- QUEUE_INSTALL (R425). -/
def execQueueInstall (q : Nat) (s : State) : Host.Outcome State Fault Refusal :=
  s.onCommand q 1 fun r c =>
    let n := c.arg.toNat
    if 256 ≤ n then s.cmdDone q r c 2
    else s.cmdRead q r c c.src 64 fun s1 d =>
      if ¬ queueDescOk d then s1.cmdDone q r c 4
      else if (s1.queue n).head ≠ (s1.queue n).tail ∨ (s1.queue n).run.isSome then s1.cmdDone q r c 5
      else (s1.updQueue n fun x => x.install d).cmdDone q r c 0

/-- QUEUE_RESTART (R425). -/
def execQueueRestart (q : Nat) (s : State) : Host.Outcome State Fault Refusal :=
  s.onCommand q 2 fun r c =>
    let n := c.arg.toNat
    if 256 ≤ n then s.cmdDone q r c 2
    else if ¬ (s.queue n).stopped then s.cmdDone q r c 5
    else (s.updQueue n fun x => { x with stopped := false }).cmdDone q r c 0

/-! ## Contexts and bounds tables -/

/-- The four words of a range register, without the bits that read zero (R269). -/
def RangeReg.parse (d : List Byte) : RangeReg :=
  { base := dwAt d 0 &&& 0xffffffffffff0000#64, limit := dwAt d 8 &&& 0x000fffffffff0000#64
    xlat := dwAt d 16 &&& 0x0fffffffffff0000#64, ctl := dwAt d 24 &&& 0x8f#64 }

/-- An entry of a bounds table (R270). -/
def BoundsEnt.parse (d : List Byte) : BoundsEnt :=
  { lo := natAt d 0 8 % 2 ^ 60, hi := natAt d 8 8 % 2 ^ 60, ctl := d.getD 16 0 &&& 0x8f#8 }

/-- The bounds table at a physical address of G7 DRAM (R270, R425). -/
def State.readBounds (s : State) (addr : DWord) : List BoundsEnt :=
  (List.range 256).map fun i => BoundsEnt.parse (s.bytes (mkKey regDram (addr.toNat + 32 * i)) 32)

/-- A context descriptor whose fields are in range (R272, R425). -/
def contextDescOk (d : List Byte) : Bool :=
  let root := natAt d 256 8
  let bt := natAt d 264 8
  root % 524288 == 0 && decide (root + 524288 ≤ dramSize) && bt % 8192 == 0 && decide (bt + 8192 ≤ dramSize) &&
  !nonzeroAt d 272 16

/-- A context installed, its generation and decode tables as they were (R269, R425). Log entry 57, DEDUCED. -/
def State.putContext (s : State) (n : Nat) (d : List Byte) : State :=
  let old := s.ctx? n
  let c : Context := {
    num := n
    ranges := Vector.ofFn fun (i : Fin 8) => RangeReg.parse (bytesAt d (32 * i.val) 32)
    root := natAt d 256 8, boundsAddr := dwAt d 264, bounds := s.readBounds (dwAt d 264)
    tables := (old.map (·.tables)).getD [] }
  { s with contexts := c :: s.contexts.filter fun x => x.num != n }

/-- CONTEXT_INSTALL (R425). Log entry 57, DEDUCED. -/
def execContextInstall (q : Nat) (s : State) : Host.Outcome State Fault Refusal :=
  s.onCommand q 3 fun r c =>
    let n := c.arg.toNat
    if 256 ≤ n then s.cmdDone q r c 2
    else s.cmdRead q r c c.src 288 fun s1 d =>
      if ¬ contextDescOk d then s1.cmdDone q r c 4
      else if s1.launches.any fun l => l.ctx == n then s1.cmdDone q r c 5
      else (s1.putContext n d).cmdDone q r c 0

/-- BOUNDS_PUBLISH (R270, R425). -/
def execBoundsPublish (q : Nat) (s : State) : Host.Outcome State Fault Refusal :=
  s.onCommand q 4 fun r c => match s.ctx? c.arg.toNat with
    | none => s.cmdDone q r c 2
    | some x => (s.updCtx x.num fun y => { y with bounds := s.readBounds y.boundsAddr }).cmdDone q r c 0

/-! ## Decode tables -/

/-- The entries of one set of an image (R62). -/
def tableEntries (d : List Byte) (off : Nat) : List Nat := (List.range 1024).map fun i => natAt d (off + 2 * i) 2
/-- VALID and TARGET of an entry. -/
def entryTarget (e : Nat) : Option (BitVec 10) := if 32768 ≤ e then some (BitVec.ofNat 10 e) else none
/-- An opcode of a set is assigned in table 0 (R54 to R60). Log entry 4, DEDUCED. -/
def assigned (uniform : Bool) (t : BitVec 10) : Bool :=
  (!uniform && t == 0x3ff#10) || (findRow ((if uniform then 1024 else 0) + t.toNat)).isSome

/-- A decode table image that the front end takes (R63). -/
def tableImageOk (d : List Byte) : Bool :=
  let lane := tableEntries d 8
  let uni := tableEntries d 2056
  let ok (uniform : Bool) (e : Nat) : Bool :=
    e / 1024 % 32 == 0 && ((entryTarget e).map (assigned uniform)).getD true
  natAt d 0 2 == 1 && !nonzeroAt d 2 2 && lane.all (ok false) && uni.all (ok true) &&
  entryTarget (lane.getD 1023 0) == some 0x3ff#10 &&
  (lane.take 1023).all fun e => e % 1024 != 1023

/-- DECODE_INSTALL (R61 to R63, R425). -/
def execDecodeInstall (q : Nat) (s : State) : Host.Outcome State Fault Refusal :=
  s.onCommand q 5 fun r c =>
    let n := fieldNat c.arg 15 8
    let k := fieldNat c.arg 3 0
    if k = 0 ∨ fieldNat c.arg 31 16 ≠ 0 ∨ fieldNat c.arg 7 4 ≠ 0 ∨ (s.ctx? n).isNone then s.cmdDone q r c 2
    else s.cmdRead q r c c.src 4104 fun s1 d =>
      if ¬ tableImageOk d then s1.cmdDone q r c 4
      else if s1.launches.any fun l => l.ctx == n && l.decodeNum == k then s1.cmdDone q r c 5
      else
        let t : DecodeTable := {
          num := k, lane := (tableEntries d 8).map entryTarget
          uniform := (tableEntries d 2056).map entryTarget, digest := wAt (sha3 d) 0 }
        (s1.updCtx n fun x => { x with tables := t :: x.tables.filter fun y => y.num != k }).cmdDone q r c 0

/-! ## Signed images (R426) -/

/-- The fields of an envelope that are not as R426 lays them out. Log entry 57, DEDUCED. -/
def envelopeBad (h : List Byte) (kind : Nat) : Bool :=
  natAt h 0 4 != 0x4e4c5453 || natAt h 4 1 != kind || decide (3 < natAt h 5 1) || nonzeroAt h 6 2 ||
  nonzeroAt h 2468 12

/-- The image is accepted (R426). -/
def imageOk (h body : List Byte) : Bool :=
  sha3 (bytesAt h 2480 1312) == Config.fusedDigest (natAt h 5 1) &&
  dsaVerify (bytesAt h 2480 1312) (sha3 (bytesAt h 0 48)) (bytesAt h 48 2420) &&
  bytesAt h 16 32 == sha3 body && decide (Config.fusedVersion (natAt h 4 1) ≤ natAt h 8 4)

/-- The image of an envelope and its body. -/
def Image.parse (h body : List Byte) : Image :=
  { head := h, kind := h.getD 4 0, version := wAt h 8, digest := bytesAt h 16 32, body := body }

/-- A command's signed image of a kind: the envelope, then the body; refused with 4 or 3 (R424, R426).
Log entry 57, DEDUCED. -/
def State.cmdImage (s : State) (q : Nat) (r : CurdRun) (c : Command) (kind : Nat)
    (ok : State → Image → State) : State :=
  s.cmdRead q r c c.src 3792 fun s1 h =>
    if envelopeBad h kind then s1.cmdDone q r c 4
    else
      let fin (s : State) (body : List Byte) : State :=
        if imageOk h body then ok s (Image.parse h body) else s.cmdDone q r c 3
      if natAt h 12 4 = 0 then fin s1 []
      else s1.cmdRead q r c (ptrAdd c.src 3792) (natAt h 12 4) fin

/-! ## The checks of a Curd program (R420) -/

/-- OP, A and IMM of an operation word (R419). -/
def curdOpc (w : Word) : Nat := fieldNat w 31 24
def curdA (w : Word) : Nat := fieldNat w 23 20
def curdI (w : Word) : Nat := fieldNat w 15 0

/-- Whether an operation uses the fields A, B and IMM (R419). -/
def curdUses : Nat → Option (Bool × Bool × Bool)
  | 0x01 | 0x02 | 0x03 | 0x0a | 0x0b | 0x10 | 0x11 | 0x18 | 0x19 | 0x1a | 0x20 | 0x21 | 0x23 =>
    some (true, false, true)
  | 0x04 | 0x05 | 0x06 | 0x07 | 0x08 | 0x09 | 0x0c | 0x1d | 0x1e => some (true, true, false)
  | 0x13 | 0x14 => some (true, true, true)
  | 0x15 | 0x1b | 0x1c => some (true, false, false)
  | 0x22 => some (false, false, true)
  | 0x12 | 0x24 | 0x25 => some (false, false, false)
  | _ => none

/-- The operation is defined, its unused fields are zero, and its semaphore, offset or shift is in range. -/
def curdWordOk (w : Word) : Bool :=
  match curdUses (curdOpc w) with
  | none => false
  | some (a, b, i) =>
    (a || curdA w == 0) && (b || fieldNat w 19 16 == 0) && (i || curdI w == 0) &&
    match curdOpc w with
    | 0x0a | 0x0b => decide (curdI w < 64)
    | 0x10 | 0x11 => curdI w % 8 == 0 && decide (curdI w ≤ 120)
    | 0x18 | 0x19 | 0x1a => decide (curdI w < 64)
    | _ => true

/-- A forward branch or a jump. -/
def curdJumps (w : Word) : Bool := decide (0x20 ≤ curdOpc w ∧ curdOpc w ≤ 0x22)
/-- The operation writes its A register. -/
def curdWrites (w : Word) : Bool :=
  let o := curdOpc w
  decide (1 ≤ o ∧ o ≤ 0x0c) || [0x10, 0x13, 0x15, 0x1c, 0x1d, 0x1e, 0x23].contains o

/-- The targets of the operation at an index lie in the program (R420). -/
def curdTargetOk (ops : List Word) (i : Nat) : Bool :=
  let w := ops.getD i 0
  if curdJumps w then curdI w != 0 && decide (i + curdI w < ops.length)
  else if curdOpc w = 0x23 then curdI w != 0 && decide (curdI w ≤ i) else true

/-- The body of the LOOP at an index, the operations before it from its target, leaves its counter alone and is left by
no branch (R420). Log entry 57, DEDUCED. -/
def curdLoopOk (ops : List Word) (i : Nat) : Bool :=
  let w := ops.getD i 0
  if curdOpc w ≠ 0x23 then true
  else (List.range (curdI w)).all fun k =>
    let j := i - curdI w + k
    let x := ops.getD j 0
    !(curdWrites x && curdA x == curdA w) && (!curdJumps x || decide (j + curdI x < i))

/-- The indexes that may follow the operation at an index. -/
def curdSucc (ops : List Word) (i : Nat) : List Nat :=
  let w := ops.getD i 0
  match curdOpc w with
  | 0x20 | 0x21 => [i + 1, i + curdI w]
  | 0x22 => [i + curdI w]
  | 0x23 => [i + 1, i - curdI w]
  | 0x24 | 0x25 => []
  | _ => [i + 1]

/-- The indexes that some path reaches, found from a frontier. -/
def curdReach (ops : List Word) : Nat → List Nat → List Nat → List Nat
  | 0, _, seen => seen
  | n + 1, front, seen =>
    let new := ((front.filter fun i => decide (i < ops.length)).flatMap (curdSucc ops)).eraseDups.filter
      fun i => !seen.contains i
    curdReach ops n new (seen ++ new)

/-- A program that the front end takes (R420). -/
def curdProgramOk (ops : List Word) (entries : List Nat) : Bool :=
  let ids := List.range ops.length
  ops.all curdWordOk && ids.all (curdTargetOk ops) && ids.all (curdLoopOk ops) &&
  entries.all (fun e => decide (e < ops.length)) &&
  !(curdReach ops (ops.length + 1) entries entries).contains ops.length

/-- The program that a Curd body holds, if R420 takes it (R426). -/
def curdParse (n : Nat) (im : Image) : Option CurdProgram :=
  let count := natAt im.body 8 4
  let done := natAt im.body 4 4
  let ops := (List.range count).map fun i => wAt im.body (16 + 4 * i)
  let entries := if done = 0xffffffff then [natAt im.body 0 4] else [natAt im.body 0 4, done]
  if count = 0 ∨ 4096 < count ∨ nonzeroAt im.body 12 4 ∨ im.body.length ≠ 16 + 4 * count ∨
      ¬ curdProgramOk ops entries then none
  else some { num := n, entryPkt := natAt im.body 0 4
              entryDone := if done = 0xffffffff then none else some done, ops := ops, digest := im.digest }

/-- CURD_INSTALL (R420, R425, R426). -/
def execCurdInstall (q : Nat) (s : State) : Host.Outcome State Fault Refusal :=
  s.onCommand q 6 fun r c =>
    let n := c.arg.toNat
    if 256 ≤ n then s.cmdDone q r c 2
    else s.cmdImage q r c 2 fun s1 im => match curdParse n im with
      | none => s1.cmdDone q r c 4
      | some p =>
        if s1.queues.toList.any fun x => x.program == n && x.run.isSome then s1.cmdDone q r c 5
        else { s1 with programs := p :: s1.programs.filter fun x => x.num != n }.cmdDone q r c 0

/-- IMAGE_STAGE (R425, R426): the front end's inactive bank, or a link processor. -/
def execImageStage (q : Nat) (s : State) : Host.Outcome State Fault Refusal :=
  s.onCommand q 9 fun r c =>
    let n := c.arg.toNat
    if 4 < n then s.cmdDone q r c 2
    else s.cmdImage q r c (if n = 0 then 1 else 3) fun s1 im =>
      (if n = 0 then { s1 with banks := s1.banks.setIfInBounds (1 - s1.activeBank) im, staged := some im }
       else { s1 with linkStaged := s1.linkStaged.setIfInBounds (n - 1) (some im) }).cmdDone q r c 0

/-! ## Hand-over and attestation -/

/-- A queue is at a quiescent point (R427); a queue whose CMD is a HANDOVER is. Log entry 85, DEDUCED. -/
def Queue.quiescent (x : Queue) : Bool :=
  match x.run with
  | none => true
  | some r => match r.park with
    | .sem .. | .time _ | .lwait .. | .launch _ => true
    | _ => (r.cmd.map fun c => c.op == 10#8).getD false

/-- HANDOVER (R427): it waits for every queue's quiescent point; the staged image takes over when it reads the
running one's VERSION. Log entry 85, DEDUCED. -/
def execHandover (q : Nat) (s : State) : Host.Outcome State Fault Refusal :=
  s.onCommand q 10 fun r c => match s.staged with
    | none => s.cmdDone q r c 2
    | some im =>
      if ¬ s.queues.toList.all Queue.quiescent then s
      else
        let v := ((s.banks[s.activeBank]?).getD {}).version.toNat
        if natAt im.body 0 4 ≤ v ∧ v ≤ natAt im.body 4 4 then
          { s with activeBank := 1 - s.activeBank, staged := none }.cmdDone q r c 0
        else s.cmdDone q r c 4

/-- The attestation block under a nonce (R428). -/
def State.attestation (s : State) (nonce : List Byte) : List Byte :=
  let progs := s.programs.mergeSort fun a b => decide (a.num ≤ b.num)
  let body := nonce ++ bytesAt ((s.banks[s.activeBank]?).getD {}).digest 0 32 ++
    sha3 (s.linkImages.toList.flatMap (fun i => bytesAt i.digest 0 32) ++
      progs.flatMap fun p => bytesAt p.digest 0 32) ++
    ([1, 2, 3].map fun k => BitVec.ofNat 8 (Config.fusedVersion k)) ++ List.replicate 5 0 ++
    toLe 8 s.time.toNat ++ List.replicate 16 0
  body ++ bytesAt (Config.sign (sha3 body)) 0 2420 ++ (List.range 1312).map Config.identityKey

/-- ATTEST (R428). -/
def execAttest (q : Nat) (s : State) : Host.Outcome State Fault Refusal :=
  s.onCommand q 11 fun r c =>
    s.cmdRead q r c c.src 32 fun s1 nonce =>
      s1.cmdAccess q r c 2#8 (s1.devWrite (s1.queue q).ctx c.dst (s1.attestation nonce) false)
        fun s2 _ => s2.cmdDone q r c 0

/-! ## Streams and tile tables -/

/-- A field in an address that IPv4 leaves zero (R380). -/
def addrsOk (d : List Byte) (off : Nat) : Bool := !nonzeroAt d (off + 4) 12 && !nonzeroAt d (off + 20) 12

/-- The fields of a video descriptor are in range (R380). -/
def Stream.videoOk (x : Stream) : Bool :=
  let g := pgroup x.format
  decide (x.format ≤ 3) && x.width % g.1 == 0 && decide (2 ≤ x.width ∧ x.width ≤ 16384) &&
  decide (1 ≤ x.height ∧ x.height ≤ 8640) && x.pitch % 16 == 0 && decide (x.lineBytes ≤ x.pitch) &&
  (if x.lineRing then
    !x.transmit && x.buffers == 0 && decide (2 ≤ natAt x.desc 14 1 ∧ natAt x.desc 14 1 ≤ 12) &&
      decide (fieldNat x.base 63 56 < 96) && fieldNat x.base 55 22 == 0
   else decide (1 ≤ x.buffers ∧ x.buffers ≤ 16) && ptrSpace x.base == 0 && ptrIs [0] 64 x.objBase) &&
  (if x.transmit then decide (natAt x.desc 5 1 ≤ 2) && (decide (x.rope < 4) || x.rope == 255) &&
      x.payload % g.2 == 0 && decide (180 ≤ x.payload ∧ x.payload ≤ 8960)
   else natAt x.desc 5 1 == 0 && x.rope == 255)

/-- The fields of a byte-ring descriptor are in range (R380, R388); no rule sends one. -/
def Stream.ringOk (x : Stream) : Bool :=
  !x.transmit && !x.lineRing && decide (x.format ≤ 2) && natAt x.desc 5 1 == 0 && x.buffers == 0 &&
  x.rope == 255 && decide (12 ≤ natAt x.desc 14 1 ∧ natAt x.desc 14 1 ≤ 30) && ptrSpace x.base == 0

/-- The sub-ports that a descriptor names (R380). -/
def Stream.subports (x : Stream) : List Nat := natAt x.desc 1 1 :: if x.dual then [natAt x.desc 2 1] else []

/-- The frame rate of a transmit stream: a rope's, or its own (R389). -/
def State.rateOf (s : State) (x : Stream) : Nat × Nat :=
  if x.rope < 4 then
    let p := (s.ropes[x.rope]?).getD {}
    (p.num.toNat, p.den.toNat)
  else (x.rateNum, x.rateDen)

/-- The bits that a transmit stream sends in a second. Log entry 50, DEDUCED. -/
def State.bitRate (s : State) (x : Stream) : Nat :=
  x.lineBytes * x.height * 8 * (s.rateOf x).1 / (s.rateOf x).2

/-- Into how many sub-ports a sub-port's port is split. Log entry 51, DESIGN CHOICE. -/
def State.splitOf (s : State) (n : Nat) : Nat := (s.portSplit[n / 4]?).getD 1

/-- The sub-ports exist, and with this stream each carries no more than its rate (R378, R381). -/
def State.ratesOk (s : State) (x : Stream) : Bool :=
  x.subports.all fun n => decide (n < 16 ∧ n % 4 < s.splitOf n) && (!x.transmit ||
    let others := s.streams.filter fun y => y.transmit && y.num != x.num && y.subports.contains n
    decide (((x :: others).map s.bitRate).foldl (· + ·) 0 ≤ 400000000000 / s.splitOf n))

/-- A descriptor that the front end takes (R380, R381). -/
def State.streamOk (s : State) (x : Stream) : Bool :=
  (if x.kind = 1 then x.videoOk else x.kind == 2 && x.ringOk) && decide (x.flags.toNat < 8) &&
  decide (natAt x.desc 15 1 < 128) && !nonzeroAt x.desc 60 4 &&
  (bit x.flags 1 || (addrsOk x.desc 64 && (!x.dual || addrsOk x.desc 96))) && s.ratesOk x

/-- The joins of a receive stream, one for each path (R378, R380): of the group from its source, or from any where
SRC is zero. Log entry 110, DESIGN CHOICE. -/
def Stream.joins (x : Stream) : List Sent :=
  let v6 := bit x.flags 1
  let len := if v6 then 16 else 4
  let join (port at_ : Nat) : Sent :=
    .join v6 (natAt x.desc port 1) (bytesAt x.desc at_ len)
      (if nonzeroAt x.desc (at_ + 16) 16 then some (bytesAt x.desc (at_ + 16) len) else none)
  if x.transmit then [] else join 1 64 :: if x.dual then [join 2 96] else []

/-- STREAM_INSTALL (R378, R380, R381, R425): LEN 0 removes; a receive stream's groups are joined. The number of a
transmit stream's first packet is a free value. Log entry 50, DEDUCED. Log entry 110, DESIGN CHOICE. -/
def execStreamInstall (q : Nat) (s : State) : Host.Outcome State Fault Refusal :=
  s.onCommand q 7 fun r c =>
    let tx := bit c.arg 8
    let n := fieldNat c.arg 7 0
    let rest (s : State) : List Stream := s.streams.filter fun x => !(x.transmit == tx && x.num == n)
    if fieldNat c.arg 31 9 ≠ 0 then s.cmdDone q r c 2
    else if c.len = 0 then { s with streams := rest s }.cmdDone q r c 0
    else s.cmdRead q r c c.src 128 fun s1 d =>
      let x : Stream := {
        num := n, transmit := tx, desc := d, ctx := (s1.queue q).ctx, txSeq := Config.freeWord 19 s1.freeCtr }
      if s1.streamOk x then
        { s1 with streams := rest s1 ++ [x], outbox := s1.outbox ++ x.joins, freeCtr := s1.freeCtr + 1 }.cmdDone q r c 0
      else s1.cmdDone q r c 4

/-- TILE_INSTALL (R406, R424, R425): the table is checked as SRC names it; LEN 0 removes. -/
def execTileInstall (q : Nat) (s : State) : Host.Outcome State Fault Refusal :=
  s.onCommand q 8 fun r c =>
    let n := c.len.toNat
    if 4096 < n ∨ ¬ ptrIs [0] 64 c.src then s.cmdDone q r c 2
    else
      let install (s : State) : State :=
        let ctx := (s.queue q).ctx
        let rest := s.tiles.filter fun t => !(t.ctx == ctx && t.addr == c.src)
        if s.colls.any fun e => e.ctx == ctx && e.table == c.src then s.cmdDone q r c 5
        else
          let t : TileTable := { ctx := ctx, addr := c.src, len := n }
          { s with tiles := if n = 0 then rest else rest ++ [t] }.cmdDone q r c 0
      if n = 0 then install s else s.cmdRead q r c c.src (64 * n) fun s1 _ => install s1

end Sys2Proof.Machine
end

