-- ==== Sys2Proof/Machine/Place.lean ====
section
/-!
DEFINITION. Placement: what a workgroup needs of a core (01 R12 to R14, 12 R334, 10 R286), the start of a
workgroup (01 R11, R16 to R19, 08 R209), the rank of launches and what holds one back (12 R324, R325, R328,
R329, R333, R335, 14 R366, R373), deques and stealing (12 R337 to R340, 13 R360).
-/

namespace Sys2Proof.Machine

/-! ## What a workgroup needs, and whether a core has it -/

/-- What a workgroup needs: producer and consumer crews and the register bytes of one of each, scratchpad bytes,
whether it has a sequencer program, and its tokens. -/
structure Need where
  prod : Nat
  cons : Nat
  prodBytes : Nat
  consBytes : Nat
  scratch : Nat
  seq : Bool
  cost : Nat
  deriving DecidableEq, Repr

/-- The register bytes of a crew, helper threads among them (R14). -/
def crewBytes (size allot : Nat) : Nat := (size + 3) / 4 * 4 * allot * 4

/-- What a workgroup of a role-entry table needs. -/
def Roles.need (r : Roles) (cost : Nat) : Need :=
  { prod := r.prodCrews, cons := r.consCrews, prodBytes := crewBytes r.crewSize r.prodAllot
    consBytes := crewBytes r.crewSize r.consAllot, scratch := r.scratch, seq := r.seqPc != 0
    cost := if r.seqPc = 0 then 0 else cost }

/-- What a task needs (R12, R13). -/
def taskNeed (r : Roles) (threads : Nat) : Need :=
  { prod := 0, cons := 1, prodBytes := 0, consBytes := crewBytes threads r.consAllot, scratch := r.scratch
    seq := false, cost := 0 }

/-- The crews and the register bytes that are free in each partition of a core, the workgroups that `gone` names
counted as ended (R14). Log entry 60, DEDUCED. -/
def State.partRoom (s : State) (c : Nat) (gone : Workgroup → Bool) : List (Nat × Nat) :=
  let wgs := (s.colWgs c).filter fun w => !gone w
  let crews := s.crews.filter fun x => wgs.any fun w => w.wid == x.wid
  (List.range 8).map fun p =>
    let mine := crews.filter fun x => x.part == p
    (12 - mine.length, 196608 - (mine.map fun x => crewBytes x.size x.allot).foldl (· + ·) 0)

/-- The crews of each role put into each partition, if they can all be placed (R14). Log entry 60, DEDUCED. -/
def assignCrews (n : Need) : List (Nat × Nat) → Nat → Nat → Option (List (Nat × Nat))
  | [], p, c => if p = 0 ∧ c = 0 then some [] else none
  | (slots, room) :: rest, p, c => (List.range (p + 1)).findSome? fun k =>
    if slots < k ∨ room < k * n.prodBytes then none
    else
      let m := min c (min (slots - k) ((room - k * n.prodBytes) / n.consBytes))
      (assignCrews n rest (p - k) (c - m)).map fun x => (k, m) :: x

/-- The crews put into the partitions one by one, producers first, each into the partition with the fewest crews,
the lowest among equals, in which it fits and leaves room for the others; at most `n` of them (R14).
Log entry 60, DEDUCED. -/
def spreadCrews (n : Need) : Nat → List (Nat × Nat) → Nat → Nat → List (Nat × Nat) → Option (List (Nat × Nat))
  | 0, _, _, _, acc => some acc
  | f + 1, rooms, p, c, acc =>
    let prod := decide (0 < p)
    let bytes := if prod then n.prodBytes else n.consBytes
    let p1 := p - 1
    let c1 := if prod then c else c - 1
    let room (i : Nat) : Nat × Nat := rooms.getD i (0, 0)
    let after (i : Nat) : List (Nat × Nat) := rooms.set i ((room i).1 - 1, (room i).2 - bytes)
    let fitsIn (i : Nat) : Bool :=
      decide (0 < (room i).1 ∧ bytes ≤ (room i).2) && (assignCrews n (after i) p1 c1).isSome
    let best := ((List.range rooms.length).filter fitsIn).foldl (fun b i => match b with
      | none => some i
      | some j => if (room j).1 < (room i).1 then some i else some j) none
    match best with
    | none => none
    | some i =>
      let had := acc.getD i (0, 0)
      spreadCrews n f (after i) p1 c1 (acc.set i (if prod then (had.1 + 1, had.2) else (had.1, had.2 + 1)))

/-- The lowest offset at which a scratchpad range is free, below the pool's limit (R285, R286). -/
def State.scratchRoom (s : State) (c : Nat) (gone : Workgroup → Bool) (size : Nat) : Option Nat :=
  let x := s.col c
  let limit := (if x.poolBusy then min x.poolCurrent x.poolTarget else x.poolCurrent) * 524288
  let used := ((s.colWgs c).filter fun w => !gone w).map fun w => (w.scratchBase, w.scratchBase + w.scratchSize)
  ((0 :: used.map (·.2)).filter fun o => decide (o + size ≤ limit) &&
    used.all fun u => decide (o + size ≤ u.1 ∨ u.2 ≤ o)).min?

/-- PWR_AVAIL's tokens held (R330). -/
def State.tokensHeld (s : State) (gone : Workgroup → Bool) : Nat :=
  ((s.wgs.filter fun w => !gone w).map fun w => w.tokens).foldl (· + ·) 0
/-- The tokens of `k` such workgroups are there (R329). Log entry 61, DEDUCED. -/
def State.tokensOk (s : State) (gone : Workgroup → Bool) (n : Need) (k : Nat) : Bool :=
  !n.seq || decide (s.tokensHeld gone + k * n.cost ≤ s.pwrTokens)

/-- Placement on a core is not stopped (R293, R361, R362). Log entry 77, DEDUCED. -/
def Column.open (x : Column) : Bool := x.powered && !x.gated && !x.gateReq && !x.withdrawn

/-- Where a workgroup goes in a core: its crews by partition and its scratchpad offset (R334).
Log entry 60, DEDUCED. -/
def State.fitAt (s : State) (c : Nat) (gone : Workgroup → Bool) (n : Need) : Option (List (Nat × Nat) × Nat) :=
  let seqTaken : Bool := match (s.col c).seqr.holder with
    | some wid => !gone (s.wg wid)
    | none => false
  if ¬ (s.col c).open ∨ 32 ≤ ((s.colWgs c).filter fun w => !gone w).length ∨ (n.seq ∧ seqTaken) then none
  else match spreadCrews n (n.prod + n.cons) (s.partRoom c gone) n.prod n.cons (List.replicate 8 (0, 0)),
      s.scratchRoom c gone n.scratch with
    | some a, some o => some (a, o)
    | _, _ => none

/-- No workgroup is counted as ended. -/
def noneGone (_ : Workgroup) : Bool := false
/-- A workgroup fits a core (R334). -/
def State.fits (s : State) (c : Nat) (n : Need) : Bool :=
  (s.fitAt c noneGone n).isSome && s.tokensOk noneGone n 1

/-! ## A workgroup starts -/

/-- A crew to be started: its role, entry point, size and allotment. -/
structure CrewPlan where
  producer : Bool
  consumer : Bool
  pc : DWord
  size : Nat
  allot : Nat
  part : Nat

/-- The index that a record named by a task's yield carries: all ones (R360). Log entry 70, DEDUCED. -/
def noIndex : Nat := 2 ^ 64 - 1
/-- The grid coordinates of an index (R10, R19); all ones for none. -/
def Launch.coords (l : Launch) (i : Nat) : DWord :=
  let x := l.ext 0
  let y := l.ext 1
  if i = noIndex then BitVec.allOnes 64 else BitVec.ofNat 64 (i % x + i / x % y * 2 ^ 21 + i / (x * y) * 2 ^ 42)

/-- g0 to g4 at a crew's or a sequencer's start (R19). -/
def startG (r : Record) (index coords : DWord) : Vector DWord 256 :=
  (((((Vector.replicate 256 0).set 0 r.frame).set 1 r.addr).set 2 r.deadline).set 3 index).set 4 coords

/-- A thread at its start (R11, R16 to R18). -/
def startThread (cid : Nat) (p : CrewPlan) (sp : Nat → DWord) (clock : Nat) (t : Nat) : Thread :=
  let x : Thread := { cid := cid, tid := t, helper := decide (p.size ≤ t), allot := p.allot, pc := p.pc
                      regionPc := p.pc, since := clock }
  x.setPair (p.allot - 2) (sp t)

/-- `sp` of a thread (R18). -/
def Launch.spOf (l : Launch) (task : Bool) (w c t : Nat) : DWord :=
  if task ∨ l.stackSize = 0 then 0
  else l.stackBase + BitVec.ofNat 64 (((w * 16 + c) * 64 + t + 1) * l.stackSize.toNat)

/-- The partitions of the crews of a role, in order. -/
def partsOf (f : Nat × Nat → Nat) (a : List (Nat × Nat)) : List Nat :=
  (List.range a.length).flatMap fun p => List.replicate (f (a.getD p (0, 0))) p

/-- The crews of a role-entry table (R12). -/
def Roles.crewPlans (r : Roles) (a : List (Nat × Nat)) : List CrewPlan :=
  (List.range r.prodCrews).map (fun i => ⟨true, false, r.prodPc, r.crewSize, r.prodAllot,
    (partsOf (·.1) a).getD i 0⟩) ++
  (List.range r.consCrews).map fun i => ⟨false, true, r.consPc, r.crewSize, r.consAllot,
    (partsOf (·.2) a).getD i 0⟩

/-- A launch's first workgroup on a core invalidates the core's instruction cache (R278). -/
def State.enterCore (s : State) (lid c : Nat) : State :=
  if (s.launch lid).cores.contains c then s
  else (s.updCol c fun x => { x with icache := [] }).updLaunch lid fun l => { l with cores := l.cores ++ [c] }

/-- A workgroup starts on a core (R12, R16 to R19, R209, R334): `base` is all of it but what is fixed here. The
index and coordinates of a grid record that a join pushed are not stated. A resumed workgroup's crews start with QNT_*
zero, as any crew's (R157): the words of R134 are read as what software saves and restores (log entry 102, DEDUCED). No
transaction barrier that an earlier holder of its scratchpad range named stands there any more. Log entry 29, DEDUCED. -/
def State.startWg (s : State) (base : Workgroup) (roles : Roles) (n : Need) (plans : List CrewPlan)
    (off : Nat) : State :=
  let l := s.launch base.lid
  let wid := s.nextId
  let clock := (s.col base.col).clock
  let stated := base.task || base.index.isSome
  let idx : DWord := if base.task then BitVec.allOnes 64
    else match base.index with
      | some i => BitVec.ofNat 64 i
      | none => Config.freeDWord 11 s.freeCtr
  let coords : DWord := if base.task then BitVec.allOnes 64
    else match base.index with
      | some i => l.coords i
      | none => Config.freeDWord 12 s.freeCtr
  let g := startG base.record idx coords
  let crews : List Crew := (List.range plans.length).zip plans |>.map fun p =>
    { cid := wid + 1 + p.1, wid := wid, idx := p.1, size := p.2.size, producer := p.2.producer
      consumer := p.2.consumer, allot := p.2.allot, part := p.2.part, g := g, gDone := g, mode := l.mode
      placed := wid + 1 + p.1 }
  let threads : List Thread := (List.range plans.length).zip plans |>.flatMap fun p =>
    (List.range ((p.2.size + 3) / 4 * 4)).map
      (startThread (wid + 1 + p.1) p.2 (l.spOf base.task idx.toNat p.1) clock)
  let w : Workgroup := { base with wid := wid, coords := coords, scratchBase := off, scratchSize := n.scratch
                                   tokens := n.cost, hasSeq := n.seq, deadline := base.record.deadline
                                   placed := wid }
  let there (k : Nat) : Bool :=
    decide (mkKey (regScratch base.col) off ≤ k ∧ k < mkKey (regScratch base.col) (off + n.scratch))
  let s1 := s.enterCore base.lid base.col
  let s2 := if n.seq then s1.updCol base.col fun x => { x with
      seqr := { holder := some wid, owner := some wid, running := true, pc := roles.seqPc, g := g } } else s1
  { s2 with
    freeCtr := if stated then s2.freeCtr else s2.freeCtr + 1
    nextId := wid + 1 + plans.length
    tbs := s2.tbs.filter fun k => !there k
    tbDue := s2.tbDue.filter fun x => !there x.1
    wgs := s2.wgs ++ [w]
    crews := s2.crews ++ crews
    threads := s2.threads ++ threads }

/-! ## Which workgroups of a launch may be placed -/

/-- The role-entry table that the launch's workgroups start from (R325). -/
def Launch.table (l : Launch) : Roles :=
  if l.degraded then { l.roles with prodPc := l.degradeRoles.prodPc, consPc := l.degradeRoles.consPc
                                    seqPc := l.degradeRoles.seqPc } else l.roles
/-- What a grid workgroup of the launch needs. -/
def State.needOf (s : State) (l : Launch) : Need := l.roles.need (s.cost l)

/-- The next copy of an index to be placed (R366, R373). Log entry 89, DEDUCED. -/
def Launch.nextCopy (l : Launch) (i : Nat) : Option Nat :=
  if ¬ l.placed.contains (i, 0) then some 0
  else if l.redundant (some i) ∧ ¬ l.placed.contains (i, 1) then some 1
  else if l.thirds.contains i ∧ ¬ l.placed.contains (i, 2) then some 2
  else none

/-- The records placed together with one: itself, or its group of four under SPAN, and their copy (R335); of a group, in a
deterministic launch that has faulted, those below the fault (14 R371). -/
def Launch.unit (l : Launch) (i : Nat) : Option (Nat × List Nat) :=
  if l.span then
    let ids := ((List.range 4).map (i / 4 * 4 + ·)).filter fun j => decide (j < l.total) &&
      (!l.deterministic || l.fault.all fun f => decide (j < f.2))
    ((ids.filterMap l.nextCopy).min?).map fun k => (k, ids.filter fun j => l.nextCopy j == some k)
  else (l.nextCopy i).map fun k => (k, [i])

/-- Every record below an index has been placed, with the first two copies of a redundant one (R366, R373). -/
def Launch.lowerPlaced (l : Launch) (i : Nat) : Bool :=
  let low := l.placed.filter fun p => p.2 == 0 && decide (p.1 < i)
  low.length == i && low.all fun p => !l.redundant (some p.1) || l.placed.contains (p.1, 1)

/-- The order of R333 and R366 lets a record be placed now: in a deterministic launch every lower one has been
placed, and the one LOG_SLOTS below has ended; in another it is one of the first 16 unplaced. -/
def Launch.inOrder (l : Launch) (i : Nat) : Bool :=
  decide (i < l.total) && match l.unit i with
  | none => false
  | some (k, ids) =>
    if l.deterministic then
      l.fault.all (fun f => decide (i < f.2)) && (k == 2 || (l.lowerPlaced (ids.headD i) &&
        ids.all fun j => decide (j < l.det.logSlots) || l.ended.contains (j - l.det.logSlots)))
    else decide (i - (l.placed.filter fun p => decide (p.1 < i)).length < 16)

/-- The records of a launch that may be placed now, resources apart. -/
def Launch.offers (l : Launch) : List Nat :=
  (List.range (min l.total (l.placed.length + 20))).filter l.inOrder

/-- The launch may still place workgroups (R324, R325, R357); of a deterministic launch that has faulted, the copies of
lower indices (14 R371, R373). -/
def Launch.active (l : Launch) : Bool :=
  l.phase == .eligible && !l.shed && l.refused.isNone && match l.fault with
    | none => true
    | some f => l.deterministic && (List.range (min f.2 l.total)).any fun i => (l.nextCopy i).isSome

/-- The victim order of a core (R338). -/
def victimOrder (c : Nat) : List Nat :=
  let sp := c / 4
  let spans := (List.range 11).flatMap (fun i => [(sp + i + 1) % 24, (sp + 23 - i) % 24]) ++ [(sp + 12) % 24]
  ([1, 2, 3].map fun i => 4 * sp + (c % 4 + i) % 4) ++ spans.flatMap fun t => (List.range 4).map (4 * t + ·)

/-- The cores in the order in which a launch's next record tries them (R333). -/
def State.coreOrder (s : State) (l : Launch) : List Nat :=
  match l.lastCol with
  | some c => c :: victimOrder c
  | none => (List.range 96).mergeSort fun a b => decide ((s.colWgs a).length ≤ (s.colWgs b).length)

/-- Cores that hold another copy of a record (R373). Log entry 70, DEDUCED. -/
def State.copyCores (s : State) (l : Launch) (i : Nat) : List Nat :=
  (s.wgs.filter fun w => w.lid == l.lid && w.index == some i && !w.fromDeque).map (·.col)

/-- The column of each record of a unit, in the first core or span where it fits (R333, R335); `tokens` is
whether the tokens count. -/
def State.planUnit (s : State) (l : Launch) (ids : List Nat) (tokens : Bool) : Option (List (Nat × Nat)) :=
  let n := s.needOf l
  let can (i c : Nat) : Bool := !(s.copyCores l i).contains c && (s.fitAt c noneGone n).isSome
  if tokens ∧ ¬ s.tokensOk noneGone n ids.length then none
  else if l.span then
    let first := l.lastSpan.getD 0
    (((List.range 24).map fun k => (first + k) % 24).find? fun t => ids.all fun i => can i (4 * t + i % 4)).map
      fun t => ids.map fun i => (i, 4 * t + i % 4)
  else match ids with
    | [i] => ((s.coreOrder l).find? (can i)).map fun c => [(i, c)]
    | _ => none

/-- Where a record of a launch would go now: its copy and the columns of its unit. -/
def State.plan (s : State) (l : Launch) (i : Nat) (tokens : Bool := true) : Option (Nat × List (Nat × Nat)) :=
  (l.unit i).bind fun u => (s.planUnit l u.2 tokens).map fun p => (u.1, p)

/-! ## Rank, pre-emption, feasibility -/

/-- The rank of a launch: a lower list ranks first (R324). -/
def Launch.rank (l : Launch) : List Nat :=
  [7 - l.priority, b2n (l.deadline == 0), t64ToNs l.deadline, l.eligibleAt, l.queue, l.lid]
/-- One list before another. -/
def lexLt : List Nat → List Nat → Bool
  | a :: as, b :: bs => decide (a < b) || (a == b && lexLt as bs)
  | _, _ => false

/-- Some record of the launch can be placed, rank and pre-emption apart. -/
def State.hasPlan (s : State) (l : Launch) (tokens : Bool := true) : Bool :=
  l.active && l.offers.any fun i => (s.plan l i tokens).isSome

/-- A launch that a higher one pre-empts on a column that it holds: the columns (R328). Log entry 61, DEDUCED. -/
def State.preemptedOn (s : State) (b : Launch) : List Nat :=
  let mine (w : Workgroup) : Bool := w.lid == b.lid
  let above := s.launches.filter fun a => a.active && decide (b.priority < a.priority) && !a.offers.isEmpty &&
    !s.hasPlan a
  (List.range 96).filter fun c => (s.colWgs c).any mine && above.any fun a =>
    (s.fitAt c mine (s.needOf a)).isSome && s.tokensOk mine (s.needOf a) 1

/-- The launch is pre-empted. -/
def State.preempted (s : State) (b : Launch) : Bool := !(s.preemptedOn b).isEmpty

/-- What a record needs to start: it is refused, it cannot be read yet, or a workgroup (R31, R33, R360). -/
inductive RecNeed where
  | bad
  | wait
  | start (roles : Roles) (n : Need)
  deriving DecidableEq, Repr

/-- What a record in a deque needs. Log entry 62, DEDUCED. -/
def State.recordNeed (s : State) (r : Record) : RecNeed :=
  let l := s.launch r.lid
  if r.resvBad then .bad
  else if r.task then
    if r.threads = 0 ∨ 64 < r.threads.toNat then .bad
    else .start l.table (taskNeed l.roles r.threads.toNat)
  else match s.devRead l.ctx r.code 64 false with
    | .ok _ bs => if rolesOk bs then .start (Roles.parse bs) ((Roles.parse bs).need (s.cost l)) else .bad
    | .bad _ => .bad
    | .fault .. => .wait

/-- A workgroup ranked above a launch's waits for its tokens alone: of a grid, with the group of four that it is placed
in under SPAN, or of the young-end record of a core
(R329, R338). Log entry 61, DEDUCED. -/
def State.tokenAhead (s : State) (l : Launch) : Bool :=
  let waits (n : Need) : Bool := n.seq && !s.tokensOk noneGone n 1
  let above (a : Launch) : Bool := lexLt a.rank l.rank && !s.preempted a
  s.launches.any (fun a => above a && (s.needOf a).seq && s.hasPlan a false && !s.hasPlan a) ||
    (List.range 96).any fun c => match (s.col c).deque.getLast? with
      | some r => above (s.launch r.lid) && match s.recordNeed r with
        | .start _ n => waits n && (s.fitAt c noneGone n).isSome
        | _ => false
      | none => false

/-- No launch ranked above can use a resource, and none waits for the tokens that this one needs (R324,
R329). Log entry 61, DEDUCED. -/
def State.ranksFirst (s : State) (l : Launch) : Bool :=
  s.launches.all (fun a => !lexLt a.rank l.rank || !a.active || s.preempted a || !s.hasPlan a) &&
    !((s.needOf l).seq && s.tokenAhead l)

/-- The feasibility decision (R325). -/
def State.decideLaunch (s : State) (lid : Nat) : State :=
  let l := s.launch lid
  if l.decided then s
  else
    let feasible := l.estimate == 0 || l.deadline == 0 ||
      decide (s.timeNs + l.estimate ≤ t64ToNs l.deadline)
    s.updLaunch lid fun x => { x with
      decided := true
      lateStart := !feasible && l.cls == 0
      degraded := !feasible && l.cls == 1
      shed := !feasible && l.cls == 2 }

/-! ## Records of deques -/

/-- A launch ends with fault status (R33, R357): it places nothing more, and its records in deques go.
Log entry 62, DEDUCED. -/
def State.dropRecords (s : State) (lid : Nat) : State :=
  let gone (r : Record) : Bool := r.lid == lid && (s.launch lid).drops r
  let count := (s.columns.toList.map fun x =>
    (x.deque.filter gone).length + (x.yielded.filter fun y => gone y.2).length).foldl (· + ·) 0
  { s.updLaunch lid fun l => { l with tasks := l.tasks - count } with
    columns := s.columns.map fun x => { x with
      deque := x.deque.filter fun r => !gone r
      yielded := x.yielded.filter fun y => !gone y.2
      passedBy := if x.deque.head?.any gone then [] else x.passedBy } }

/-- A core can take a record (R338): not of a launch that has faulted or that is pre-empted, nor ahead of a
higher-ranked workgroup that waits for the tokens it needs (R328, R329, R357). Log entry 61, DEDUCED. -/
def State.takes (s : State) (c : Nat) (r : Record) : Bool :=
  let l := s.launch r.lid
  !l.drops r && !s.preempted l && match s.recordNeed r with
  | .bad => (s.col c).open
  | .wait => false
  | .start _ n => s.fits c n && !(n.seq && s.tokenAhead l)

/-- A record that left a deque starts its workgroup on a core, or ends its launch (R33, R338, R360).
Log entry 62, DEDUCED. -/
def State.startRecord (s : State) (c : Nat) (r : Record) : State :=
  match s.recordNeed r with
  | .bad => ((s.updLaunch r.lid fun l =>
      { l.noteFault 0x90#8 l.total s.ticks with tasks := l.tasks - 1 })).dropRecords r.lid
  | .wait => s
  | .start roles n => match s.fitAt c noneGone n with
    | none => s
    | some (a, off) =>
      let base : Workgroup := { wid := 0, lid := r.lid, index := if r.task then none else r.index, col := c
                                task := r.task, record := r, fromDeque := true, copy := r.copy
                                part := r.part }
      let plans : List CrewPlan :=
        if r.task then [⟨true, true, r.code, r.threads.toNat, roles.consAllot, (partsOf (·.2) a).getD 0 0⟩]
        else roles.crewPlans a
      s.startWg base roles n plans off

/-- A record of a launch's grid ranks before one in a deque (R338). -/
def State.gridFirst (s : State) (l : Launch) (r : Record) : Bool :=
  let o := s.launch r.lid
  decide (o.priority < l.priority) || (o.priority == l.priority &&
    lexLt [b2n (l.deadline == 0), t64ToNs l.deadline] [b2n (r.deadline == 0), t64ToNs r.deadline])

/-- A core's own record ranks before a launch's offer (R338). -/
def State.ownFirst (s : State) (c : Nat) (l : Launch) : Bool :=
  match (s.col c).deque.getLast? with
  | some r => s.takes c r && !s.gridFirst l r
  | none => false

/-! ## Placement by the dispatcher -/

/-- The continuation record of a grid workgroup (R31, R32). -/
def Launch.gridRecord (l : Launch) (i : Nat) : Record :=
  { code := if l.degraded then l.degradeEntry else l.entries, frame := l.frame, join := 0, threads := 0
    flags := 0, deadline := l.deadline, lid := l.lid, index := some i }

/-- One workgroup of the grid starts on a column. -/
def State.startGrid (s : State) (lid copy : Nat) (p : Nat × Nat) : State :=
  let l := s.launch lid
  let n := s.needOf l
  match s.fitAt p.2 noneGone n with
  | none => s
  | some (a, off) =>
    let base : Workgroup := { wid := 0, lid := lid, index := some p.1, col := p.2, record := l.gridRecord p.1
                              copy := copy }
    (s.startWg base l.table n (l.table.crewPlans a) off).updLaunch lid fun x => { x with
      placed := x.placed ++ [(p.1, copy)], lastCol := some p.2, lastSpan := some (spanOf p.2) }

/-- Rank, order and pre-emption let a record be placed; in a launch that is not deterministic, an earlier record outside
its unit that could be placed comes first (R324, R328, R333). -/
def State.mayOffer (s : State) (l : Launch) (i : Nat) : Bool :=
  l.active && l.inOrder i && !s.preempted l && s.ranksFirst l &&
    (l.deterministic || l.offers.all fun j => decide (i ≤ j) || ((l.unit i).map (·.2.contains j)).getD false ||
      (s.plan l j).isNone)

/-- Where the dispatcher places a record now, if it does: what `mayOffer` says, resources and the cores' own records let
it (R324, R328, R333, R338). -/
def State.offer? (s : State) (l : Launch) (i : Nat) : Option (Nat × List (Nat × Nat)) :=
  if s.mayOffer l i then
    match s.plan l i with
    | some (k, ps) => if ps.all fun p => !s.ownFirst p.2 l then some (k, ps) else none
    | none => none
  else none

/-- A unit placed: the decision of R325 comes first, and a launch that is shed places nothing. -/
def State.placeUnit (s : State) (lid : Nat) (k : Nat) (ps : List (Nat × Nat)) : State :=
  let s1 := s.decideLaunch lid
  if (s1.launch lid).shed then s1 else ps.foldl (fun acc p => acc.startGrid lid k p) s1

/-- WORKGROUP_PLACE (R325, R333 to R335): the dispatcher attempts to place a record. -/
def execWorkgroupPlace (lid idx : Nat) (s : State) : Host.Outcome State Fault Refusal :=
  let l := s.launch lid
  match s.offer? l idx with
  | some (k, ps) => .next (s.placeUnit lid k ps)
  | none => if s.mayOffer l idx then .next (s.decideLaunch lid) else .next s

/-! ## Cores take work (R338, R339) -/

/-- The dispatcher's offer to a core: the launch that ranks first among those with one. -/
def State.offerTo (s : State) (c : Nat) : Option (Nat × Nat × List (Nat × Nat)) :=
  (s.launches.mergeSort fun a b => !lexLt b.rank a.rank).findSome? fun l => l.offers.findSome? fun i =>
    match s.offer? l i with
    | some (k, ps) => if ps.any fun p => p.2 == c then some (l.lid, k, ps) else none
    | none => none

/-- The record at one end of a deque leaves it; PASSED_BY goes with the old-end record (R337, R339). -/
def Column.popYoung (x : Column) : Column :=
  { x with deque := x.deque.dropLast, passedBy := if x.deque.length ≤ 1 then [] else x.passedBy }
def Column.popOld (x : Column) : Column := { x with deque := x.deque.drop 1, passedBy := [] }

/-- The record that a core pops now: its own young-end one, when it takes it before any offer (R338). -/
def State.ownPop (s : State) (c : Nat) : Option Record :=
  match s.offerTo c, (s.col c).deque.getLast? with
  | none, some r => if s.takes c r then some r else none
  | _, _ => none

/-- A core pops its young-end record and starts it (R337, R338). -/
def State.popOwn (s : State) (c : Nat) (r : Record) : State := (s.updCol c Column.popYoung).startRecord c r

/-- CORE_TAKE_WORK (R338). -/
def execCoreTakeWork (c : Nat) (s : State) : Host.Outcome State Fault Refusal :=
  match s.offerTo c with
  | some (lid, k, ps) => .next (s.placeUnit lid k ps)
  | none => match s.ownPop c with
    | some r => .next (s.popOwn c r)
    | none => .next s

/-- A core that may steal: it has room for a one-crew workgroup, an empty deque and no offer (R338). -/
def State.idleThief (s : State) (c : Nat) : Bool :=
  let small : Need := { prod := 0, cons := 1, prodBytes := 0, consBytes := 512, scratch := 0, seq := false, cost := 0 }
  s.fits c small && (s.col c).deque.isEmpty && (s.offerTo c).isNone

/-- A visited deque is a candidate (R339). -/
def State.stealable (s : State) (c v : Nat) : Option Record :=
  match (s.col v).deque.head? with
  | some r => if ¬ r.nosteal ∧ s.takes c r then some r else none
  | none => none

/-- The cores of an attempt in the order of their visits (R339). Log entry 88, DEDUCED. -/
def State.visits (s : State) (c : Nat) : List Nat :=
  let vs := victimOrder c
  match (s.col c).lastVictim with
  | none => vs
  | some v => match vs.findIdx? (· == v) with
    | some i => vs.drop (i + 1) ++ vs.take (i + 1)
    | none => vs

/-- The visits of an attempt: the candidates passed over, and the one that was passed before (R339).
Log entry 88, DEDUCED. -/
def State.visit (s : State) (c : Nat) : List Nat → List Nat → List Nat × Option Nat
  | [], cand => (cand, none)
  | v :: vs, cand =>
    if 4 ≤ cand.length then (cand, none)
    else if (s.stealable c v).isSome then
      if (s.col v).passedBy.contains c then (cand, some v) else s.visit c vs (cand ++ [v])
    else s.visit c vs cand

/-- The candidate with the earliest deadline, the earlier in victim order on a tie (R339). Log entry 88, DEDUCED. -/
def State.bestVictim (s : State) (cand : List Nat) : Option Nat :=
  let key (v : Nat) : List Nat := match (s.col v).deque.head? with
    | some r => [b2n (r.deadline == 0), t64ToNs r.deadline]
    | none => []
  cand.foldl (fun best v => match best with
    | none => some v
    | some b => if lexLt (key v) (key b) then some v else some b) none

/-- A record taken from a victim; the other candidates are passed by (R339). The victim's last record goes to its
owner, where that pops it in the same clock (R337). Log entry 88, DEDUCED. -/
def State.stealFrom (s : State) (c v : Nat) (cand : List Nat) : State :=
  match (s.col v).deque, s.ownPop v with
  | [], _ => s
  | [_], some r => s.popOwn v r
  | r :: _, _ =>
    let s1 := (cand.filter (· != v)).foldl (fun acc u => acc.updCol u fun x =>
      { x with passedBy := c :: x.passedBy.filter (· != c) }) s
    ((s1.updCol v Column.popOld).updCol c fun x => { x with lastVictim := some v }).startRecord c r

/-- STEAL_ATTEMPT (R339). -/
def execStealAttempt (c : Nat) (s : State) : Host.Outcome State Fault Refusal :=
  if ¬ s.idleThief c then .next s
  else match s.visit c (s.visits c) [] with
    | (cand, some v) => .next (s.stealFrom c v cand)
    | (cand, none) => match s.bestVictim cand with
      | some v => .next (s.stealFrom c v cand)
      | none => .next s

/-! ## Yield requests (R328, R359) -/

/-- A crew's launch accepts a yield request now: it is YIELDABLE and pre-empted on the crew's column. -/
def State.yieldDue (s : State) (cid : Nat) : Bool :=
  let w := s.wg (s.crew cid).wid
  let l := s.launch w.lid
  s.crews.any (fun x => x.cid == cid) && l.yieldable && (s.col w.col).acts && (s.preemptedOn l).contains w.col &&
    w.fault.isNone && !(s.liveMembers cid).isEmpty

/-- A yield request raised, and taken if the crew is at a run boundary. Log entry 79, DEDUCED. -/
def State.requestYield (s : State) (cid : Nat) : State :=
  ((s.updCrew cid fun c => { c with yieldReq := true }).takeYield cid).settle

/-- YIELD_REQ (R328): the first request of a crew. -/
def execYieldReq (cid : Nat) (s : State) : Host.Outcome State Fault Refusal :=
  if s.yieldDue cid ∧ (s.crew cid).yieldAt.isNone ∧ ¬ (s.crew cid).yieldReq then .next (s.requestYield cid)
  else .next s

/-- YIELD_REQ_REPEAT (R359): 1 ms after a delivery that the crew returned from. -/
def execYieldReqRepeat (cid : Nat) (s : State) : Host.Outcome State Fault Refusal :=
  match (s.crew cid).yieldAt with
  | some t => if s.yieldDue cid ∧ t + 1000000 ≤ s.timeNs ∧ ¬ (s.crew cid).yieldReq then
      .next (s.requestYield cid) else .next s
  | none => .next s

end Sys2Proof.Machine
end

