-- ==== Sys2Proof/Machine/Sync.lean ====
section
/-!
DEFINITION. Named barriers (07 R194, R195), transaction barriers (R196 to R199), queue registers (R200 to
R202), tickets (R204).
-/

namespace Sys2Proof.Machine

/-! ## Named barriers -/

/-- The subcode of a bar.arrive that traps (R194). -/
def barErr (w : Workgroup) (a b : Word) : Option Byte :=
  let x := w.bars[a.toNat]?.getD {}
  if 15 < a.toNat then some 1
  else if b = 0 ∨ 1024 < b.toNat then some 2
  else if x.arr ≠ 0 ∧ b.toNat ≠ x.exp then some 3
  else none

/-- An arrival (R194). -/
def Barrier.arrive (x : Barrier) (n : Nat) : Barrier :=
  let e := if x.arr = 0 then n else x.exp
  if x.arr + 1 = e then { gen := x.gen + 1, arr := 0, exp := e } else { x with arr := x.arr + 1, exp := e }

/-- bar.arrive for one thread (R180, R194); `s0` is the state when the run reached the word, whose GEN a helper thread
receives. A helper thread's index and count are checked as any thread's, but not against the count of a barrier that
it does not join; the spec says of neither (log entry 80, DEDUCED). The arrival releases at workgroup scope. Log entry
28, DEDUCED. -/
def barArriveThread (s0 : State) (d a : Code) (b : BSrc) (r : Run) (s : State) (t : TRef) : ThrRes :=
  let e := s.env r t.cid
  let x := s.thread t
  let n := e.read32 x a
  let m := e.readB x b
  let wid := (s.crew t.cid).wid
  let fin (s1 : State) (g : Word) : ThrRes :=
    .ok ((s1.commitAt r t).updThread t fun y => y.writeLong e d 1 (.words [g]))
  let err := if x.helper then (barErr (s.wg wid) n m).filter (· != 3#8) else barErr (s.wg wid) n m
  match err with
  | some sub => .trap s (r.trap 0x92#8 sub)
  | none =>
    if x.helper then fin s (((s0.wg wid).bars[n.toNat]?.getD {}).gen)
    else match (s.commitHere r t).performed (s.crewCol t.cid) t 1 with
    | none => .park (s.commitHere r t) .seal
    | some s1 =>
      let g := (s1.wg wid).bars[n.toNat]?.getD {}
      fin (s1.updWg wid fun w => { w with bars := w.bars.setIfInBounds n.toNat (g.arrive m.toNat) }) g.gen

/-- bar.arrive (R194). -/
def execBarArrive (d a : Code) (b : BSrc) (s : State) : Host.Outcome State Fault Refusal :=
  s.lanes (popFirst (a :: bCodes b) (barArriveThread s d a b))

/-- bar.wait for one thread (R195). Log entry 28, DEDUCED. -/
def barWaitThread (a : Code) (b : BSrc) (r : Run) (s : State) (t : TRef) : ThrRes :=
  let e := s.env r t.cid
  let x := s.thread t
  let n := e.read32 x a
  if 15 < n.toNat then .trap s (r.trap 0x92#8 1#8)
  else if ((s.wg (s.crew t.cid).wid).bars[n.toNat]?.getD {}).gen = e.readB x b then .park s .barrier
  else .ok (s.updThread t fun y => y.writeNone e)

/-- bar.wait (R195). -/
def execBarWait (a : Code) (b : BSrc) (s : State) : Host.Outcome State Fault Refusal :=
  s.lanesAll (popFirst (a :: bCodes b) (barWaitThread a b))

/-! ## Transaction barriers -/

/-- The fields of a transaction barrier (R196). -/
structure TbObj where
  phase : Nat := 0
  overrun : Bool := false
  late : Bool := false
  pending : Nat := 0
  reload : Nat := 0
  sectors : Int := 0
  doneNs : Nat := 0
  deriving DecidableEq, Repr

/-- The fields of 16 bytes; bits [7:6] are ignored (R196). -/
def TbObj.ofNat (x : Nat) : TbObj :=
  let sec : Nat := x / 2 ^ 48 % 2 ^ 32
  { phase := x % 16
    overrun := x.testBit 4
    late := x.testBit 5
    pending := x / 2 ^ 8 % 2 ^ 20
    reload := x / 2 ^ 28 % 2 ^ 20
    sectors := if sec < 2 ^ 31 then (sec : Int) else (sec : Int) - 4294967296
    doneNs := x / 2 ^ 80 % 2 ^ 48 }

/-- The 16 bytes of an object, as a number (R196). -/
def TbObj.toNat (o : TbObj) : Nat :=
  o.phase % 16 + 16 * b2n o.overrun + 32 * b2n o.late + 2 ^ 8 * o.pending + 2 ^ 28 * o.reload +
    2 ^ 48 * (o.sectors % (2 : Int) ^ 32).toNat + 2 ^ 80 * (o.doneNs % 2 ^ 48)

/-- The object at a key. -/
def State.tb (s : State) (k : Nat) : TbObj := .ofNat (leNat (s.bytes k 16))
/-- An object written, as one atomic write (R196); whether its phase completes at the start of the next clock
(R197). -/
def State.setTb (s : State) (k : Nat) (o : TbObj) : State :=
  let rest := s.tbDue.filter fun x => x.1 != k
  let due := if o.pending = 0 ∧ o.sectors = 0 then
      (k, ((s.tbDue.find? fun x => x.1 == k).map (·.2)).getD []) :: rest else rest
  { s.put k (toLe 16 o.toNat) with tbDue := due }
/-- A transaction barrier is known to the barrier logic (R197). Log entry 29, DEDUCED. -/
def State.noteTb (s : State) (k : Nat) : State :=
  if s.tbs.contains k then s else { s with tbs := k :: s.tbs }

/-- A run has executed a word (R197). -/
def State.usedBy (s : State) (k : RunKey) : State :=
  { s with tbDue := s.tbDue.map fun x => if x.2.contains k then x else (x.1, k :: x.2) }

/-- A post of arrivals: whether it was refused, and the object (R197). -/
def TbObj.arrive (o : TbObj) (n : Nat) : Bool × TbObj :=
  if o.pending < n then (true, { o with overrun := true }) else (false, { o with pending := o.pending - n })
/-- A post of expected or completed sectors (R197). -/
def TbObj.post (o : TbObj) (n : Int) : TbObj :=
  let x := o.sectors + n
  if x < -2147483648 ∨ 2147483648 ≤ x then { o with overrun := true } else { o with sectors := x }

/-- A completion at the start of a clock (R197): `late` is judged by the deadline at that clock.
Log entry 29, DEDUCED. -/
def TbObj.complete (o : TbObj) (ns : Nat) (late : Bool) : TbObj :=
  { o with phase := (o.phase + 1) % 16, pending := o.reload, doneNs := ns % 2 ^ 48, late := late }

/-- (PHASE − p) mod 16 (R199). -/
def TbObj.ahead (o : TbObj) (p : Nat) : Nat := (o.phase + 16 - p % 16) % 16
/-- A wait on token p succeeds (R199). -/
def TbObj.passed (o : TbObj) (p : Nat) : Bool := decide (1 ≤ o.ahead p ∧ o.ahead p ≤ 7)
/-- The status word of a wait (R199). -/
def TbObj.status (o : TbObj) (p waited : Nat) : Word :=
  let c := if o.passed p then 0 else if o.ahead p = 0 then 1 else 2
  BitVec.ofNat 32 (min waited (2 ^ 24 - 1) * 256 + c * 64 + 32 * b2n o.late + 16 * b2n o.overrun + o.phase)

/-- An object named by a thread's word: its key, or how the thread leaves the word (R196). `commits` says
whether the word is a commit point. A helper thread's word makes no object known to the barrier logic (R11). -/
def State.tbAt (s : State) (r : Run) (t : TRef) (p : DWord) (commits : Bool) : Except ThrRes (State × Nat) :=
  if ptrOff p % 16 ≠ 0 ∨ (ptrSpace p ≠ 1 ∧ ptrSpace p ≠ 2) then .error (.trap s (r.trap 0x93#8 2#8 (some p)))
  else match s.memCheck (s.crew t.cid).wid p 16 .store with
    | .error st => .error (.trap s (r.accTrap st p))
    | .ok d =>
      if s.poolDown d then .error (.park (s.wakePool d) .other)
      else match s.locate d true with
      | .pageFault k ia _ =>
        .error (.leave (if commits then s.commitFault r t k ia p 3#8 else s.accessFault r t k ia p 1#8))
      | .at s1 k => .ok (if (s.thread t).helper then s1 else s1.noteTb k, k)

/-- The object's scope: span for space 2, workgroup for space 1 (R198). -/
def tbScope (p : DWord) : Nat := if ptrSpace p = 2 then 3 else 1

/-- A tb word that posts, for one thread (R198): `rel` says whether it is a release at the object's scope, `hi` is the
highest count, `f` what it does to the object at the key. The spec orders the check of the count neither after the
checks of the address nor before them, and does not say whether a helper thread's word is checked before its post is
suppressed: the address comes first, and a helper thread is checked (log entry 103, DESIGN CHOICE). -/
def tbPost (rel : Bool) (hi : Nat) (a : Code) (b : BSrc) (f : LaneEnv → State → Nat → Nat → State) (r : Run) (s : State)
    (t : TRef) : ThrRes :=
  let e := s.env r t.cid
  let x := s.thread t
  let p := e.read64 x a
  let n := (e.readB x b).toNat
  match s.tbAt r t p true with
  | .error res => res
  | .ok (s1, k) =>
    if n = 0 ∨ hi < n then .trap s (r.trap 0x93#8 1#8 (some p))
    else
      let s2 := s1.commitHere r t
      match (if rel && !x.helper then s2.performed (s.crewCol t.cid) t (tbScope p) else some s2) with
      | none => .park s2 .seal
      | some s3 => .ok ((f e s3 k n).usedBy r.key |>.commitAt r t)

/-- tb.init (R198). -/
def execTbInit (a : Code) (b : BSrc) (s : State) : Host.Outcome State Fault Refusal :=
  s.lanes fun r s t => popFirst (bCodes b) (tbPost true (2 ^ 20 - 1) a b fun e s1 k n =>
    let s2 := if (s1.thread t).helper then s1 else s1.setTb k { pending := n, reload := n }
    s2.updThread t fun y => y.writeNone e) r s t

/-- An arrival of a deterministic launch at an object, by crew and thread index (14 R372). -/
def Workgroup.noteArrival (k rank : Nat) (w : Workgroup) : Workgroup :=
  let old := ((w.arrTops.find? fun x => x.1 == k).map (·.2)).getD 0
  { w with arrTops := (k, max old rank) :: w.arrTops.filter fun x => x.1 != k }

/-- The result of tb.arrive (R198). -/
def arriveWord (o : TbObj) (refused zero : Bool) : Word :=
  BitVec.ofNat 32 (o.phase + 256 * b2n refused + 512 * b2n zero)

/-- tb.arrive for one thread, at the key of its object (R198); in a deterministic launch the result waits for
its phase, unless the post is refused (14 R372). -/
def tbArriveAt (d : Code) (t : TRef) (e : LaneEnv) (s : State) (k n : Nat) : State :=
  let o := s.tb k
  let fin (s1 : State) (v : PendVal) : State := s1.updThread t fun y => y.writeLong e d 1 v
  if (s.thread t).helper then fin s (.words [arriveWord o false false])
  else
    let (refused, o1) := o.arrive n
    let s1 := s.setTb k o1
    let c := s.crew t.cid
    if (s.crewLaunch t.cid).deterministic ∧ ¬ refused then
      fin (s1.updWg c.wid fun w => w.noteArrival k (c.idx * 64 + t.tid)) (.arrival k (arriveWord o false false))
    else fin s1 (.words [arriveWord o refused (!refused && o1.pending == 0)])

/-- tb.arrive (R198). -/
def execTbArrive (d a : Code) (b : BSrc) (s : State) : Host.Outcome State Fault Refusal :=
  s.lanes fun r s t => popFirst (bCodes b) (tbPost true (2 ^ 20 - 1) a b (tbArriveAt d t)) r s t

/-- tb.expect (R198). -/
def execTbExpect (a : Code) (b : BSrc) (s : State) : Host.Outcome State Fault Refusal :=
  s.lanes fun r s t => popFirst (bCodes b) (tbPost false (2 ^ 31 - 1) a b fun e s1 k n =>
    let s2 := if (s1.thread t).helper then s1 else s1.setTb k ((s1.tb k).post n)
    s2.updThread t fun y => y.writeNone e) r s t

/-- A wait that has parked: its status word, when it succeeds or its bound has passed (R199). -/
def TbWaiting.test (w : TbWaiting) (o : TbObj) (waited : Nat) : TbWaiting :=
  if w.status.isNone ∧ (o.passed w.token ∨ w.bound ≤ waited) then { w with status := some (o.status w.token waited) }
  else w

/-- tb.wait and tb.test for one thread (R198, R199): `wait` says whether it parks; the wait is tested here and at every
clock that passes. A success acquires at the object's scope, and the sectors that the phases counted: what the engines
wrote is read anew (R312). -/
def tbWaitThread (wait : Bool) (d a : Code) (b : BSrc) (r : Run) (s : State) (t : TRef) : ThrRes :=
  let e := s.env r t.cid
  let x := s.thread t
  let v := e.readB x b
  let run := s.run r.key
  let fin (s1 : State) (w : Word) : ThrRes :=
    let s2 := if fieldNat w 7 6 = 0 ∧ ¬ x.helper then s1.acquired (s.crewCol t.cid) 3 else s1
    .ok (s2.updThread t fun y => y.write32 e d w)
  match (run.tbWaits.find? fun y => y.t == t).bind (·.status) with
  | some w => fin s w
  | none => match s.tbAt r t (e.read64 x a) false with
    | .error res => res
    | .ok (s1, k) =>
      let clock := (s.col r.key.col).clock
      let waited := if wait then clock - run.parkedAt.getD clock else 0
      let w : TbWaiting := ⟨t, k, fieldNat v 3 0, if wait then fieldNat v 31 8 else 0, none⟩
      match (w.test (s1.tb k) waited).status with
      | some st => fin s1 st
      | none => .park (s1.updRun r.key fun y => { y with tbWaits := w :: y.tbWaits.filter fun z => z.t != t }) .barrier

/-- tb.wait (R199). -/
def execTbWait (d a : Code) (b : BSrc) (s : State) : Host.Outcome State Fault Refusal :=
  s.lanesAll (popFirst (bCodes b) (thenPush (tbWaitThread true d a b)))
/-- tb.test (R199). -/
def execTbTest (d a : Code) (b : BSrc) (s : State) : Host.Outcome State Fault Refusal :=
  s.lanes (popFirst (bCodes b) (thenPush (tbWaitThread false d a b)))

/-- The deadline of the workgroup whose allocation holds a scratchpad byte of a column; 0 for none (R196). -/
def State.deadlineAt (s : State) (c off : Nat) : Nat :=
  match (s.colWgs c).find? fun w => decide (w.scratchBase ≤ off ∧ off < w.scratchBase + w.scratchSize) with
  | some w => t64ToNs w.deadline
  | none => 0

/-- Results of tb.arrive that wait for the phase of an object: the arrival of highest crew and thread index
has bit 9 set, be its thread still there or not (14 R372). -/
def State.landArrivals (s : State) (k : Nat) : State :=
  let top (t : Thread) : Nat :=
    (((s.wg (s.crew t.cid).wid).arrTops.find? fun x => x.1 == k).map (·.2)).getD 0
  let land (t : Thread) (p : Pend) : Pend :=
    match p.val with
    | .arrival j w =>
      if j = k then
        { p with val := .words [if (s.crew t.cid).idx * 64 + t.tid = top t then w ||| 0x200#32 else w] } else p
    | _ => p
  { s with
    threads := s.threads.map fun t => { t with pend := t.pend.map (land t) }
    wgs := s.wgs.map fun w => { w with arrTops := w.arrTops.filter fun x => x.1 != k } }

/-- The completion of the phase of an object at the start of a clock, if it is due (R197). Log entry 29, DEDUCED. -/
def State.completeTb (s : State) (c off : Nat) : State :=
  let k := mkKey (regScratch c) off
  let o := s.tb k
  if s.tbs.contains k ∧ o.pending = 0 ∧ o.sectors = 0 ∧ (s.col c).awake then
    let dl := s.deadlineAt c off
    let s1 : State := { s with tbDue := s.tbDue.filter fun x => x.1 != k }
    (s1.setTb k (o.complete s.timeNs (decide (dl ≠ 0 ∧ dl < s.timeNs)))).landArrivals k
  else s

/-- TB_PHASE_COMPLETION (R197): a clock starts for an object at a column's scratchpad byte. Where the agenda does not
bring it, the next clock that passes does. Log entry 29, DEDUCED. -/
def execTbPhaseCompletion (c off : Nat) (s : State) : Host.Outcome State Fault Refusal := .next (s.completeTb c off)

/-- The waits of a run are tested in a clock (R199). -/
def State.testWaits (s : State) (r : Run) : Run :=
  if r.tbWaits.isEmpty then r
  else
    let clock := (s.col r.key.col).clock
    { r with tbWaits := r.tbWaits.map fun w => w.test (s.tb w.key) (clock - r.parkedAt.getD clock) }

/-- What one clock does to the transaction barriers: completions first, then every wait is tested (R197, R199).
Log entry 29, DEDUCED. -/
def State.clockBarriers (s : State) : State :=
  let s1 := s.tbs.foldl (fun acc k => acc.completeTb (keyRegion k - 40) (keyOff k)) s
  { s1 with runs := s1.runs.map s1.testWaits }

/-- A run starts a word: a clock of its own. The phases of the objects whose counts were both zero at an earlier word of
the run have completed; the other objects' may (R197). Log entry 29, DEDUCED. -/
def State.wordClock (s : State) (k : RunKey) : State :=
  ((s.tbDue.filter fun x => x.2.contains k).foldl (fun acc x => acc.completeTb (keyRegion x.1 - 40) (keyOff x.1))
    s).usedBy k

/-! ## Queue registers -/

/-- The binding that a binding word and a pair name, or none where it traps (R200, R209). -/
def Workgroup.binding (w : Workgroup) (a : DWord) (b : Word) : Option QBind :=
  let n := fieldNat b 15 0
  let ring := ptrOff a % 16 = 0 ∧ (ptrSpace a = 1 ∨ ptrSpace a = 2)
  if fieldNat b 23 16 ≠ 0 then none
  else match fieldNat b 31 24 with
    | 0 => if n = 0 then some .unbound else none
    | 1 => if n < 4 ∧ w.hasSeq then some (.mxfeed n) else none
    | 2 => if n < 4 ∧ w.hasSeq then some (.mxdrain n) else none
    | 3 => if n = 0 then some (.ray a) else none
    | 4 => if n = 0 then some .hit else none
    | 5 => if n = 0 ∧ ptrOff a % 64 = 0 ∧ ptrSpace a ≤ 2 then some (.smp a) else none
    | 6 => if n = 0 ∧ ring then some (.ringOut a) else none
    | 7 => if n = 0 ∧ ring then some (.ringIn a) else none
    | _ => none

/-- A thread has a pending pop of a queue register. -/
def Thread.reserves (t : Thread) (q : BitVec 3) : Bool :=
  t.pend.any fun p => match p.val with | .element r _ => r == q | _ => false

/-- qbind for one thread (R200, R220). -/
def qbindThread (d a : Code) (b : BSrc) (r : Run) (s : State) (t : TRef) : ThrRes :=
  let e := s.env r t.cid
  let x := s.thread t
  let q := queueOf d
  match (s.wg (s.crew t.cid).wid).binding (e.read64 x a) (e.readB x b) with
  | none => .trap s (r.trap 0x96#8 0#8)
  | some v =>
    let s1 := s.landReservations (s.queueId t q) x.pend.length
    if (s1.thread t).reserves q then .park s1 .queue
    else .ok ((s1.dropPacket t q.toNat).updThread t fun y =>
      { y with q := y.q.setIfInBounds q.toNat v }.writeNone e)

/-- qbind (R200). -/
def execQbind (d a : Code) (b : BSrc) (s : State) : Host.Outcome State Fault Refusal :=
  s.lanes (popFirst (bCodes b) (qbindThread d a b))

/-- Words pushed to a queue as one group, or the first answer that is no success (R202). -/
def State.pushGroup (s : State) (t : TRef) (q : BitVec 3) (addr : DWord) : List Word → QOut
  | [] => .ok s 0
  | w :: ws => match s.pushWord t q addr w with
    | .ok s1 _ => s1.pushGroup t q addr ws
    | o => o

/-- A group pushed by one thread: a commit point (R201, R202). -/
def pushThread (q : BitVec 3) (ws : List Word) (r : Run) (s : State) (t : TRef) : ThrRes :=
  match s.pushCommit r t q with
  | none => .park (s.commitHere r t) .seal
  | some s0 => match s0.pushGroup t q r.wordAddr ws with
    | .ok s1 _ => .ok ((s1.commitAt r t).updThread t fun y => y.writeNone (s.env r t.cid))
    | o => queueRes s r t q o

/-- qpush (R202). -/
def execQpush (d a : Code) (s : State) : Host.Outcome State Fault Refusal :=
  s.lanes (popFirst [a] fun r s t =>
    pushThread (queueOf d) [(s.env r t.cid).read32 (s.thread t) a] r s t)

/-- qpushr for one thread (R202, R50): its registers are checked when it executes, since b gives their
number. -/
def qpushrThread (d a : Code) (b : BSrc) (r : Run) (s : State) (t : TRef) : ThrRes :=
  let e := s.env r t.cid
  let x := s.thread t
  let n := (e.readB x b).toNat
  if x.helper then .ok ((s.commitAt r t).updThread t fun y => y.writeNone e)
  else if n = 0 ∨ 16 < n then .trap s (r.trap 0x96#8 0#8)
  else match allotErr x.allot [(a.toNat, n)], hazardErr r.hazards [(a.toNat, n)] with
    | some m, _ => .trap s (r.trap 0x04#8 (BitVec.ofNat 8 m))
    | none, some m => .trap s (r.trap 0x08#8 (BitVec.ofNat 8 m))
    | none, none => pushThread (queueOf d) ((List.range n).map fun i => x.reg (a.toNat + i)) r s t

/-- qpushr (R202). -/
def execQpushr (d a : Code) (b : BSrc) (s : State) : Host.Outcome State Fault Refusal :=
  s.lanes (popFirst (bCodes b) (qpushrThread d a b))

/-- qpop for one thread (R202): the next element is reserved, in the order of the reservations; a helper
thread's reads zero. A ring's header is checked at the word, as at any pop (R203); one that is malformed only when the
element is due gives none. Log entry 92, DEDUCED. -/
def qpopThread (d a : Code) (r : Run) (s : State) (t : TRef) : ThrRes :=
  let e := s.env r t.cid
  let x := s.thread t
  let fin (s1 : State) (v : PendVal) : ThrRes := .ok (s1.updThread t fun y => y.writeLong e d 1 v)
  let bad : Option QOut := match x.bind (queueOf a) with
    | .ringIn p => if x.helper then none else match s.ringHdr (s.whoCrew t.cid) p with
      | .bad .wait => none
      | .bad o => some o
      | .ok .. => none
    | _ => none
  match bad, x.bind (queueOf a) with
  | some o, _ => queueRes s r t (queueOf a) o
  | none, .unbound => .trap s (r.trap 0x94#8 0#8)
  | none, .mxdrain _ | none, .hit | none, .ringIn _ =>
    let s1 := s.commitAt r t
    if x.helper then fin s1 (.words [0])
    else
      let (n, s2) := s1.fresh
      fin (s2.wakeRing t (queueOf a)) (.element (queueOf a) n)
  | none, _ => .trap s (r.trap 0x95#8 0#8)

/-- qpop (R202). -/
def execQpop (d a : Code) (s : State) : Host.Outcome State Fault Refusal := s.lanes (qpopThread d a)

/-- How many pending pops reserve elements of a queue. -/
def State.reserved (s : State) (id : QueueId) : Nat :=
  (s.threads.map fun t => (t.pend.filter fun p => match p.val with
    | .element q _ => s.queueId t.ref q == id
    | _ => false).length).foldl (· + ·) 0

/-- The next push of an MXFEED channel would park (R219, R221). -/
def State.feedBlocked (s : State) (t : TRef) (q : BitVec 3) (x : Nat) : Bool :=
  match (s.thread t).packet[q.toNat]?.getD [] with
  | [] => decide (255 ≤ (s.crew t.cid).count .matrix)
  | h :: ws =>
    let y := (s.col (s.crewCol t.cid)).seqr
    decide (feedScaleWords h + 48 ≤ ws.length + 1) &&
      (bit (y.staging[x]?.getD {}).full (fieldNat h 3 0) || y.owner != some (s.crew t.cid).wid)

/-- The rays that a core holds (R259). Log entry 37, DEDUCED. -/
def State.raysHeld (s : State) (c : Nat) : Nat := (s.rays.filter fun y => s.crewCol y.cid == c).length

/-- HEAD, TAIL and LOG2CAP of a ring, as they stand (R203). Log entry 31, DEDUCED. -/
def State.ringFields (s : State) (r : Run) (t : TRef) (p : DWord) : Except ThrRes (State × Nat × Nat × Nat) :=
  match s.memCheck (s.crew t.cid).wid p 16 .load with
  | .error st => .error (.trap s (r.accTrap st p))
  | .ok d =>
    if s.poolDown d then .error (.park (s.wakePool d) .queue)
    else match s.locate d false with
    | .pageFault k ia _ => .error (.leave (s.accessFault r t k ia p 1#8))
    | .at s1 k =>
      let h := s1.bytes k 16
      .ok (s1, natAt h 0 4, natAt h 4 4, natAt h 8 1)

/-- The kind of a binding, whether it is inbound, the count of qstat: a value, or a ring's header (R202).
Log entry 31, DEDUCED. -/
def State.qstatOf (s : State) (r : Run) (t : TRef) (q : BitVec 3) :
    Except ThrRes (State × Option (Nat × Bool × Nat)) :=
  let id := s.queueId t q
  let c := s.crewCol t.cid
  let used (h tl : Nat) : Nat := (tl + 2 ^ 32 - h) % 2 ^ 32
  match (s.thread t).bind q with
  | .unbound => .ok (s, none)
  | .mxfeed x => .ok (s, some (1, false, if s.feedBlocked t q x then 0 else 0xffff))
  | .mxdrain n => .ok (s, some (2, true, (s.drainOf t n).length - s.reserved id))
  | .ray _ => .ok (s, some (3, false, 256 - s.raysHeld c))
  | .hit => .ok (s, some (4, true, (s.hitWords t q).length - s.reserved id))
  | .smp _ => .ok (s, some (5, false, 0xffff))
  | .ringOut p => match s.ringFields r t p with
    | .error x => .error x
    | .ok (s1, h, tl, k) => .ok (s1, some (6, false, 2 ^ k - used h tl))
  | .ringIn p => match s.ringFields r t p with
    | .error x => .error x
    | .ok (s1, h, tl, _) => .ok (s1, some (7, true, used h tl))

/-- The status word of qstat (R202). Log entry 31, DEDUCED. -/
def qstatWord : Option (Nat × Bool × Nat) → Word
  | none => 0
  | some (kind, inb, n) => BitVec.ofNat 32 (2 ^ 31 + 2 ^ 30 * b2n inb + kind * 2 ^ 24 + min n 0xffff)

/-- qstat for one thread (R202). -/
def qstatThread (d a : Code) (r : Run) (s : State) (t : TRef) : ThrRes :=
  match s.qstatOf r t (queueOf a) with
  | .error res => res
  | .ok (s1, v) => .ok (s1.updThread t fun y => y.write32 (s.env r t.cid) d (qstatWord v))

/-- qstat (R202). -/
def execQstat (d a : Code) (s : State) : Host.Outcome State Fault Refusal :=
  s.lanes (thenPush (qstatThread d a))

/-! ## Tickets -/

/-- ticket.take for one thread (R204, R366). -/
def ticketThread (d : Code) (r : Run) (s : State) (t : TRef) : ThrRes :=
  let e := s.env r t.cid
  let w := s.wg (s.crew t.cid).wid
  if ¬ (s.launch w.lid).deterministic then .trap s (r.trap 0xb2#8 0#8)
  else if (s.thread t).helper then .ok ((s.commitAt r t).updThread t fun y => y.write32 e d e.wgIdx)
  else if w.ticket ∨ s.lowerEnded w then
    .ok ((((s.commitAt r t).acquired w.col 4).updWg w.wid fun x => { x with ticket := true }).updThread t fun y =>
      y.write32 e d e.wgIdx)
  else .park (s.commitHere r t) .ticket

/-- ticket.take (R204). -/
def execTicketTake (d : Code) (s : State) : Host.Outcome State Fault Refusal :=
  s.lanes (thenPush (ticketThread d))

end Sys2Proof.Machine
end

