-- ==== Sys2Proof/Machine/Traversal.lean ====
section
/-!
DEFINITION. The traversal unit (09 R258 to R262): scenes, the exact hit test, candidates, hit records.
-/

namespace Sys2Proof.Machine

/-! ## Exact geometry: coordinates are multiples of 2^-149 -/

/-- A finite FP32 pattern in units of 2^-149. -/
def fixed (w : Word) : Option Int :=
  match f32 w with
  | .fin n a b => some (signed n (a * 2 ^ 149 / b))
  | _ => none

/-- A vector. -/
abbrev Vec := Int × Int × Int

/-- Three finite coordinates. -/
def vec? (xs : List Word) : Option Vec :=
  match fixed (xs.getD 0 0), fixed (xs.getD 1 0), fixed (xs.getD 2 0) with
  | some x, some y, some z => some (x, y, z)
  | _, _, _ => none

/-- Difference, dot product and cross product. -/
def Vec.sub (p q : Vec) : Vec := (p.1 - q.1, p.2.1 - q.2.1, p.2.2 - q.2.2)
def Vec.dot (p q : Vec) : Int := p.1 * q.1 + p.2.1 * q.2.1 + p.2.2 * q.2.2
def Vec.cross (p q : Vec) : Vec :=
  (p.2.1 * q.2.2 - p.2.2 * q.2.1, p.2.2 * q.1 - p.1 * q.2.2, p.1 * q.2.1 - p.2.1 * q.1)

/-- A quotient of integers, the divisor not zero; a quotient of zero is +0 (R82, R261). -/
def ratio? (n d : Int) : Ex := .fin (decide (n ≠ 0) && decide (n < 0) != decide (d < 0)) n.natAbs d.natAbs

/-- A ray ready for testing: origin, direction, tmin, tmax (R259, R260). -/
structure RayGeo where
  o : Vec
  d : Vec
  tmin : Ex
  tmax : Ex

/-- The ray of eight registers, unless it meets nothing (R260). -/
def rayGeo (ws : List Word) : Option RayGeo :=
  let lo := f32 (ws.getD 3 0)
  let hi := f32 (ws.getD 7 0)
  match vec? ws, vec? (ws.drop 4) with
  | some o, some d => if lo.isNan || hi.isNan || hi.lt lo then none else some ⟨o, d, lo, hi⟩
  | _, _ => none

/-- The interval of t in which the ray is between two bounds of one axis; none where there is none. -/
def axisRange (lo hi : Ex) (o d : Int) : Option (Option (Ex × Ex)) :=
  let x := Ex.fin (decide (o < 0)) o.natAbs (2 ^ 149)
  if d = 0 then if lo.le x && x.le hi then some none else none
  else
    let at_ (b : Ex) : Ex := (Ex.sum false [b, x.negate]).div (.fin (decide (d < 0)) d.natAbs (2 ^ 149))
    some (some (if d < 0 then (at_ hi, at_ lo) else (at_ lo, at_ hi)))

/-- The ray's segment meets a closed box (R260): min x, y, z and max x, y, z. -/
def meetsBox (r : RayGeo) (b : List Word) : Bool :=
  let v (i : Nat) : Ex := f32 (b.getD i 0)
  if (List.range 6).any (fun i => (v i).isNan) ||
      (List.range 3).any (fun i => (v (i + 3)).lt (v i)) then false
  else match axisRange (v 0) (v 3) r.o.1 r.d.1, axisRange (v 1) (v 4) r.o.2.1 r.d.2.1,
      axisRange (v 2) (v 5) r.o.2.2 r.d.2.2 with
    | some x, some y, some z =>
      let rs := (r.tmin, r.tmax) :: [x, y, z].filterMap id
      (rs.all fun p => rs.all fun q => p.1.le q.2) && rs.all fun p => p.1 != .inf false && p.2 != .inf true
    | _, _, _ => false

/-- A triangle met: its primitive, its index, t, u, v, whether opaque, whether back-facing. -/
structure TriHit where
  prim : Nat
  index : Nat
  t : Ex
  u : Ex
  v : Ex
  opaque_ : Bool
  back : Bool
  deriving DecidableEq, Repr

/-- The hit test (R260): t, u, v and the facing. -/
def meetsTri (r : RayGeo) (a b c : Vec) : Option (Ex × Ex × Ex × Bool) :=
  let e1 := b.sub a
  let e2 := c.sub a
  let n := e1.cross e2
  let w := r.o.sub a
  let dn := r.d.dot n
  if n = (0, 0, 0) ∨ dn = 0 then none
  else
    let t := ratio? (-(w.dot n)) dn
    let un := r.d.dot (w.cross e2)
    let vn := r.d.dot (e1.cross w)
    let pos (x : Int) : Bool := if 0 < dn then decide (0 ≤ x) else decide (x ≤ 0)
    if pos un && pos vn && pos (dn - un - vn) && r.tmin.le t && t.le r.tmax then
      some (t, ratio? un dn, ratio? vn dn, decide (0 < dn))
    else none

/-- Closest first: t, then the primitive, then the index (R260). -/
def TriHit.before (x y : TriHit) : Bool :=
  x.t.lt y.t || x.t.eq y.t && (decide (x.prim < y.prim) || x.prim == y.prim && decide (x.index ≤ y.index))

/-- A hit record of a triangle (R261). -/
def TriHit.record (status : Nat) (h : TriHit) : List Word :=
  [BitVec.ofNat 32 (status * 2 ^ 28 + h.prim), rnd h.t, rnd h.u, rnd h.v]

/-! ## Scenes -/

/-- What a scene read gives: the triangles met, the cause of a FAULT record, a wait, a page fault (R258). -/
inductive SceneOut where
  | ok (s : State) (hits : List TriHit)
  | bad (s : State) (cause : Byte)
  | wait (s : State)
  | fault (s : State) (kind ia : Nat) (ea : DWord)

/-- A read of the scene (R258). Log entry 38, DEDUCED. -/
def sceneRead (s : State) (wid : Nat) (p : DWord) (n : Nat) (f : State → List Byte → SceneOut) : SceneOut :=
  match s.engRead wid p n with
  | .ok s1 bs => f s1 bs
  | .fail s1 cause _ => .bad s1 cause
  | .wait s1 => .wait s1
  | .fault s1 k ia ea => .fault s1 k ia ea

/-- The words of some bytes. -/
def wordsOfBytes (bs : List Byte) : List Word := (List.range (bs.length / 4)).map fun i => wAt bs (4 * i)

/-- The triangles of a leaf from an index on (R258). -/
def leafTris (wid : Nat) (g : RayGeo) (base : DWord) : Nat → Nat → List TriHit → State → SceneOut
  | 0, _, acc, s => .ok s acc
  | n + 1, i, acc, s => sceneRead s wid (ptrAdd base (48 * i)) 48 fun s1 bs =>
      let ws := wordsOfBytes bs
      let flags := ws.getD 9 0
      let prim := ws.getD 10 0
      if fieldNat flags 31 1 ≠ 0 ∨ fieldNat prim 31 28 ≠ 0 ∨ ws.getD 11 0 ≠ 0 then .bad s1 0x79#8
      else
        let hit : Option TriHit := match vec? ws, vec? (ws.drop 3), vec? (ws.drop 6) with
          | some a, some b, some c => (meetsTri g a b c).map fun h =>
              ⟨prim.toNat, i, h.1, h.2.1, h.2.2.1, bit flags 0, h.2.2.2⟩
          | _, _, _ => none
        leafTris wid g base n (i + 1) (acc ++ hit.toList) s1

/-- The fields of a scene's header (R258). -/
structure SceneHdr where
  nodes : DWord
  tris : DWord
  nodeCount : Nat
  triCount : Nat

/-- The nodes from one down, at most `n` deep (R258, R260). Log entry 38, DEDUCED. -/
def sceneWalk (wid : Nat) (g : RayGeo) (h : SceneHdr) : Nat → Nat → List TriHit → State → SceneOut
  | 0, _, _, s => .bad s 0x79#8
  | n + 1, i, acc, s =>
    if h.nodeCount ≤ i then .bad s 0x79#8
    else sceneRead s wid (ptrAdd h.nodes (32 * i)) 32 fun s1 bs =>
      let ws := wordsOfBytes bs
      let l := ws.getD 6 0
      let r := (ws.getD 7 0).toNat
      let count := fieldNat l 30 0
      if bit l 31 then
        if count = 0 ∨ 64 < count ∨ h.triCount < r + count then .bad s1 0x79#8
        else if meetsBox g ws then leafTris wid g h.tris count r acc s1 else .ok s1 acc
      else if h.nodeCount ≤ count ∨ h.nodeCount ≤ r then .bad s1 0x79#8
      else if meetsBox g ws then
        match sceneWalk wid g h n count acc s1 with
        | .ok s2 acc' => sceneWalk wid g h n r acc' s2
        | o => o
      else .ok s1 acc

/-- The triangles that a ray meets in a scene (R258, R260). Log entry 38, DEDUCED. -/
def State.sceneHits (s : State) (wid : Nat) (scene : DWord) (g : RayGeo) : SceneOut :=
  if ptrSpace scene ≠ 0 ∨ ptrOff scene % 32 ≠ 0 then .bad s 0x79#8
  else sceneRead s wid scene 32 fun s1 bs =>
    if nonzeroAt bs 24 8 then .bad s1 0x79#8
    else sceneWalk wid g ⟨dwAt bs 0, dwAt bs 8, natAt bs 16 4, natAt bs 20 4⟩ 64 0 [] s1

/-- MISS (R261). -/
def missRec (tmax : Word) : List Word := [0, tmax, 0, 0]
/-- FAULT (R261). -/
def faultRec (cause : Byte) : List Word := [0x30000000#32, cause.setWidth 32, 0, 0]

/-- The candidates, and the final record if none is accepted (R260). A triangle that two leaves name is met
once. Log entry 38, DEDUCED. -/
def rayResult (ray : Ray) (g : RayGeo) (hits : List TriHit) : List (List Word) × List Word :=
  let hs := hits.eraseDups.filter fun h => !(bit ray.flags 0 && h.back)
  let all := hs.mergeSort TriHit.before
  let solid := all.filter fun h => h.opaque_ || bit ray.flags 1
  let best := solid.head?
  let bound := (best.map (·.t)).getD g.tmax
  let cands := if bit ray.flags 1 || bit ray.flags 2 then []
    else all.filter fun h => !h.opaque_ && h.t.le bound
  (cands.map (TriHit.record 2), (best.map (TriHit.record 1)).getD (missRec (ray.regs.getD 7 0)))

/-! ## Issue -/

/-- One ray updated. -/
def State.updRay (s : State) (id : Nat) (f : Ray → Ray) : State :=
  { s with rays := s.rays.map fun y => if y.id == id then f y else y }

/-- The HIT-bound queue register of lowest number (R259). -/
def Thread.hitQ (t : Thread) : Option Nat := (List.range 8).find? fun i => t.q[i]?.getD .unbound == .hit

/-- rt.trace for one thread (R259). -/
def rtTraceThread (d a : Code) (b : BSrc) (r : Run) (s : State) (t : TRef) : ThrRes :=
  let e := s.env r t.cid
  let x := s.thread t
  let flags := e.readB x b
  if x.helper then .ok ((s.commitAt r t).updThread t fun y => y.writeNone e)
  else match x.bind (queueOf d) with
    | .ray scene =>
      if fieldNat flags 31 3 ≠ 0 then .trap s (r.trap 0x78#8 2#8)
      else match x.hitQ with
        | none => .trap s (r.trap 0x78#8 3#8)
        | some q =>
          if 256 ≤ s.raysHeld r.key.col then s.issuePark r t .queue
          else s.handOver r t .traversal fun s1 id =>
            let ray : Ray := {
              id := id, cid := t.cid, tid := t.tid, q := q, scene := scene
              regs := (List.range 8).map fun i => x.reg (a.toNat + i), flags := flags }
            { s1 with rays := s1.rays ++ [ray] }.updThread t fun y => y.writeNone e
    | _ => .trap s (r.trap 0x78#8 1#8)

/-- rt.trace (R259). -/
def execRtTrace (d a : Code) (b : BSrc) (s : State) : Host.Outcome State Fault Refusal :=
  s.lanes (rtTraceThread d a b)

/-- A candidate answered (R260, R262): accepted, it ends the ray; the next record may be sent. -/
def Ray.answer (acc : Bool) (y : Ray) : Ray :=
  let hit : List Word := match y.offered with
    | some (w :: ws) => ((w &&& 0x0fffffff#32) ||| 0x10000000#32) :: ws
    | _ => []
  if acc then { y with phase := .sending, offered := none, cands := [], accepted := some hit }
  else { y with phase := .sending, offered := none }

/-- rt.cont for one thread (R262). -/
def rtContThread (b : BSrc) (r : Run) (s : State) (t : TRef) : ThrRes :=
  let e := s.env r t.cid
  let x := s.thread t
  let ans := e.readB x b
  let fin (s : State) : ThrRes := .ok (s.updThread t fun y => y.writeNone e)
  if x.helper then fin (s.commitAt r t)
  else match x.cands with
    | [] => .trap s (r.trap 0x7a#8 0#8)
    | id :: rest =>
      if 1 < ans.toNat then .trap s (r.trap 0x7a#8 0#8)
      else s.issue r t fun s1 =>
        fin ((s1.updRay id (Ray.answer (ans == 1))).updThread t fun y => { y with cands := rest })

/-- rt.cont (R262). -/
def execRtCont (b : BSrc) (s : State) : Host.Outcome State Fault Refusal :=
  s.lanes (rtContThread b)

/-- `n` words popped. -/
def State.popWords (t : TRef) (q : BitVec 3) : Nat → List Word → State → State × List Word × Option QOut
  | 0, acc, s => (s, acc, none)
  | n + 1, acc, s => match s.popWord t q with
    | .ok s1 w => State.popWords t q n (acc ++ [w]) s1
    | o => (s, acc, some o)

/-- rt.pop for one thread (R201, R241, R261). -/
def rtPopThread (d a : Code) (r : Run) (s : State) (t : TRef) : ThrRes :=
  let e := s.env r t.cid
  let fin (s1 : State) (ws : List Word) : ThrRes := .ok (s1.updThread t fun y => y.writeLong e d 4 (.words ws))
  if (s.thread t).helper then fin (s.commitAt r t) [0, 0, 0, 0]
  else match State.popWords t (queueOf a) 4 [] (s.commitAt r t) with
    | (_, _, some o) => queueRes s r t (queueOf a) o
    | (s1, ws, none) => fin s1 ws

/-- rt.pop (R261). -/
def execRtPop (d a : Code) (s : State) : Host.Outcome State Fault Refusal := s.lanes (rtPopThread d a)

/-! ## The unit -/

/-- A ray is evaluated: its candidates and the record that ends it (R260). -/
def Ray.evaluated (cands : List (List Word)) (final : List Word) (y : Ray) : Ray :=
  { y with phase := .sending, cands := cands, final := final }

/-- RAY_TRAVERSAL (R258, R260): the unit of a column tests a ray against its scene. -/
def execRayTraversal (c ray : Nat) (s : State) : Host.Outcome State Fault Refusal :=
  .next (match s.rays.find? fun y => y.id == ray && s.crewCol y.cid == c with
    | none => s
    | some y =>
      let x := s.col c
      let wid := (s.crew y.cid).wid
      let fin (s1 : State) (cands : List (List Word)) (final : List Word) : State :=
        (s1.updRay ray (Ray.evaluated cands final)).dropEng ray
      if y.phase ≠ .traced ∨ x.gated ∨ ¬ x.powered ∨ ¬ s.engFree ray then s
      else match rayGeo y.regs with
        | none => fin s [] (missRec (y.regs.getD 7 0))
        | some g => match (s.eng ray).failed with
          | some cause => fin s [] (faultRec cause)
          | none => match s.sceneHits wid y.scene g with
            | .ok s1 hits => fin s1 (rayResult y g hits).1 (rayResult y g hits).2
            | .bad s1 cause => fin s1 [] (faultRec cause)
            | .wait s1 => s1
            | .fault s1 k ia ea => s1.engFault ray wid k ia ea 1#8)

/-- A record put into the HIT queue of a ray (R261). -/
def State.putRecord (s : State) (y : Ray) (ws : List Word) (final : Bool) : State :=
  let add (h : HitQueue) : HitQueue :=
    { h with recs := h.recs ++ [{ words := ws, final := final, ray := y.id }] }
  let mine (h : HitQueue) : Bool := h.cid == y.cid && h.tid == y.tid && h.q == y.q
  if s.hits.any mine then { s with hits := s.hits.map fun h => if mine h then add h else h }
  else { s with hits := s.hits ++ [add { cid := y.cid, tid := y.tid, q := y.q }] }

/-- The rays of a thread that still deliver records are in trace order: this one is first (R261). -/
def State.firstRay (s : State) (y : Ray) : Bool :=
  ((s.rays.find? fun z => z.cid == y.cid && z.tid == y.tid && z.phase != .done).map (·.id)) == some y.id

/-- HIT_RECORD (R260, R261): the next record of a ray is delivered. A workgroup that has a fault answers
candidates with 0 (13 R356). -/
def execHitRecord (c ray : Nat) (s : State) : Host.Outcome State Fault Refusal :=
  .next (match s.rays.find? fun y => y.id == ray && s.crewCol y.cid == c with
    | none => s
    | some y =>
      let x := s.col c
      if y.phase ≠ .sending ∨ x.gated ∨ ¬ x.powered ∨ ¬ s.firstRay y then s
      else match y.cands with
        | w :: ws =>
          if (s.wg (s.crew y.cid).wid).fault.isSome then s.updRay ray fun z => { z with cands := ws }
          else (s.updRay ray fun z =>
            { z with phase := .waiting, cands := ws, offered := some w }).putRecord y w false
        | [] =>
          ((s.updRay ray fun z => { z with phase := .done }).putRecord y (y.accepted.getD y.final) true).completeOp
            y.cid ray)

end Sys2Proof.Machine
end

