-- ==== Sys2Proof/Machine/End.lean ====
section
/-!
DEFINITION. The end of a workgroup (01 R9, 08 R237, 12 R329, 13 R356, R357), workgroup faults (R356, 14 R371),
the serial phase of a deterministic workgroup (14 R370) and the comparison of redundant copies (R373).
-/

namespace Sys2Proof.Machine

/-! ## Workgroup faults (R356) -/

/-- A crew belongs to a workgroup. -/
def State.crewIn (s : State) (wid cid : Nat) : Bool := s.crews.any fun c => c.cid == cid && c.wid == wid

/-- Some run that executes holds a member of a workgroup. Log entry 94, DEDUCED. -/
def State.running (s : State) (wid : Nat) : Bool :=
  s.runs.any fun r => r.parked.isNone && r.members.any fun t => s.crewIn wid t.cid

/-- A thread that its workgroup's fault has stopped: its open region and what it waits for are discarded. -/
def Thread.stop (t : Thread) : Thread :=
  { t with exited := true, pend := [], jump := none, boundary := none, raised := none, wait := .ready, qin := []
           qout := none, packet := .replicate 8 [], cands := [], q := .replicate 8 .unbound }

/-- What a workgroup's accesses wait on is given up (R349). -/
def State.detachWg (s : State) (wid : Nat) : State :=
  let mine : Attached → Bool
    | .thread t => s.crewIn wid t.cid
    | .vector cid => s.crewIn wid cid
    | .sequencer c => (s.col c).seqr.holder == some wid
    | .engine _ => false
  { s with pending := s.pending.map fun e => { e with attached := e.attached.filter fun a => !mine a } }

/-- Steps 1 and 2 of R356: crews stop, held stores are discarded, the sequencer stops, candidates are
ignored. A commit that waits for its seal has released nothing. Log entry 94, DEDUCED. -/
def State.stopWg (s : State) (wid : Nat) : State :=
  let w := s.wg wid
  let s1 := s.detachWg wid
  let s2 := s1.updCol w.col fun x =>
    if x.seqr.holder = some wid then { x with seqr := { x.seqr with running := false, faultWait := none } } else x
  let quit (y : Ray) : Ray := if s.crewIn wid y.cid && y.phase == .waiting then y.answer false else y
  let drop (r : Run) : Run := { r with members := r.members.filter fun t => !s.crewIn wid t.cid
                                       done := r.done.filter fun t => !s.crewIn wid t.cid }
  let s3 := s2.updCol w.col fun x => { x with released := x.released.filter fun e => !(e.hold && s.crewIn wid e.cid) }
  { s3 with
    threads := s2.threads.map fun t => if s.crewIn wid t.cid then t.stop else t
    crews := s2.crews.map fun c => if c.wid == wid then { c with storeQ := [], vectorWait := none } else c
    runs := (s2.runs.map drop).filter fun r => !r.members.isEmpty
    rays := s2.rays.map quit
    wgs := s2.wgs.map fun x => if x.wid == wid then { x with faulted := true, yields := [] } else x }

/-- The workgroups of a deterministic launch that a fault at an index cancels (R371): those of higher index, and
the other copies. Log entry 68, DEDUCED. -/
def State.cancel (s : State) (wid lid i : Nat) : State :=
  (s.wgs.filter fun w => w.lid == lid && w.wid != wid && decide (i ≤ w.index.getD 0)).foldl
    (fun acc w => acc.faultWg w.wid { cause := 0xb6#8 }) s

/-- WORKGROUP_FAULT (R356, R357, R371): a fault that has been raised takes effect once the crews are at run
boundaries. Log entry 68, DEDUCED. Log entry 94, DEDUCED. -/
def execWorkgroupFault (wid : Nat) (s : State) : Host.Outcome State Fault Refusal :=
  let w := s.wg wid
  match w.fault with
  | none => .next s
  | some _ =>
    if w.faulted ∨ s.running wid then .next s
    else
      let l := s.launch w.lid
      let i := w.index.getD l.total
      let s1 := s.stopWg wid
      let s2 := if l.deterministic then s1.cancel wid w.lid i else s1
      .next (s2.dropRecords w.lid).settle

/-! ## The end of a workgroup -/

/-- Its crews and its sequencer have ended, and the engine operations that it issued have completed (R9, R237). -/
def State.quiet (s : State) (w : Workgroup) : Bool :=
  let crews := s.wgCrews w.wid
  s.wgs.any (fun x => x.wid == w.wid) && !s.running w.wid &&
  s.threads.all (fun t => t.exited || t.helper || !crews.any fun c => c.cid == t.cid) &&
  (w.faulted || (s.col w.col).seqr.holder != some w.wid) &&
  crews.all fun c => c.ops.all fun o => o.done || o.cls == .matrix

/-- The records that a workgroup's end pushes, in crew index order (R34, R165, R360): each keeps the workgroup's index. Of
redundant copies the chosen one names them for the copies 0 and 1 of what goes on (14 R373; log entry 89, DEDUCED).
Log entry 70, DEDUCED. -/
def State.yieldRecords (s : State) (w : Workgroup) : List Record :=
  let l := s.launch w.lid
  let ys := (w.yields.mergeSort fun a b => a.1 ≤ b.1).map fun y => { y.2 with
    index := if w.task then some noIndex else w.index }
  let ps := (List.range ys.length).zip ys |>.map fun p => { p.2 with part := w.part * 17 + p.1 + 1 }
  if w.faulted ∨ ys.any fun y => l.drops y then []
  else if w.task ∨ ¬ l.redundant w.index then ps
  else if w.chosen then ps.flatMap fun r => [{ r with copy := 0 }, { r with copy := 1 }]
  else []

/-- A workgroup may end (R9, R337, R370): a deterministic one that has not faulted has applied its log; the deque
has room for the records that it yields. -/
def State.mayEnd (s : State) (w : Workgroup) : Bool :=
  s.quiet w && (w.faulted || w.fault.isNone && (!(s.launch w.lid).deterministic || w.applied)) &&
    decide ((s.col w.col).deque.length + (s.col w.col).yielded.length + (s.yieldRecords w).length ≤ dequeMax)

/-- The state without a workgroup: its crews, threads, channels, rays and the sampling contexts in its scratchpad (R9,
R356). The transaction barriers in its scratchpad stand until another allocation takes their place (R196). -/
def State.freeWg (s : State) (wid : Nat) : State :=
  let w := s.wg wid
  let mine (cid : Nat) : Bool := s.crewIn wid cid
  let inside (k : Nat) : Bool := decide (mkKey (regScratch w.col) w.scratchBase ≤ k ∧
    k < mkKey (regScratch w.col) (w.scratchBase + w.scratchSize))
  let s1 := (((s.refindStash wid).flushStash wid fun _ => true).dropStashLines wid w.stash).updCol w.col fun x => { x with
    heldDone := x.heldDone.filter fun h => !mine h.1
    endedSince := wid :: x.endedSince
    leaders := x.leaders.filter fun y => !mine y.2.2.cid
    victims := x.victims.filter fun y => !mine y.2.cid
    seqr := if x.seqr.owner = some wid then {} else x.seqr }
  { s1 with
    runs := (s1.runs.map fun r => { r with members := r.members.filter fun t => !mine t.cid }).filter fun r =>
      !r.members.isEmpty
    threads := s1.threads.filter fun t => !mine t.cid
    crews := s1.crews.filter fun c => c.wid != wid
    wgs := s1.wgs.filter fun x => x.wid != wid
    xe := s1.xe.filter fun x => x.wid != wid
    smps := s1.smps.filter fun x => !inside x.key
    rays := s1.rays.filter fun y => !mine y.cid
    hits := s1.hits.filter fun y => !mine y.cid }

/-- The KIND 1 record of a faulted workgroup (R350, R356). Log entry 68, DEDUCED. Log entry 69, DEDUCED. -/
def State.faultReport (s : State) (w : Workgroup) : State :=
  match w.fault with
  | none => s
  | some f =>
    let l := s.launch w.lid
    s.writeRecord {
      cause := f.cause, kind := 1, detail := f.detail, access := f.by_.access
      who := whoWord l.ctx w.col f.by_.crew f.by_.tid, addr := f.addr, ia := BitVec.ofNat 64 f.by_.ia, pc := f.pc
      gen := f.gen, wg := wgWord w, time := s.time, launch := launchWord l }

/-- The records that a workgroup yielded wait for a seal of the core, which is asked for (R165).
Log entry 70, DEDUCED. -/
def State.pushYields (s : State) (w : Workgroup) : State :=
  let ys := s.yieldRecords w
  if ys.isEmpty then s
  else
    (s.updCol w.col fun x => Column.askSeal 2 { x with
      yielded := x.yielded ++ ys.map fun y => (x.nextSeal, y) }).updLaunch w.lid fun l =>
        { l with tasks := l.tasks + ys.length }

/-- An index has ended when no workgroup and no record of it is left (R360, R366). Log entry 70, DEDUCED. -/
def State.endIndex (s : State) (w : Workgroup) : State :=
  match w.index with
  | none => s
  | some i =>
    let left := s.wgs.any (fun x => x.lid == w.lid && x.index == some i && !x.task) ||
      s.columns.toList.any fun x => (x.deque ++ x.yielded.map (·.2)).any fun r =>
        r.lid == w.lid && r.index == some i && !r.task
    s.updLaunch w.lid fun l =>
      if left ∨ l.ended.contains i ∨ l.total ≤ i then l else { l with ended := l.ended ++ [i] }

/-- WORKGROUP_END (R9, R356): its core's pending stores are performed first, so that whoever takes up its records sees
them (R165, R304, R449). -/
def execWorkgroupEnd (wid : Nat) (s0 : State) : Host.Outcome State Fault Refusal :=
  let s := s0.drain (s0.wg wid).col
  let w := s.wg wid
  if ¬ s.mayEnd w ∨ (s.col w.col).pendingStores.any fun e => s.crewIn wid e.cid || e.cid == noCid + w.col then .next s
  else
    let s1 := (s.freeWg wid).updLaunch w.lid fun l => { l with tasks := if w.fromDeque then l.tasks - 1 else l.tasks }
    let s2 := if w.faulted then s1.faultReport w else s1.pushYields w
    .next (s2.endIndex w).settle

/-! ## The serial phase (14 R370) -/

/-- One log entry before another: by crew, thread, count. -/
def LogEntry.before (a b : LogEntry) : Bool := lexLt [a.crew, a.tid, a.count] [b.crew, b.tid, b.count]
/-- A log in the order of R370. -/
def Workgroup.ordered (w : Workgroup) : List LogEntry := w.log.mergeSort fun a b => !b.before a

/-- A log entry performed as a store of the device. -/
def State.applyEntry (s : State) (e : LogEntry) : State :=
  s.applyStore (noCid + 96) { tid := e.tid, key := e.key, op := e.op, ea := e.ea }

/-- SERIAL_PHASE (R370, R373): the log of a workgroup whose turn it is is applied, if it is not redundant or its
copy was chosen. -/
def execSerialPhase (wid : Nat) (s : State) : Host.Outcome State Fault Refusal :=
  let w := s.wg wid
  let l := s.launch w.lid
  let red := l.redundant w.index
  if l.deterministic ∧ w.fault.isNone ∧ ¬ w.applied ∧ s.quiet w ∧ s.lowerEnded w ∧ (¬ red ∨ w.judged) then
    let s1 := if ¬ red ∨ w.chosen then w.ordered.foldl (fun acc e => acc.applyEntry e) s else s
    .next (s1.updWg wid fun x => { x with ticket := true, applied := true })
  else .next s

/-! ## Redundant copies (14 R373) -/

/-- A copy of a redundant workgroup that is not judged, gone on from the same records. Log entry 89, DEDUCED. -/
def State.copyOf (s : State) (w : Workgroup) (k : Nat) : Option Workgroup :=
  s.wgs.find? fun x => x.lid == w.lid && x.index == w.index && x.part == w.part && x.copy == k && !x.task && !x.judged
/-- The CRC-32C of a copy's log. Log entry 89, DEDUCED. -/
def Workgroup.logCrc (w : Workgroup) : Word := crc32c (w.ordered.flatMap LogEntry.toBytes)

/-- A copy's log is chosen; the others' are not applied. Log entry 89, DEDUCED. -/
def State.chooseCopy (s : State) (w : Workgroup) (k : Nat) : State :=
  { s with wgs := s.wgs.map fun x =>
    if x.lid == w.lid && x.index == w.index && x.part == w.part && !x.task && !x.judged then
      { x with judged := true, chosen := x.copy == k } else x }

/-- A third copy is wanted (R373): of a workgroup that the dispatcher placed, from its grid record; of one that went on
from a record, from that record, which waits in the deque of copy 0's core. Log entry 89, DEDUCED. -/
def State.askThird (s : State) (a : Workgroup) : State :=
  let i := a.index.getD 0
  let there (r : Record) : Bool := r.lid == a.lid && r.index == a.index && r.part == a.part && r.copy == 2 && !r.task
  if a.part = 0 then s.updLaunch a.lid fun x => { x with thirds := i :: x.thirds.filter fun j => j != i }
  else if s.columns.toList.any (fun x => x.deque.any there) ∨ ¬ (s.col a.col).hasRoom then s
  else (s.updCol a.col fun x => x.enqueue { a.record with copy := 2, lid := a.lid, index := a.index, part := a.part })
    |>.updLaunch a.lid fun l => { l with tasks := l.tasks + 1 }

/-- REDUNDANT_COMPARE (R373): named by a copy that has ended. What goes on after a yield goes on in two copies of the
chosen one's records, which are compared in their turn. Log entry 89, DEDUCED. -/
def execRedundantCompare (wid : Nat) (s : State) : Host.Outcome State Fault Refusal :=
  let w := s.wg wid
  let l := s.launch w.lid
  let ended (x : Workgroup) : Bool := s.quiet x && x.fault.isNone
  if w.task ∨ ¬ l.redundant w.index ∨ w.judged then .next s
  else match s.copyOf w 0, s.copyOf w 1 with
    | some a, some b =>
      if ¬ ended a ∨ ¬ ended b then .next s
      else if a.logCrc = b.logCrc then .next (s.chooseCopy w 0)
      else match s.copyOf w 2 with
        | none => .next (s.askThird a)
        | some c =>
          if ¬ ended c then .next s
          else if c.logCrc = a.logCrc then .next (s.chooseCopy w 0)
          else if c.logCrc = b.logCrc then .next (s.chooseCopy w 1)
          else .next (s.faultWg a.wid { cause := 0xb5#8 })
    | _, _ => .next s

end Sys2Proof.Machine
end

