-- ==== Sys2Proof/Machine/LaneCross.lean ====
section
/-!
DEFINITION. The pixel instructions and the cross-lane instructions (05 R138 to R147).
-/

namespace Sys2Proof.Machine

/-! ## Pixels -/

/-- The sample depth of a form: y422b10, y422b12, c444b10, c444b12 (R78). -/
def pxDepth (f : BitVec 2) : Nat := if f = 0#2 ∨ f = 2#2 then 10 else 12
/-- The pixels of a pgroup (R78). -/
def pxCount (f : BitVec 2) : Nat := if f = 2#2 then 4 else 2
/-- The samples that pixel `p` takes its three components from (R78, R138). -/
def pxSamples (f : BitVec 2) (p : Nat) : List Nat :=
  if f.toNat < 2 then [0, 1 + 2 * p, 2] else [3 * p, 3 * p + 1, 3 * p + 2]
/-- Where bit `n` of a pgroup's bit string stands in its little-endian bytes (R79). -/
def pxBit (n : Nat) : Nat := 8 * (n / 8) + 7 - n % 8
/-- Sample `j` of a pgroup (R79). -/
def pgSample (q : Nat) (w j : Nat) : Nat :=
  (List.range w).foldl (fun acc i => 2 * acc + b2n (q.testBit (pxBit (j * w + i)))) 0
/-- Sample `j` of a pgroup replaced (R79, R139). -/
def pgPut (q : QWord) (w j v : Nat) : QWord :=
  (List.range w).foldl (fun acc i =>
    let m : QWord := 1#128 <<< pxBit (j * w + i)
    if v.testBit (w - 1 - i) then acc ||| m else acc &&& ~~~m) q

/-- The components of a pixel (R138). -/
def pxUnpack (f : BitVec 2) (q : QWord) (p : Nat) : DWord :=
  if pxCount f ≤ p then 0
  else BitVec.ofNat 64 (((pxSamples f p).map (pgSample q.toNat (pxDepth f))).foldr
    (fun x acc => x + 65536 * acc) 0)
/-- A pixel's components put into a pgroup (R139). -/
def pxPack (f : BitVec 2) (q : QWord) (c : DWord) (p : Nat) : QWord :=
  let w := pxDepth f
  if pxCount f ≤ p then q
  else
    let put (acc : QWord) (k : Nat) : QWord :=
      pgPut acc w ((pxSamples f p).getD k 0) (min (c.extractLsb' (16 * k) 16).toNat (2 ^ w - 1))
    if f.toNat < 2 ∧ p = 1 then put q 1 else put (put (put q 0) 1) 2

/-- pxunpk (R138). -/
def execPxunpk (f : BitVec 2) (d a : Code) (b : BSrc) (s : State) : Host.Outcome State Fault Refusal :=
  s.alu (bCodes b) d fun e t =>
    t.write64 e d (pxUnpack f (e.read128 t a) (fieldNat (e.readB t b) 1 0))
/-- pxpack (R139). -/
def execPxpack (f : BitVec 2) (d a : Code) (b : BSrc) (s : State) : Host.Outcome State Fault Refusal :=
  s.alu (bCodes b) d fun e t =>
    t.write128 e d (pxPack f (e.read128 t d) (e.read64 t a) (fieldNat (e.readB t b) 1 0))

/-! ## Groups -/

/-- Source queues popped for each thread of a run in turn, before any of them computes (R143, R201): the
state, whether some thread left the run, whether the run has to park. -/
def popEach (r : Run) (cs : List Code) : List TRef → State → Bool → State × Bool × Bool
  | [], s, l => (s, l, false)
  | t :: ts, s, l => match popAll s r t cs s with
    | (s1, none) => popEach r cs ts s1 l
    | (_, some (.ok s1)) => popEach r cs ts s1 l
    | (_, some (.trap s1 ti)) => popEach r cs ts ((s1.leaveRun r.key t).raise t ti) true
    | (_, some (.leave s1)) => popEach r cs ts (s1.leaveRun r.key t) true
    | (_, some (.park s1 _)) => (s1, l, true)

/-- The group of a thread among the threads that execute the word: those of its crew with an equal mask
whose bit the mask has, and the thread itself (R142). -/
def groupOf (e : LaneEnv) (m : Code) (xs : List Thread) (t : Thread) : List Thread :=
  let mt := e.mask t m
  xs.filter fun u => u.cid == t.cid && (u.tid == t.tid || (mt.getLsbD u.tid && e.mask u m == mt))
/-- The contributors of a group (R142). -/
def contributors (g : List Thread) : List Thread := g.filter fun u => !u.helper

/-- Every thread of the run takes its result from its group (R142, R143). -/
def State.crossMap (s : State) (r : Run) (m : Code) (f : LaneEnv → List Thread → Thread → Thread) : State :=
  let todo := (s.run r.key).todo
  let xs := todo.map s.thread
  let g (t : Thread) : Thread :=
    let e := s.env r t.cid
    if todo.contains t.ref then f e (groupOf e m xs t) t else t
  { s with threads := s.threads.map g }

/-- A cross-lane word is complete for a thread: its push, if it has one, has succeeded, and the elements that it has
popped are used up; `after` is what else changes then (R51, R143, R201). -/
def crossEnd (pops : Bool) (after : LaneEnv → Thread → Thread) (r : Run) (s : State) (t : TRef) : ThrRes :=
  match pushLast r s t s with
  | .ok s1 => .ok (s1.updThread t fun x => after (s.env r t.cid) { x with
      qin := x.qin.filter fun p => p.1 != r.wordAddr, regionPc := if pops then r.nextInstr else x.regionPc })
  | res => res

/-- A cross-lane word (R142, R143): `f` gives each thread its result, `after` what changes once the word is complete for
it. All groups are formed before any thread pushes, so that a thread whose own push traps is present for the others,
which R142 does not say (log entry 108, DESIGN CHOICE). -/
def State.cross (s : State) (srcs : List Code) (d m : Code) (f : LaneEnv → List Thread → Thread → Thread)
    (after : LaneEnv → Thread → Thread := fun _ t => t) : Host.Outcome State Fault Refusal :=
  match s.current with
  | none => .fault .noRun
  | some r =>
    let cs := queueCodes srcs
    if (d :: srcs).any isQueueCode then
      if isQueueCode d && r.todo.all fun t => (s.thread t).qout.isSome then
        .next (laneLoop (crossEnd (!cs.isEmpty) after r) r.key r.todo false s)
      else match popEach r cs r.todo s false with
        | (s1, l, true) => .next (s1.parkRun r.key l .queue)
        | (s1, l, false) =>
          let s2 := s1.crossMap r m f
          .next (laneLoop (crossEnd (!cs.isEmpty) after r) r.key (s2.run r.key).todo l s2)
    else .next ((s.crossMap r m fun e g t => after e (f e g t)).finishWord r.key false)

/-- The pick and quad operations: `j` gives the lane to read from (R144). -/
def State.pick (s : State) (d a : Code) (b : BSrc) (m : Code) (j : Nat → Word → Option Nat) :
    Host.Outcome State Fault Refusal :=
  s.cross (a :: bCodes b) d m fun e g t =>
    let src := match j t.tid (e.readB t b) with
      | none => t
      | some n => (g.find? fun u => u.tid == n).getD t
    t.write32 e d (e.read32 src a)

/-- The lane `n` steps back or forward, wrapping when bit 6 of b is set (R144). -/
def backLane (t : Nat) (b : Word) : Option Nat :=
  let n := fieldNat b 5 0
  if bit b 6 then some ((t + 64 - n) % 64) else if n ≤ t then some (t - n) else none
def fwdLane (t : Nat) (b : Word) : Option Nat :=
  let n := fieldNat b 5 0
  if bit b 6 then some ((t + n) % 64) else if t + n < 64 then some (t + n) else none

/-- xl.pick (R144). -/
def execXlPick (d a : Code) (b : BSrc) (m : Code) (s : State) : Host.Outcome State Fault Refusal :=
  s.pick d a b m fun _ x => some (fieldNat x 5 0)
/-- xl.back (R144). -/
def execXlBack (d a : Code) (b : BSrc) (m : Code) (s : State) : Host.Outcome State Fault Refusal :=
  s.pick d a b m backLane
/-- xl.fwd (R144). -/
def execXlFwd (d a : Code) (b : BSrc) (m : Code) (s : State) : Host.Outcome State Fault Refusal :=
  s.pick d a b m fwdLane
/-- xl.flip (R144). -/
def execXlFlip (d a : Code) (b : BSrc) (m : Code) (s : State) : Host.Outcome State Fault Refusal :=
  s.pick d a b m fun t x => some (t ^^^ fieldNat x 5 0)
/-- quad.swap.h (R144). -/
def execQuadSwapH (d a m : Code) (s : State) : Host.Outcome State Fault Refusal :=
  s.pick d a (.lit 0) m fun t _ => some (t ^^^ 1)
/-- quad.swap.v (R144). -/
def execQuadSwapV (d a m : Code) (s : State) : Host.Outcome State Fault Refusal :=
  s.pick d a (.lit 0) m fun t _ => some (t ^^^ 2)
/-- quad.swap.d (R144). -/
def execQuadSwapD (d a m : Code) (s : State) : Host.Outcome State Fault Refusal :=
  s.pick d a (.lit 0) m fun t _ => some (t ^^^ 3)
/-- quad.bcast (R144). -/
def execQuadBcast (d a : Code) (b : BSrc) (m : Code) (s : State) : Host.Outcome State Fault Refusal :=
  s.pick d a b m fun t x => some (t / 4 * 4 + fieldNat x 1 0)

/-- The 64-bit set of the threads of a list. -/
def threadMask (ts : List Thread) : DWord := ts.foldl (fun acc t => acc ||| (1#64 <<< t.tid)) 0

/-- xl.mask (R145). -/
def execXlMask (d : Code) (p : BitVec 3) (m : Code) (s : State) : Host.Outcome State Fault Refusal :=
  s.cross [] d m fun e g t => t.write64 e d (threadMask ((contributors g).filter fun u => u.pred p))
/-- xl.any (R145). -/
def execXlAny (p x : BitVec 3) (m : Code) (s : State) : Host.Outcome State Fault Refusal :=
  s.cross [] 120#7 m fun e g t => t.writePred e p ((contributors g).any fun u => u.pred x)
/-- xl.all (R145). -/
def execXlAll (p x : BitVec 3) (m : Code) (s : State) : Host.Outcome State Fault Refusal :=
  s.cross [] 120#7 m fun e g t => t.writePred e p ((contributors g).all fun u => u.pred x)
/-- xl.same (R145). -/
def execXlSame (d a m : Code) (s : State) : Host.Outcome State Fault Refusal :=
  s.cross [a] d m fun e g t =>
    t.write64 e d (threadMask ((contributors g).filter fun u => e.read32 u a == e.read32 t a))

/-! ## Reductions and scans -/

/-- The integer reductions 0 to 7 and their identities (R56, R146). -/
def redOp (j : Nat) : Word → Word → Word :=
  match j with
  | 0 => (· + ·) | 1 => minS | 2 => maxS | 3 => minU | 4 => maxU | 5 => (· &&& ·) | 6 => (· ||| ·)
  | _ => (· ^^^ ·)
def redId (j : Nat) : Word :=
  match j with
  | 1 => 0x7fffffff#32 | 2 => 0x80000000#32 | 3 => 0xffffffff#32 | 5 => 0xffffffff#32 | _ => 0

/-- A reduction of words by operation j (R146). -/
def LaneEnv.fold (e : LaneEnv) (t : Thread) (j : Nat) (xs : List Word) : Word :=
  let code (w : Word) : Nat := fp32.flush e.daz w.toNat
  if j < 8 then xs.foldl (redOp j) (redId j)
  else if j = 8 then
    let md := e.rnd t 0#3 0
    if xs.isEmpty then 0
    else BitVec.ofNat 32 (e.out fp32 (fp32.round md (.sum md.down (xs.map e.f32v))))
  else if j = 9 then
    BitVec.ofNat 32 (e.out fp32 (xs.foldl (fun acc w => nanBoth Fmt.minCode fp32 acc (code w)) 0x7f800000))
  else
    BitVec.ofNat 32 (e.out fp32 (xs.foldl (fun acc w => nanBoth Fmt.maxCodeOf fp32 acc (code w)) 0xff800000))

/-- The threads of a list in ascending index. -/
def byTid (ts : List Thread) : List Thread := ts.mergeSort fun x y => x.tid ≤ y.tid

/-- xl.fold (R146). -/
def execXlFold (j : BitVec 4) (d a m : Code) (s : State) : Host.Outcome State Fault Refusal :=
  s.cross [a] d m (fun e g t => t.write32 e d (e.fold t j.toNat ((byTid (contributors g)).map fun u => e.read32 u a)))
    fun e t => if j = 8#4 then t.countStoch e 0#3 1 else t

/-- The start of a thread's segment (R147). -/
def segStart (h : DWord) (t : Nat) : Nat :=
  (List.range (t + 1)).foldl (fun acc u => if h.getLsbD u then u else acc) 0

/-- A scan: `start` gives a thread's first lane (R147). -/
def State.scan (s : State) (incl : Bool) (j : BitVec 3) (srcs : List Code) (d a m : Code)
    (start : LaneEnv → Thread → Nat) : Host.Outcome State Fault Refusal :=
  s.cross srcs d m fun e g t =>
    let s0 := start e t
    let us := (byTid (contributors g)).filter fun u =>
      decide (s0 ≤ u.tid) && (decide (u.tid < t.tid) || incl && u.tid == t.tid)
    t.write32 e d (e.fold t j.toNat (us.map fun u => e.read32 u a))

/-- scan.incl (R147). -/
def execScanIncl (j : BitVec 3) (d a m : Code) (s : State) : Host.Outcome State Fault Refusal :=
  s.scan true j [a] d a m fun _ _ => 0
/-- scan.excl (R147). -/
def execScanExcl (j : BitVec 3) (d a m : Code) (s : State) : Host.Outcome State Fault Refusal :=
  s.scan false j [a] d a m fun _ _ => 0
/-- scan.seg.incl (R147). -/
def execScanSegIncl (j : BitVec 3) (d a : Code) (b : BSrc) (m : Code) (s : State) :
    Host.Outcome State Fault Refusal :=
  s.scan true j [a] d a m fun e t => segStart (e.readB64 t b) t.tid
/-- scan.seg.excl (R147). -/
def execScanSegExcl (j : BitVec 3) (d a : Code) (b : BSrc) (m : Code) (s : State) :
    Host.Outcome State Fault Refusal :=
  s.scan false j [a] d a m fun e t => segStart (e.readB64 t b) t.tid

end Sys2Proof.Machine
end

