-- ==== Sys2Proof/Machine/Matrix.lean ====
section
/-!
DEFINITION. The matrix instructions of the tile sequencer (08 R212 to R234): descriptors, operand reads and
accumulator moves, multiply-accumulate (03 R93, R94), checksums and correction.
-/

namespace Sys2Proof.Machine

/-! ## The sequencer's word -/

/-- A word of a sequencer's stream: `f` of its column (R210). -/
def State.seqWord (s : State) (f : Nat → State) : Host.Outcome State Fault Refusal :=
  match s.turn with
  | .seq c => .next (f c)
  | _ => .fault .noRun

/-- The sequencer of a column updated. -/
def State.updSeq (s : State) (c : Nat) (f : Sequencer → Sequencer) : State :=
  s.updCol c fun x => { x with seqr := f x.seqr }
/-- The matrix word is complete. Log entry 44, DEDUCED. -/
def State.seqDone (s : State) (c : Nat) : State := s.uNext (.seq c) 0 0
/-- The workgroup that the sequencer acts for. -/
def State.seqWid (s : State) (c : Nat) : Nat := s.uWid (.seq c)
/-- An accumulator. -/
def Sequencer.acc (q : Sequencer) (c : BitVec 3) : Accum := q.a[c.toNat]?.getD {}
/-- An accumulator replaced. -/
def Sequencer.setAcc (q : Sequencer) (c : BitVec 3) (v : Accum) : Sequencer :=
  { q with a := q.a.setIfInBounds c.toNat v }
/-- An element of an accumulator. -/
def Accum.at (a : Accum) (i n : Nat) : Word := (a.rows[i]?.getD (.replicate 16 0))[n]?.getD 0
/-- An element replaced. -/
def Accum.put (a : Accum) (i n : Nat) (w : Word) : Accum :=
  { a with rows := a.rows.setIfInBounds i ((a.rows[i]?.getD (.replicate 16 0)).setIfInBounds n w) }

/-! ## Scratchpad -/

/-- What a scratchpad access of a matrix word gives: bytes, or the state in which the word is over or waits. -/
inductive MxRes where
  | ok (s : State) (bs : List Byte)
  | stop (s : State)

/-- One piece of an operand, within a sector: R175 (MX_DESC, or `cause`), a deterministic launch's rules for space 2 and
for a stash entry's line (14 R368), a pool without power (R362), a page fault behind a stash entry, an uncorrectable
error (R358). `base` is the operand's pointer, ADDR of a fault (log entry 41, DEDUCED); MX_OUTLIER has no subcodes. `f` is
what is done with the pointer acted on, at its key. Log entry 43, DEDUCED. -/
def State.mxAt (s : State) (c : Nat) (cause : Byte) (base p : DWord) (n : Nat) (write : Bool)
    (f : State → DWord → Nat → MxRes) : MxRes :=
  let wid := s.seqWid c
  let ea := s.actEa wid p
  match s.scratchCheck (s.whoWg wid) p n with
  | none => .stop (s.seqTrap c cause (if cause = 0x73#8 then 0 else 6) base)
  | some (x, o) =>
    if s.detFails (s.wg wid) p (if write then .store else .load) then .stop (s.seqTrap c 0x44 5 p)
    else if ¬ write ∧ s.sharedWait wid p then .stop (s.uPark (.seq c) .ticket)
    else match (if ea = p then .ok (.scratch x.wid o)
        else s.check (s.whoWg wid) ea n (if write then permW else permR)) with
    | .error st => .stop (s.seqTrap c (stepCause st) (BitVec.ofNat 8 st) p)
    | .ok d =>
      if s.poolDown d then .stop ((s.wakePool d).uPark (.seq c) .other)
      else match s.locate d write with
      | .pageFault k ia _ => .stop (s.seqPageFault c k ia p (if write then 2 else 1))
      | .at s1 k =>
        if ¬ write ∧ (s1.eccAt (s1.route k) n).isSome then .stop (s1.seqTrap c 0x45 0 (sectorPtr p))
        else f s1 ea k

/-- Pieces read one after the other, each a pointer and a length, as the sequencer's agent sees them (R211). -/
def mxReads (c : Nat) (cause : Byte) (base : DWord) : List (DWord × Nat) → List Byte → State → MxRes
  | [], acc, s => .ok s acc
  | (p, n) :: ps, acc, s =>
    let me : TRef := (UAgent.seq c).ref
    match s.mxAt c cause base p n false fun s1 ea k => match s1.settleRead c (some me) false k n with
      | none => .stop (s1.uPark (.seq c) .seal)
      | some s2 => .ok s2 (s2.seen (some me) (s2.seqWid c) ea k (s2.spanBytes c k n)) with
    | .ok s1 bs => mxReads c cause base ps (acc ++ bs) s1
    | .stop s1 => .stop s1

/-- Pieces that may be written, each checked first, once what they must come after is performed (R192, R211, R308). -/
def mxCan (c : Nat) : List (DWord × List Byte) → State → MxRes
  | [], s => .ok s []
  | (p, bs) :: ps, s => match s.mxAt c 0x70 p p bs.length true fun s1 _ k =>
      match (s1.settleWrite c k bs.length).bind fun s2 =>
        if keyRegion k = regScratch c then some s2 else s2.settleSeen c (UAgent.seq c).ref with
      | none => .stop (s1.uPark (.seq c) .seal)
      | some s2 => .ok s2 [] with
    | .ok s1 _ => mxCan c ps s1
    | .stop s1 => .stop s1

/-- Pieces put in place, or logged (14 R368, R369). -/
def mxPut (c : Nat) : List (DWord × List Byte) → State → MxRes
  | [], s => .ok s []
  | (p, bs) :: ps, s => match s.mxAt c 0x70 p p bs.length true fun s1 ea k =>
      let wid := s1.seqWid c
      .ok (if s1.logged (s1.wg wid) ea ∧ ea ≠ p then s1.logStore wid 16
          { tid := 0, key := k, op := .write bs, ea := ea, pc := s1.uAddr (.seq c) }
        else s1.put k bs) [] with
    | .ok s1 _ => mxPut c ps s1
    | .stop s1 => .stop s1

/-- Some piece fails R175 (R215). -/
def State.mxHole (s : State) (c : Nat) (ps : List (DWord × Nat)) : Bool :=
  ps.any fun p => (s.scratchCheck (s.whoWg (s.seqWid c)) p.1 p.2).isNone

/-- A matrix word's reads of an operand: nothing is read while some piece fails R175. Log entry 43, DEDUCED.
Log entry 45, DEDUCED. -/
def State.mxRead (s : State) (c : Nat) (cause : Byte) (base : DWord) (ps : List (DWord × Nat))
    (f : State → List Byte → State) : State :=
  if s.mxHole c ps then s.seqTrap c cause (if cause = 0x73#8 then 0 else 6) base
  else match mxReads c cause base ps [] s with
    | .ok s1 bs => f s1 bs
    | .stop s1 => s1

/-- A matrix word's writes, the pieces of each operand with its pointer: all of them, or none. -/
def State.mxWrite (s : State) (c : Nat) (ops : List (DWord × List (DWord × List Byte))) (f : State → State) : State :=
  match ops.find? fun o => s.mxHole c (o.2.map fun p => (p.1, p.2.length)) with
  | some o => s.seqTrap c 0x70 6 o.1
  | none => match mxCan c (ops.flatMap (·.2)) s with
    | .ok s1 _ => match mxPut c (ops.flatMap (·.2)) s1 with
      | .ok s2 _ => f s2
      | .stop s2 => s2
    | .stop s1 => s1

/-- A row of 16-byte pieces at a pointer. -/
def rowPieces (p : DWord) (n : Nat) : List (DWord × Nat) :=
  (List.range (n / 16)).map fun j => (ptrAdd p (16 * j), 16)
/-- A row's bytes cut into the same pieces. -/
def rowWrites (p : DWord) (bs : List Byte) : List (DWord × List Byte) :=
  (List.range (bs.length / 16)).map fun j => (ptrAdd p (16 * j), bytesAt bs (16 * j) 16)

/-! ## Descriptors -/

/-- A scratchpad operand descriptor (R214). -/
structure MxDesc where
  base : DWord
  w : DWord
  deriving DecidableEq, Repr

/-- The descriptor of a pair. -/
def State.mxDesc (s : State) (c : Nat) (n : UReg) : MxDesc := ⟨s.ug (.seq c) n, s.ug (.seq c) (n + 1)⟩
/-- ROW_PITCH. -/
def MxDesc.pitch (d : MxDesc) : Nat := fieldNat d.w 15 0
/-- TILE_PITCH, as bits of a pointer's offset. -/
def MxDesc.tilePitch (d : MxDesc) : BitVec 52 := (d.w.extractLsb' 16 24).signExtend 52
/-- ROT. -/
def MxDesc.rot (d : MxDesc) : Nat := fieldNat d.w 43 40
/-- SCALED. -/
def MxDesc.scaled (d : MxDesc) : Bool := bit d.w 44
/-- QFMT. -/
def MxDesc.qfmt (d : MxDesc) : BitVec 3 := d.w.extractLsb' 45 3
/-- BLK. -/
def MxDesc.blk (d : MxDesc) : Nat := fieldNat d.w 51 48
/-- The pointer to a row. -/
def MxDesc.row (d : MxDesc) (i : Nat) : DWord := ptrAdd d.base (i * d.pitch)

/-- A pointer to space 1 or 2 with an alignment (R215, R224, R225). -/
def scratchPtr (p : DWord) (align : Nat) : Bool :=
  (ptrSpace p == 1 || ptrSpace p == 2) && ptrOff p % align == 0

/-- The subcode from 1 to 5 of R215 with which a descriptor is unfit for rows of `row` bytes, the lowest that applies.
Log entry 41, DEDUCED. -/
def MxDesc.bad (d : MxDesc) (row : Nat) (adv rotOk : Bool) : Option Byte :=
  firstSub [(!scratchPtr d.base 16, 1), (d.pitch % 16 != 0 || decide (d.pitch < row), 2),
    (adv && fieldNat d.w 19 16 != 0, 3), (decide (11 < d.rot) || (!rotOk && d.rot != 0), 4),
    (fieldNat d.w 63 52 != 0, 5)]

/-- The element bits of a quantisation format index: 8 (6-bit formats too) or 4 (R56, R73). -/
def qBits (f : BitVec 3) : Nat := if f = 4#3 ∨ f = 6#3 then 4 else 8

/-- Subcode 5 for the copy of adrain.t (R215). Log entry 41, DEDUCED. -/
def MxDesc.badCopy (d : MxDesc) : Bool :=
  d.qfmt == 7#3 || decide (48 / qBits d.qfmt ≤ d.blk)

/-- An advance of the pair (R217). Log entry 41, DEDUCED. -/
def State.advance (s : State) (c : Nat) (n : UReg) : State :=
  let d := s.mxDesc c n
  s.setUg (.seq c) n (d.base.extractLsb' 52 12 ++ (d.base.extractLsb' 0 52 + d.tilePitch) : BitVec 64)

/-- The pieces of an operand: 16 rows of 192 B under ROT, then the scale row (R216). -/
def MxDesc.pieces (d : MxDesc) : List (DWord × Nat) :=
  ((List.range 16).flatMap fun i => (List.range 12).map fun j =>
    (ptrAdd (d.row i) ((16 * j + 16 * (d.rot * i % 12)) % 192), 16)) ++
  if d.scaled then rowPieces (d.row 16) 192 else []

/-- The tile made of an operand's bytes; without scales every scale is 0x7F (R214). -/
def tileOf (bs : List Byte) : Tile where
  rows := .ofFn fun i => bytesAt bs (192 * i.val) 192
  scales := .ofFn fun i =>
    if bs.length ≤ 3072 then List.replicate 12 0x7f else bytesAt bs (3072 + 12 * i.val) 12

/-- The subcode with which an operand's descriptor is unfit, from 1 to 5; none for a tile (R215). -/
def State.operandBad (s : State) (c : Nat) (n : UReg) (adv : Bool) : Option Byte :=
  if n.toNat < 4 then none else (s.mxDesc c n).bad 192 adv true

/-- Some byte of a descriptor's operand fails R175 (R215 subcode 6). -/
def State.operandHole (s : State) (c : Nat) (n : UReg) : Bool := decide (4 ≤ n.toNat) && s.mxHole c (s.mxDesc c n).pieces

/-- The checks of the descriptors of an mma's or an xload's operands (R215): the subcodes 1 to 5 of both before subcode
6, A before B, with BASE as ADDR; the spec gives no order between two descriptors. Log entry 41, DEDUCED. -/
def State.operandsBad (s : State) (c : Nat) (ns : List (UReg × Bool)) : Option (Byte × DWord) :=
  (ns.findSome? fun n => (s.operandBad c n.1 n.2).map fun sub => (sub, (s.mxDesc c n.1).base)) <|>
    ns.findSome? fun n => if s.operandHole c n.1 then some (6#8, (s.mxDesc c n.1).base) else none

/-- An operand whose descriptor is fit: a tile, or a descriptor's bytes (R212, R222, R223).
Log entry 41, DEDUCED. -/
def State.operand (s : State) (c : Nat) (n : UReg) (f : State → Tile → State) : State :=
  if n.toNat < 4 then f s ((s.col c).seqr.x[n.toNat]?.getD {})
  else s.mxRead c 0x70 (s.mxDesc c n).base (s.mxDesc c n).pieces fun s1 bs => f s1 (tileOf bs)

/-! ## Values -/

/-- The format of index m, for the floating-point ones (R213). -/
def mxFmt : Nat → Option Fmt
  | 0 => some bf16 | 1 => some fp16 | 2 => some e4m3 | 3 => some e5m2 | 4 => some e3m2 | 5 => some e2m3
  | 7 => some e2m1 | _ => none
/-- The element bits of storage of index m (R213). -/
def mxBits (m : Nat) : Nat := if m < 2 then 16 else if m < 7 then 8 else 4
/-- K of index m (R213). -/
def mxK (m : Nat) : Nat := 1536 / mxBits m

/-- The code of element `k` of a row (R73, R213). -/
def mxCode (m : Nat) (row : List Byte) (k : Nat) : Nat :=
  match mxBits m with
  | 16 => natAt row (2 * k) 2
  | 8 => natAt row k 1
  | _ => natAt row (k / 2) 1 / 16 ^ (k % 2) % 16

/-- The value of a code of index m, with a codebook for CB4 (R74, R75, R213). -/
def mxValue (m : Nat) (cb : List Byte) (c : Nat) : Ex :=
  match mxFmt m with
  | some f => f.value (c % 2 ^ f.width)
  | none =>
    if m = 6 then .ofInt (sextNat 8 c)
    else if m = 8 then .ofInt (sextNat 4 c)
    else bf16.value (natAt cb (2 * c) 2)

/-- Element `k` of a row with its scale (R90, R93). -/
def mxScaled (m : Nat) (cb row scales : List Byte) (k : Nat) : Ex :=
  (mxValue m cb (mxCode m row k)).mul (e8m0 (scales.getD (k / 32) 0x7f))

/-- The scaled elements of a tile's row. -/
def Tile.values (t : Tile) (m : Nat) (cb : List Byte) (i : Nat) : List Ex :=
  (List.range (mxK m)).map (mxScaled m cb (t.rows[i]?.getD []) (t.scales[i]?.getD []))

/-- The exact terms that element (i, n) adds: the products, then the outliers of row i (R93, R225). -/
def mxTerms (ra rb : List Ex) (outl : List Outlier) (i : Nat) : List Ex :=
  List.zipWith Ex.mul ra rb ++
    (outl.filter fun o => o.row == i).map fun o =>
      (bf16.value o.value.toNat).mul (rb.getD o.k .zero)

/-- mma_element over exact terms (R93, R94). -/
def mmaElement (acc : Word) (terms : List Ex) : Word := rnd (.sum false (f32 acc :: terms))

/-- An accumulator after an mma whose exact terms are `t i n` (R223, R227). -/
def Accum.mma (a : Accum) (ck z : Bool) (t : Nat → Nat → List Ex) : Accum where
  rows := .ofFn fun i => .ofFn fun n => mmaElement (if z then 0 else a.at i n) (t i n)
  ckCol := if ck then .ofFn fun n => mmaElement (if z then 0 else a.ckCol[n.val])
      ((List.range 16).flatMap fun i => t i n) else a.ckCol
  ckRow := if ck then .ofFn fun i => mmaElement (if z then 0 else a.ckRow[i.val])
      ((List.range 16).flatMap fun n => t i n) else a.ckRow
  ckValid := ck && (z || a.ckValid)

/-- The armed flip of MX_INJECT, after an mma.ck on its accumulator (R230). Log entry 46, DEDUCED. -/
def Column.inject (x : Column) (c : BitVec 3) : Column :=
  if x.injArm ∧ x.injAcc = c.toNat then
    let a := x.seqr.acc c
    { x with
      injArm := false
      seqr := x.seqr.setAcc c
        (a.put x.injRow x.injCol (a.at x.injRow x.injCol ^^^ BitVec.ofNat 32 (2 ^ x.injBit))) }
  else x

/-- The codebook that a selection names, if it is loaded (R224). -/
def Sequencer.codebook (q : Sequencer) (sel : Option Nat) : Option (List Byte) :=
  sel.bind fun n => q.cb[n]?.getD none

/-- The state after an mma on whole operands (R223). -/
def State.mmaTiles (s : State) (c : Nat) (m : Nat) (ck z : Bool) (a : BitVec 3) (ta tb : Tile) : State :=
  let q := (s.col c).seqr
  let outl := if q.outTarget = some a.toNat then q.outliers else []
  let ra : Vector (List Ex) 16 := .ofFn fun i => ta.values m ((q.codebook q.cbA).getD []) i
  let rb : Vector (List Ex) 16 := .ofFn fun n => tb.values m ((q.codebook q.cbB).getD []) n
  let acc := (q.acc a).mma ck z fun i n => mxTerms (ra[i]?.getD []) (rb[n]?.getD []) outl i
  let s1 := s.updSeq c fun x =>
    let y := x.setAcc a acc
    if q.outTarget = some a.toNat then { y with outliers := [], outTarget := none } else y
  if ck then s1.updCol c fun x => x.inject a else s1

/-! ## The instructions -/

/-- mma (R223, R224, R225): an unusable codebook or an outlier beyond K changes nothing. Where several checks fail, the
spec gives no order of the causes: the codebooks come first, then the outliers, then the descriptors (log
entry 104, DESIGN CHOICE). Log entry 46, DEDUCED. -/
def execMma (f : BitVec 4) (ck z : Bool) (c : BitVec 3) (a b : BitVec 8) (advA advB : Bool) (s : State) :
    Host.Outcome State Fault Refusal :=
  s.seqWord fun col =>
    let q := (s.col col).seqr
    let m := f.toNat
    if m = 9 ∧ ((q.codebook q.cbA).isNone ∨ (q.codebook q.cbB).isNone) then s.seqTrap col 0x72 0 q.pc
    else if q.outTarget = some c.toNat ∧ q.outliers.any (fun o => decide (mxK m ≤ o.k)) then
      s.seqTrap col 0x73 0 q.pc
    else
      let both := a = b ∧ (advA ∨ advB)
      match s.operandsBad col [(a, advA || decide both), (b, advB || decide both)] with
      | some (sub, base) => s.seqTrap col 0x70 sub base
      | none => s.operand col a fun s1 ta =>
        s1.operand col b fun s2 tb =>
          let s3 := if advA then s2.advance col a else s2
          let s4 := if advB ∧ ¬ (advA ∧ a = b) then s3.advance col b else s3
          (s4.mmaTiles col m ck z c ta tb).seqDone col

/-- An outlier's word (R225). -/
def outlierOf (w : Word) : Outlier := ⟨w.extractLsb' 16 16, fieldNat w 15 12, fieldNat w 8 0⟩

/-- mmo (R225): every failed check, that of the pointer included, raises MX_OUTLIER, as R225's text says, although R239
lists R225 among the raisers of MX_DESC too. Log entry 45, DEDUCED. -/
def execMmo (c : BitVec 3) (a : BitVec 8) (s : State) : Host.Outcome State Fault Refusal :=
  s.seqWord fun col =>
    let p := s.ug (.seq col) a
    let w := s.ug (.seq col) (a + 1)
    let n := fieldNat w 6 0
    if ¬ scratchPtr p 4 ∨ 64 < n ∨ fieldNat w 63 7 ≠ 0 then s.seqTrap col 0x73 0 p
    else s.mxRead col 0x73 p ((List.range n).map fun i => (ptrAdd p (4 * i), 4)) fun s1 bs =>
      let ws := (List.range n).map fun i => wAt bs (4 * i)
      if ws.any fun x => fieldNat x 11 9 != 0 then s1.seqTrap col 0x73 0 p
      else (s1.updSeq col fun q => { q with
        outliers := ws.map outlierOf, outTarget := if n = 0 then none else some c.toNat }).seqDone col

/-- xload (R222). -/
def execXload (a b : BitVec 8) (adv : Bool) (s : State) : Host.Outcome State Fault Refusal :=
  s.seqWord fun col => match s.operandsBad col [(b, adv)] with
  | some (sub, base) => s.seqTrap col 0x70 sub base
  | none => s.operand col b fun s1 t =>
    ((if adv then s1.advance col b else s1).updSeq col fun q =>
      { q with x := q.x.setIfInBounds a.toNat t }).seqDone col

/-- xpop (R222): the rows taken leave their crews' counters (R221). -/
def execXpop (a : BitVec 8) (s : State) : Host.Outcome State Fault Refusal :=
  s.seqWord fun col =>
    let st := (s.col col).seqr.staging[a.toNat]?.getD {}
    if st.full ≠ 0xffff#16 then s.uPark (.seq col) .queue
    else
      let s1 := s.updSeq col fun q => { q with
        x := q.x.setIfInBounds a.toNat st.tile
        staging := q.staging.setIfInBounds a.toNat {} }
      (st.crews.foldl (fun acc cid => acc.dropRows cid 1) s1).seqDone col

/-- cbload (R224). -/
def execCbload (c : BitVec 3) (a : BitVec 8) (sa sb : Bool) (s : State) : Host.Outcome State Fault Refusal :=
  s.seqWord fun col =>
    let p := s.ug (.seq col) a
    if ¬ scratchPtr p 32 then s.seqTrap col 0x70 1 p
    else s.mxRead col 0x70 p (rowPieces p 32) fun s1 bs =>
      (s1.updSeq col fun q => { q with
        cb := q.cb.setIfInBounds c.toNat (some bs)
        cbA := if sa then some c.toNat else q.cbA
        cbB := if sb then some c.toNat else q.cbB }).seqDone col

/-- azero (R231). -/
def execAzero (c : BitVec 3) (s : State) : Host.Outcome State Fault Refusal :=
  s.seqWord fun col => (s.updSeq col fun q => q.setAcc c {}).seqDone col

/-- The accumulator that aload makes of 256 patterns: each checksum is a once-rounded exact sum (R231).
Log entry 42, DEDUCED. -/
def Accum.loaded (v : Nat → Nat → Word) : Accum where
  rows := .ofFn fun i => .ofFn fun n => v i n
  ckCol := .ofFn fun n => rnd (.sum false ((List.range 16).map fun i => f32 (v i n)))
  ckRow := .ofFn fun i => rnd (.sum false ((List.range 16).map fun n => f32 (v i n)))
  ckValid := true

/-- A BF16 value widened; a NaN becomes the canonical one (R80, R231). -/
def widenBf16 (x : Nat) : Word := if (bf16.value x).isNan then 0x7fc00000#32 else BitVec.ofNat 32 (x * 65536)

/-- aload (R231). -/
def execAload (c : BitVec 3) (a : BitVec 8) (bf adv : Bool) (s : State) : Host.Outcome State Fault Refusal :=
  s.seqWord fun col =>
    let d := s.mxDesc col a
    let row := if bf then 32 else 64
    match d.bad row adv false with
    | some sub => s.seqTrap col 0x70 sub d.base
    | none => s.mxRead col 0x70 d.base ((List.range 16).flatMap fun i => rowPieces (d.row i) row) fun s1 bs =>
      let v (i n : Nat) : Word :=
        if bf then widenBf16 (natAt bs (row * i + 2 * n) 2) else wAt bs (row * i + 4 * n)
      ((if adv then s1.advance col a else s1).updSeq col fun q => q.setAcc c (.loaded v)).seqDone col

/-- An element as BF16 (R232). -/
def toBf16 (w : Word) : Nat := bf16.round .rn (f32 w)
/-- The bytes of a row that a drain writes (R232). -/
def Accum.rowBytes (a : Accum) (bf : Bool) (i : Nat) : List Byte :=
  (List.range 16).flatMap fun n => if bf then toLe 2 (toBf16 (a.at i n)) else toLe 4 (a.at i n).toNat
/-- .clr of a drain (R232). -/
def Sequencer.clr (q : Sequencer) (on : Bool) (c : BitVec 3) : Sequencer := if on then q.setAcc c {} else q

/-- The pieces of a drain of an accumulator as the rows from `i0` of a descriptor (R232). -/
def MxDesc.drains (d : MxDesc) (a : Accum) (bf : Bool) (i0 : Nat) : List (DWord × List Byte) :=
  (List.range 16).flatMap fun i => rowWrites (d.row (i0 + i)) (a.rowBytes bf i)

/-- adrain (R232). -/
def execAdrain (c : BitVec 3) (a : BitVec 8) (bf clr : Bool) (s : State) : Host.Outcome State Fault Refusal :=
  s.seqWord fun col =>
    let d := s.mxDesc col a
    match d.bad (if bf then 32 else 64) false false with
    | some sub => s.seqTrap col 0x70 sub d.base
    | none => s.mxWrite col [(d.base, d.drains ((s.col col).seqr.acc c) bf 0)] fun s1 =>
      (s1.updSeq col fun q => q.clr clr c).seqDone col

/-- maxnorm of a quantisation format, times 2 (R92). -/
def maxnorm2 (f : BitVec 3) : Nat :=
  match f.toNat with
  | 0 => 896 | 1 => 114688 | 2 => 56 | 3 => 15 | 4 => 12 | 5 => 254 | _ => 14

/-- block_scale (R92): the E8M0 code for the largest magnitude. -/
def blockScale (f : BitVec 3) (amax : Ex) : Byte :=
  match amax with
  | .nan | .inf _ => 0xff
  | .fin _ 0 _ => 0x7f
  | .fin _ a b =>
    let n := 2 * a
    let d := b * maxnorm2 f
    let e := floorLog2 n d
    -- the smallest e with n / d ≤ 2 ^ e
    let e1 := if n * 2 ^ (-e).toNat = d * 2 ^ e.toNat then e else e + 1
    BitVec.ofInt 8 (max (-127) (min 127 e1) + 127)

/-- The largest magnitude of some values; NaN if one is NaN (R92). -/
def amaxOf (xs : List Ex) : Ex :=
  if xs.any Ex.isNan then .nan else xs.foldl (fun m x => if m.lt x.abs then x.abs else m) .zero

/-- A code of the transposed copy: narrowed with saturation, to nearest-even (R92, R233). -/
def qCode (f : BitVec 3) (x : Ex) : Nat :=
  match qntFmt f with
  | some fm => fm.narrow .rn true x
  | none =>
    let n := qntBits f
    (BitVec.ofInt n (narrowInt (-(2 ^ (n - 1) : Nat)) ((2 ^ (n - 1) : Nat) - 1) .rn x)).toNat

/-- A block of 32 values: its scale code, and its codes packed by R73 (R92, R233). -/
def qBlock (f : BitVec 3) (xs : List Ex) : Byte × List Byte :=
  let sc := blockScale f (amaxOf xs)
  let code (k : Nat) : Nat := qCode f (if sc = 0xff then .nan else (xs.getD k .zero).div (e8m0 sc))
  (sc, if qBits f = 8 then (List.range 32).map fun k => BitVec.ofNat 8 (code k)
    else (List.range 16).map fun k => BitVec.ofNat 8 (code (2 * k) + 16 * code (2 * k + 1)))

/-- The pieces of the transposed copy (R233). Where a small pitch lets a scale byte of one row fall into a later row,
the spec does not say which write comes last: the row does (log entry 104, DESIGN CHOICE). -/
def MxDesc.copies (d : MxDesc) (a0 a1 : Accum) : List (DWord × List Byte) :=
  (List.range 16).flatMap fun n =>
    let col (a : Accum) : List Ex := (List.range 16).map fun i => f32 (a.at i n)
    let (sc, bs) := qBlock d.qfmt (col a0 ++ col a1)
    let w := 4 * qBits d.qfmt
    rowWrites (d.row n) bs ++
      if d.scaled then
        [(ptrAdd d.base (16 * d.pitch + 12 * n + d.blk + (2 ^ 52 - d.blk * w)), [sc])] else []

/-- adrain.t (R233). -/
def execAdrainT (c : BitVec 3) (a b : BitVec 8) (bf clr : Bool) (s : State) :
    Host.Outcome State Fault Refusal :=
  s.seqWord fun col =>
    let d := s.mxDesc col a
    let e := s.mxDesc col b
    let q := (s.col col).seqr
    match d.bad (if bf then 32 else 64) false false, e.bad 32 false false with
    | some sub, _ => s.seqTrap col 0x70 sub d.base
    | none, some sub => s.seqTrap col 0x70 sub e.base
    | none, none =>
      if e.badCopy then s.seqTrap col 0x70 5 e.base
      else
      let a0 := q.acc c
      let a1 := q.acc (c + 1)
      s.mxWrite col [(d.base, d.drains a0 bf 0 ++ d.drains a1 bf 16), (e.base, e.copies a0 a1)] fun s1 =>
        (s1.updSeq col fun x => (x.clr clr c).clr clr (c + 1)).seqDone col

/-- Capacity of a drain queue in words (R208). -/
def drainCap : Nat := 1024
/-- The words of an accumulator that adrain.q pushes (R234). -/
def Accum.drainWords (a : Accum) (bf : Bool) : List Word :=
  if bf then (List.range 128).map fun j =>
    BitVec.ofNat 32 (toBf16 (a.at (j / 8) (2 * (j % 8))) + 65536 * toBf16 (a.at (j / 8) (2 * (j % 8) + 1)))
  else (List.range 256).map fun j => a.at (j / 16) (j % 16)

/-- adrain.q (R234). -/
def execAdrainQ (c : BitVec 3) (a : BitVec 8) (bf clr : Bool) (s : State) :
    Host.Outcome State Fault Refusal :=
  s.seqWord fun col =>
    let q := (s.col col).seqr
    let ws := (q.acc c).drainWords bf
    let old := q.drain[a.toNat]?.getD []
    if drainCap < old.length + ws.length then s.uPark (.seq col) .queue
    else (s.updSeq col fun x =>
      { x.clr clr c with drain := x.drain.setIfInBounds a.toNat (old ++ ws) }).seqDone col

/-- TOL of ack (R228). Log entry 42, DEDUCED. -/
def ackTol : BitVec 2 → Ex
  | 0#2 => .pow2 (-16) | 1#2 => .pow2 (-12) | 2#2 => .pow2 (-8) | _ => .zero

/-- The residue of a row or a column against its checksum, and whether it is flagged (R228).
Log entry 42, DEDUCED. -/
def residue (tol : Ex) (ck : Word) (xs : List Word) : Ex × Bool :=
  let rc := Ex.sum false (f32 ck :: xs.map fun x => (f32 x).negate)
  let sum := Ex.sum false ((f32 ck).abs :: xs.map fun x => (f32 x).abs)
  (rc, rc.isNan || (tol.mul sum).lt rc.abs)

/-- Column `n` of an accumulator. -/
def Accum.colOf (a : Accum) (n : Nat) : List Word := (List.range 16).map fun i => a.at i n
/-- Row `i` of an accumulator. -/
def Accum.rowOf (a : Accum) (i : Nat) : List Word := (List.range 16).map fun n => a.at i n

/-- One axis of ack: its flags, how many are flagged, the lowest one, its residue (R228). -/
def ackAxis (rs : List (Ex × Bool)) : Nat × Nat × Nat × Word :=
  let fl := (List.range 16).filter fun n => (rs.getD n (.zero, false)).2
  (fl.foldl (fun acc n => acc + 2 ^ n) 0, fl.length, fl.headD 0,
    match fl with | [] => 0 | n :: _ => rnd (rs.getD n (.zero, false)).1)

/-- The pair that ack writes (R228). -/
def Accum.ack (a : Accum) (tol : Ex) : DWord × DWord :=
  if ¬ a.ckValid then (0x300#64, 0)
  else
    let (cf, cn, c, cr) := ackAxis ((List.range 16).map fun n =>
      residue tol (a.ckCol[n]?.getD 0) (a.colOf n))
    let (rf, rn, r, rr) := ackAxis ((List.range 16).map fun i =>
      residue tol (a.ckRow[i]?.getD 0) (a.rowOf i))
    let st := if cn = 0 ∧ rn = 0 then 0 else if cn = 1 ∧ rn = 1 then 1 else 2
    (BitVec.ofNat 64 (cf * 2 ^ 26 + rf * 2 ^ 10 + st * 2 ^ 8 + c * 16 + r), (rr ++ cr : BitVec 64))

/-- ack (R228). -/
def execAck (c : BitVec 3) (a : BitVec 8) (tol : BitVec 2) (s : State) : Host.Outcome State Fault Refusal :=
  s.seqWord fun col =>
    let r := ((s.col col).seqr.acc c).ack (ackTol tol)
    ((s.setUg (.seq col) a r.1).setUg (.seq col) (a + 1) r.2).seqDone col

/-- afix (R229). -/
def execAfix (c : BitVec 3) (a : BitVec 8) (s : State) : Host.Outcome State Fault Refusal :=
  s.seqWord fun col =>
    let x := (s.col col).seqr.acc c
    let g := s.ug (.seq col) a
    let r := fieldNat g 3 0
    let n := fieldNat g 7 4
    if fieldNat g 9 8 = 1 ∧ x.ckValid then
      let v := rnd (.sum false (f32 (x.ckCol[n]?.getD 0) ::
        ((List.range 16).filter fun i => i != r).map fun i => (f32 (x.at i n)).negate))
      (s.updSeq col fun q => q.setAcc c (x.put r n v)).seqDone col
    else s.seqDone col

end Sys2Proof.Machine
end

