-- ==== Sys2Proof/Machine/Ropes.lean ====
section
/-!
DEFINITION. The rope (15 R393 to R399): rope.arrive and rope.status (09 R265, R266), its messages, decisions
and readmission.
-/

namespace Sys2Proof.Machine

/-- A rope. -/
def State.rope (s : State) (k : Nat) : Rope := s.ropes[k]?.getD {}
/-- A rope replaced. -/
def State.setRope (s : State) (k : Nat) (r : Rope) : State := { s with ropes := s.ropes.setIfInBounds k r }

/-- The rope has instants, and the card is in it (R393). -/
def Rope.defined (r : Rope) : Bool := r.num != 0 && bit r.mask r.self
/-- The card takes part (R393, R395). -/
def Rope.active (r : Rope) : Bool := r.defined && r.enable
/-- I_k of the rope (R394). -/
def Rope.instant (r : Rope) (k : Nat) : Nat := instantOf r.num.toNat r.den.toNat k
/-- The latest frame whose instant is at or before a time (R394). Log entry 26, DEDUCED. -/
def Rope.frameAt (r : Rope) (t : Nat) : Option Nat := instantAt r.num.toNat r.den.toNat t
/-- The members of the rope. -/
def Rope.members (r : Rope) : List Nat := (List.range 32).filter fun m => bit r.mask m
/-- The other members. -/
def Rope.others (r : Rope) : List Nat := r.members.filter fun m => m != r.self
/-- LAT_MAX_NS: of the other members (R393). -/
def Rope.latMax (r : Rope) : Nat := ((r.lats.filter fun l => r.others.contains l.1).map (·.2)).foldl max 0
/-- The guard (R394). -/
def Rope.guardNs (r : Rope) : Nat := max r.guard.toNat (2000 + r.latMax)
/-- The decision point of frame k (R394). -/
def Rope.point (r : Rope) (k : Nat) : Nat := r.instant k - 2000
/-- A time at or after the cut-off of frame k (R394). -/
def Rope.late (r : Rope) (k t : Nat) : Bool := decide (r.instant k ≤ t + r.guardNs)
/-- A member's expulsion stands at a time: it has no admission, or its admission's frame is to come (R395, R397). -/
def Expulsion.stands (r : Rope) (now : Nat) (e : Expulsion) : Bool :=
  e.back.all fun a => decide (now < r.instant a)
/-- The card is expelled, whenever that was, or it is rejoining and frame k precedes its admission (R395, R397).
Log entry 25, DEDUCED. -/
def Rope.selfOut (r : Rope) (now k : Nat) : Bool :=
  r.expelled.any fun e => e.member == r.self && e.stands r now && e.back.all fun a => decide (k < a)
/-- A member does not belong to the required set of frame k: it was expelled by its cut-off, and is not admitted
for it (R394). Log entry 25, DEDUCED. -/
def Rope.outOf (r : Rope) (k m : Nat) : Bool :=
  r.expelled.any fun e => e.member == m && e.holds k && decide (r.point (e.first - 1) + r.guardNs ≤ r.instant k)
/-- The required set of frame k (R394). -/
def Rope.required (r : Rope) (k : Nat) : List Nat := r.members.filter fun m => !r.outOf k m
/-- CONSEC of a member (R396). -/
def Rope.consecOf (r : Rope) (m : Nat) : Nat := ((r.consec.find? fun c => c.1 == m).map (·.2)).getD 0
/-- A frame is decided on this card. -/
def Rope.isDecided (r : Rope) (k : Nat) : Bool := r.decided.any fun d => d.k == k
/-- The frame has this instant (R395). -/
def Rope.frameOf (r : Rope) (t : Nat) : Option Nat := (r.frameAt t).filter fun k => r.instant k == t

/-- The frame to be decided next: the first from `next` on that is not decided (R396). Log entry 25, DEDUCED. -/
def Rope.due (r : Rope) : Nat :=
  (((List.range (r.decided.length + 1)).map (r.next + ·)).find? fun k => !r.isDecided k).getD r.next
/-- What carries the messages to a member (R393). The spec does not say how a card knows whether a member shares its
fabric: it does if a port reaches the card of the member's index (log entry 109, DESIGN CHOICE). -/
def State.carrier (s : State) (member : Nat) : Carrier :=
  if (s.portFor member).isSome then .link else .udp s.ptpSubport.toNat

/-! ## rope.arrive and rope.status -/

/-- The status of rope.arrive: the first check that holds (R395). Log entry 26, DEDUCED. -/
def State.arriveStatus (s : State) (r : Rope) (t : DWord) : Nat :=
  if ¬ r.active then 2
  else match r.frameOf (t64ToNs t) with
    | none => 5
    | some k =>
      if 16 * r.den.toNat * 1000000000 < (r.instant k - s.timeNs) * r.num.toNat then 5
      else if r.selfOut s.timeNs k then 3
      else if r.own.any (fun o => o.1 == k) then 4
      else if r.late k s.timeNs ∨ ¬ s.ptpLocked then 1
      else 0

/-- rope.arrive for one thread (R240, R242, R265, R395). -/
def ropeArriveThread (d a : Code) (b : BSrc) (r : Run) (s : State) (t : TRef) : ThrRes :=
  let e := s.env r t.cid
  let x := s.thread t
  let n := (e.readB x b).toNat
  let fin (s : State) (v : Nat) : State := s.updThread t fun y => y.write32 e d (BitVec.ofNat 32 v)
  if x.helper then .ok (fin (s.commitAt r t) 0)
  else if 3 < n then .trap s (r.trap 0x7c#8 1#8)
  else
    let rp := s.rope n
    let time := e.read64 x a
    let st := s.arriveStatus rp time
    let k := (rp.frameOf (t64ToNs time)).getD 0
    if st = 0 then s.handOver r t .stream fun s1 id =>
      fin { s1.setRope n { rp with
              own := (k, true, t.cid, id) :: rp.own, arrivals := (k, rp.self) :: rp.arrivals } with
            outbox := s1.outbox ++ [.arrival n k (((rp.required k).filter fun m => m != rp.self).map fun m =>
              (m, s.carrier m))] } 0
    else s.issue r t fun s1 =>
      .ok (fin (if st = 1 then s1.setRope n { rp with own := (k, false, 0, 0) :: rp.own } else s1) st)

/-- rope.arrive (R265). -/
def execRopeArrive (d a : Code) (b : BSrc) (s : State) : Host.Outcome State Fault Refusal :=
  s.lanes (thenPush (ropeArriveThread d a b))

/-- The members that have arrived for frame k, as a mask (R266). -/
def Rope.arrivedMask (r : Rope) (k : Nat) : Nat :=
  (r.members.filter fun m => r.arrivals.contains (k, m)).foldl (fun acc m => acc + 2 ^ m) 0

/-- STATE of rope.status (R266, R398). -/
def Rope.stateOf (r : Rope) (now k : Nat) : Nat :=
  let cur := (r.frameAt now).getD 0
  if cur + 16 < k ∨ k + 16 < cur then 3
  else if now < r.point k then 0
  else if r.outOf k r.self then 5
  else match r.decided.find? fun d => d.k == k with
    | none => 0
    | some d => if d.presented then 1 else 2

/-- The value of rope.status; none for a time that is no instant, of which the spec says nothing (R266,
R398). Log entry 26, DEDUCED. -/
def State.ropeStatus (s : State) (r : Rope) (t : DWord) : Option DWord :=
  let pack (arrived consec state : Nat) : DWord :=
    BitVec.ofNat 64 (arrived * 2 ^ 32 + min 255 consec * 2 ^ 16 + r.self * 2 ^ 8 + state)
  if ¬ r.active then some (pack 0 0 4)
  else (r.frameOf (t64ToNs t)).map fun k =>
    let consec := ((r.decided.find? fun d => decide (d.k ≤ k)).map (·.consec)).getD 0
    pack (r.arrivedMask k) consec (r.stateOf s.timeNs k)

/-- rope.status for one thread (R266). -/
def ropeStatusThread (d a : Code) (b : BSrc) (r : Run) (s : State) (t : TRef) : ThrRes :=
  let e := s.env r t.cid
  let x := s.thread t
  let n := (e.readB x b).toNat
  let land (s : State) (v : DWord) : ThrRes :=
    .ok (s.updThread t fun y => y.writeLong e d 2 (.words (pairWords v)))
  if x.helper then land s 0
  else if 3 < n then .trap s (r.trap 0x7c#8 1#8)
  else match s.ropeStatus (s.rope n) (e.read64 x a) with
    | some v => land s v
    | none => land { s with freeCtr := s.freeCtr + 1 } (Config.freeDWord 8 s.freeCtr)

/-- rope.status (R266). -/
def execRopeStatus (d a : Code) (b : BSrc) (s : State) : Host.Outcome State Fault Refusal :=
  s.lanes (ropeStatusThread d a b)

/-! ## Messages, decisions, readmission -/

/-- An arrival of an expelled member for frame k shows that it is admitted, from that frame or an earlier one
(R397). Log entry 25, DEDUCED. -/
def Expulsion.seen (member k : Nat) (e : Expulsion) : Expulsion :=
  if e.member = member ∧ e.first ≤ k then { e with back := some (e.back.elim k (min k)) } else e
/-- A member that was expelled comes back: its CONSEC starts at 0 (R397). -/
def Rope.resetConsec (r : Rope) (m : Nat) : Rope := { r with consec := (m, 0) :: r.consec.filter fun c => c.1 != m }
/-- Another member's arrival for frame k. -/
def Rope.noteArrived (r : Rope) (member k : Nat) : Rope :=
  let again := r.expelled.any fun e => e.member == member && decide (e.first ≤ k) && e.back.isNone
  let r1 := if again then r.resetConsec member else r
  { r1 with arrivals := (k, member) :: r.arrivals, expelled := r.expelled.map (Expulsion.seen member k) }

/-- ROPE_ARRIVAL_MESSAGE (R394, R396): a message by the decision point counts; a later one changes nothing.
Log entry 25, DEDUCED. -/
def execRopeArrivalMessage (rope member k : Nat) (s : State) : Host.Outcome State Fault Refusal :=
  let r := s.rope rope
  .next (if r.active ∧ r.others.contains member ∧ ¬ r.isDecided k ∧ s.timeNs ≤ r.point k then
      s.setRope rope (r.noteArrived member k)
    else s)

/-- The state of a rope after it decides frame k (R396). -/
def Rope.decide_ (r : Rope) (k : Nat) : Rope :=
  let req := r.required k
  let came (m : Nat) : Bool := r.arrivals.contains (k, m)
  let ok := req.all came
  let count (m : Nat) : Nat := if came m then 0 else if ok then r.consecOf m else r.consecOf m + 1
  let consec := (req.map fun m => (m, count m)) ++ r.consec.filter fun c => !req.contains c.1
  let out := req.filter fun m => count m == 3
  { r with
    subst := if ok ∨ r.subst = 0xffffffff then r.subst else r.subst + 1
    consec := consec
    expelled := (out.map fun m => { member := m, first := k + 1 }) ++ r.expelled
    next := k + 1
    decided := ⟨k, ok, ((consec.find? fun c => c.1 == r.self).map (·.2)).getD 0⟩ :: r.decided }

/-- ROPE_DECISION (R396): at the decision point of frame k, the frames being decided in turn; the crews' operations for
the frame complete (R242). Log entry 25, DEDUCED. -/
def execRopeDecision (rope k : Nat) (s : State) : Host.Outcome State Fault Refusal :=
  let r := s.rope rope
  .next (if r.active ∧ r.point k ≤ s.timeNs ∧ k = r.due then
      let mine := r.own.filter fun o => o.1 == k && o.2.1
      mine.foldl (fun acc o => acc.completeOp o.2.2.1 o.2.2.2) (s.setRope rope (r.decide_ k))
    else s)

/-- ROPE_HEARTBEAT (R393): a latency measured to another member; the last 16 of each are kept. -/
def execRopeHeartbeat (rope member lat : Nat) (s : State) : Host.Outcome State Fault Refusal :=
  let r := s.rope rope
  let same := (r.lats.filter fun l => l.1 == member).take 15
  .next (if r.active ∧ r.others.contains member then s.setRope rope { r with
      lats := (member, lat) :: same ++ r.lats.filter fun l => l.1 != member } else s)

/-- The heartbeats that the card sends to the other members of its ropes, one every 1,000,000 ns (R393), when its
clock has moved from a time. Log entry 25, DEDUCED. -/
def State.sendBeats (s : State) (old : Nat) : State :=
  let beats : List Sent := ((List.range 4).filter fun k => (s.rope k).active).map fun k =>
    .heartbeat k ((s.rope k).others.map fun m => (m, s.carrier m))
  if beats = [] then s
  else { s with outbox := s.outbox ++
    (List.replicate (s.timeNs / 1000000 - old / 1000000) beats).flatMap id }

/-- This card's own expulsion gets an admission. -/
def Expulsion.readmit (self k : Nat) (e : Expulsion) : Expulsion :=
  if e.member = self ∧ e.back.isNone then { e with back := some k } else e

/-- REJOIN (R397): an expelled card is admitted from the second instant after the write. Log entry 25, DEDUCED. -/
def State.rejoin (s : State) (k : Nat) : State :=
  let r := s.rope k
  match r.frameAt s.timeNs with
  | none => s
  | some j =>
    if r.expelled.any (fun e => e.member == r.self && e.back.isNone) then
      s.setRope k { r.resetConsec r.self with expelled := r.expelled.map (Expulsion.readmit r.self (j + 2)) }
    else s

/-- REJOIN (R397): a port's write. Log entry 25, DEDUCED. -/
def execRejoin (k : ByPort Nat) (s : State) : Host.Outcome State Fault Refusal :=
  s.hostWrite k.port fun s1 => s1.rejoin k.val

/-- ROPE_RATE changes the instants: what the rope holds of frames of the old ones is dropped, a member that is cut
stays cut (R393, R394). Log entry 25, DEDUCED. -/
def Rope.putRate (r : Rope) (now : Nat) (num den : Word) : Rope :=
  if r.num = num ∧ r.den = den then r
  else { r with
    num := num, den := den, arrivals := [], own := [], decided := [], next := 0
    expelled := (r.expelled.filter fun e => e.stands r now).map fun e => { e with first := 0, back := none } }

end Sys2Proof.Machine
end

