-- ==== Sys2Proof/Machine/Transfer.lean ====
section
/-!
DEFINITION. The transfer engine (09 R245 to R252): the issue of the xe instructions, the elements of a
command, channels and their records, codebook slots.
-/

namespace Sys2Proof.Machine

/-! ## Descriptors -/

/-- The fields of a transfer descriptor (R246). -/
def XeDesc.parse (bs : List Byte) : XeDesc :=
  { src := dwAt bs 0, dst := dwAt bs 8, aux := dwAt bs 16, chanAt := dwAt bs 24
    ext := (List.range 5).map fun i => natAt bs (32 + 4 * i) 4
    spitch := 0 :: (List.range 4).map fun i => natAt bs (52 + 4 * i) 4
    dpitch := 0 :: (List.range 4).map fun i => natAt bs (68 + 4 * i) 4
    ctl := wAt bs 84, pad := wAt bs 88, resv := nonzeroAt bs 92 4 }

/-- ESIZE, DIMS, CHANNEL and LUT (R246). -/
def XeDesc.esize (d : XeDesc) : Nat := fieldNat d.ctl 2 0
def XeDesc.dims (d : XeDesc) : Nat := fieldNat d.ctl 6 4
def XeDesc.chan (d : XeDesc) : Nat := fieldNat d.ctl 10 8
def XeDesc.lut (d : XeDesc) : Nat := fieldNat d.ctl 12 11
/-- An extent. -/
def XeDesc.e (d : XeDesc) (k : Nat) : Nat := d.ext.getD k 1
/-- The number of elements (R247). -/
def XeDesc.count (d : XeDesc) : Nat := d.ext.foldl (· * ·) 1
/-- The output element size, VLEN in xe.cbx (R247). Log entry 23, DEDUCED. -/
def XeDesc.eo (d : XeDesc) (kind : XeKind) (vlen : Nat) : Nat := if kind = .cbx then vlen else 2 ^ d.esize

/-- The indices of the n-th element, dimension 0 first (R248). Log entry 22, DEDUCED. -/
def idxOf : List Nat → Nat → List Nat
  | [], _ => []
  | e :: es, n => n % e :: idxOf es (n / e)

/-- An offset of indices under pitches. -/
def dotNat (is ps : List Nat) : Nat := ((is.zip ps).map fun x => x.1 * x.2).foldl (· + ·) 0

/-- dst(i), from the first byte (R247). -/
def XeDesc.dstOff (d : XeDesc) (eo : Nat) (i : List Nat) : Nat := i.headD 0 * eo + dotNat i d.dpitch
/-- The bytes from DST to the end of the last element (R251). Log entry 23, DEDUCED. -/
def XeDesc.reach (d : XeDesc) (eo : Nat) : Nat :=
  if d.count = 0 then 0 else d.dstOff eo (d.ext.map (· - 1)) + eo

/-- The range of DIMS of a command (R251). -/
def XeKind.dimsOk (k : XeKind) (n : Nat) : Bool :=
  match k with
  | .ragged | .gather => n == 2
  | .btab => decide (2 ≤ n ∧ n ≤ 5)
  | _ => decide (1 ≤ n ∧ n ≤ 5)

/-! ## The checks at issue -/

/-- A trap at issue: cause, subcode, TRAP_ADDR. -/
abbrev IssueErr := Byte × Byte × Option DWord

/-- The first check that fails, if any. -/
def firstErr (cs : List (Bool × IssueErr)) : Option IssueErr := (cs.find? (·.1)).map (·.2)

/-- Subcode 2 of XE_DESC (R251). -/
def XeDesc.bad2 (d : XeDesc) (k : XeKind) : Bool :=
  decide (4 < d.esize) || !k.dimsOk d.dims || fieldNat d.ctl 31 13 != 0 || bit d.ctl 7 || bit d.ctl 3 ||
    d.resv || (d.aux != 0 && (k == .copy || k == .cbx))
/-- Subcode 3. -/
def XeDesc.bad3 (d : XeDesc) (eo : Nat) : Bool :=
  ((List.range 5).any fun k => decide (d.dims ≤ k) && d.e k != 1) || decide (2 ^ 32 ≤ d.count * eo)
/-- Subcode 4. -/
def XeDesc.bad4 (d : XeDesc) : Bool :=
  d.chanAt != 0 && (ptrOff d.chanAt % 16 != 0 || (ptrSpace d.chanAt != 1 && ptrSpace d.chanAt != 2))
/-- Subcode 5. -/
def XeDesc.bad5 (d : XeDesc) (k : XeKind) : Bool :=
  if k = .cbx then d.esize != 0 || d.e 0 % 2 != 0 else d.lut != 0

/-- A codebook slot of a workgroup. -/
def State.lutSlot (s : State) (wid n : Nat) : LutSlot := ((s.xeOf wid).luts[n]?).getD {}
/-- An xe.lut of the workgroup has loaded the slot, or is loading it (R251, R252). -/
def LutSlot.live (l : LutSlot) : Bool := !l.loads.isEmpty || l.table.isSome
/-- VLEN of the table that an xe.cbx issued now uses (R252). Log entry 23, DEDUCED. -/
def LutSlot.vlenNow (l : LutSlot) : Nat :=
  match l.loads.getLast? with
  | some x => x.vlen
  | none => l.vlen

/-- The checks of R251 after the descriptor is read, in order; `tb` is the barrier that b names.
Log entry 23, DEDUCED. -/
def State.xeErr (s : State) (wid : Nat) (k : XeKind) (dp : DWord) (d : XeDesc) (tb : Option DWord) :
    Option IssueErr :=
  let slot := s.lutSlot wid d.lut
  let eo := d.eo k slot.vlenNow
  let hole (p : DWord) (n : Nat) : Option DWord := s.scratchHole (s.whoWg wid) p n
  let dstHole := hole d.dst (d.reach eo)
  let chanHole := if d.chanAt = 0 then none else hole d.chanAt 16
  let desc (sub : Byte) : IssueErr := (0x75#8, sub, some dp)
  firstErr [
    (d.bad2 k, desc 2), (d.bad3 eo, desc 3), (d.bad4, desc 4), (d.bad5 k, desc 5),
    (dstHole.isSome, (0x42#8, 0#8, dstHole)), (chanHole.isSome, (0x42#8, 0#8, chanHole)),
    (decide (k = .cbx) && !slot.live, (0x76#8, BitVec.ofNat 8 d.lut, some dp)),
    (tb.any fun p => ptrOff p % 16 != 0 || (ptrSpace p != 1 && ptrSpace p != 2), (0x93#8, 2#8, tb)),
    (tb.any fun p => (hole p 16).isSome, (0x42#8, 0#8, tb.bind fun p => hole p 16))]

/-- A producer crew, or the crew of a task (R245). -/
def State.mayTransfer (s : State) (cid : Nat) : Bool := (s.crew cid).producer || (s.wg (s.crew cid).wid).task

/-! ## Issue -/

/-- A channel of a workgroup. -/
def State.chan (s : State) (wid c : Nat) : Channel := ((s.xeOf wid).chans[c]?).getD {}
/-- A channel updated. -/
def State.updChan (s : State) (wid c : Nat) (f : Channel → Channel) : State :=
  s.updXe wid fun x => { x with chans := x.chans.setIfInBounds c (f (x.chans[c]?.getD {})) }
/-- A slot updated. -/
def State.updLut (s : State) (wid n : Nat) (f : LutSlot → LutSlot) : State :=
  s.updXe wid fun x => { x with luts := x.luts.setIfInBounds n (f (x.luts[n]?.getD {})) }

/-- A command accepted on its channel: the next sequence number, WPTR at its end (R248, R252). The first number of a
channel is 1, by the reset value of its count. Log entry 111, DESIGN CHOICE. -/
def State.acceptXe (s : State) (wid cid id : Nat) (k : XeKind) (d : XeDesc) (tb : Option DWord) : State :=
  let ch := s.chan wid d.chan
  let slot := s.lutSlot wid d.lut
  let wend := ch.wend + d.count * d.eo k slot.vlenNow
  let cmd : XeCmd := {
    id := id, cid := cid, kind := k, desc := d, tb := tb, table := slot.table.getD []
    vlen := slot.vlenNow, wend := wend, seq := ch.seq + 1
    lut := if k = .cbx then slot.loads.getLast?.map (·.id) else none }
  let n := ((s.crew cid).xeSeq[d.chan]?.getD 0) + 1
  (s.updChan wid d.chan fun c => { c with
    wend := wend, seq := ch.seq + 1, cmds := c.cmds ++ [cmd]
    accepted := (cid, n, BitVec.ofNat 32 wend) :: c.accepted }).updCrew cid fun c =>
      { c with xeSeq := c.xeSeq.setIfInBounds d.chan n }

/-- What a command accepted before a resume wrote to d (R244). -/
def State.acceptedXe (s : State) (wid cid ch : Nat) : Option Word :=
  let n := ((s.crew cid).xeSeq[ch]?.getD 0) + 1
  ((s.chan wid ch).accepted.find? fun a => a.1 == cid && a.2.1 == n).map (·.2.2)

/-- An xe command but xe.lut, for one thread (R240, R241, R244, R251). Log entry 39, DEDUCED. -/
def xeThread (k : XeKind) (d a : Code) (b : BSrc) (r : Run) (s : State) (t : TRef) : ThrRes :=
  let e := s.env r t.cid
  let x := s.thread t
  let wid := (s.crew t.cid).wid
  let dp := e.read64 x a
  let tb := if b = .code 120#7 then none else some (e.readB64 x b)
  let fin (s : State) (v : Word) : State := s.updThread t fun y => y.write32 e d v
  if x.helper then .ok (fin (s.commitAt r t) 0)
  else if ¬ s.mayTransfer t.cid then .trap s (r.trap 0x74#8 0#8)
  else if ¬ ptrOk dp 32 then .trap s (r.trap 0x75#8 1#8 (some dp))
  else match s.issueRead r t dp 96 with
    | .error res => res
    | .ok (s1, bs) =>
      let desc := XeDesc.parse bs
      match s1.xeErr wid k dp desc tb with
      | some (c, sub, addr) => .trap s (r.trap c sub addr)
      | none => match s1.acceptedXe wid t.cid desc.chan with
        | some v => s.issue r t fun s2 => .ok (fin (s2.updCrew t.cid fun c => { c with
            xeSeq := c.xeSeq.setIfInBounds desc.chan ((c.xeSeq[desc.chan]?.getD 0) + 1) }) v)
        | none => s.handOver r t .transfer fun s2 id =>
            let s3 := s2.acceptXe wid t.cid id k desc tb
            fin s3 (BitVec.ofNat 32 (s3.chan wid desc.chan).wend)

/-- An xe command for the threads of a run. -/
def State.xe_ (s : State) (k : XeKind) (d a : Code) (b : BSrc) : Host.Outcome State Fault Refusal :=
  s.lanes (thenPush (xeThread k d a b))

/-- xe.copy (R247). -/
def execXeCopy (d a : Code) (b : BSrc) (s : State) : Host.Outcome State Fault Refusal := s.xe_ .copy d a b
/-- xe.ragged (R247). -/
def execXeRagged (d a : Code) (b : BSrc) (s : State) : Host.Outcome State Fault Refusal := s.xe_ .ragged d a b
/-- xe.btab (R247). -/
def execXeBtab (d a : Code) (b : BSrc) (s : State) : Host.Outcome State Fault Refusal := s.xe_ .btab d a b
/-- xe.gather (R247). -/
def execXeGather (d a : Code) (b : BSrc) (s : State) : Host.Outcome State Fault Refusal := s.xe_ .gather d a b
/-- xe.cbx (R247, R252). -/
def execXeCbx (d a : Code) (b : BSrc) (s : State) : Host.Outcome State Fault Refusal := s.xe_ .cbx d a b
/-- xe.fill (R247). -/
def execXeFill (d a : Code) (b : BSrc) (s : State) : Host.Outcome State Fault Refusal := s.xe_ .fill d a b

/-- The checks of xe.lut, in order (R252). -/
def State.lutErr (s : State) (wid : Nat) (p : DWord) (ctl : Word) : Option IssueErr :=
  let logv := fieldNat ctl 6 4
  let vlen := 2 ^ logv
  let hole := s.scratchHole (s.whoWg wid) p (16 * vlen)
  firstErr [
    (fieldNat ctl 31 7 != 0 || fieldNat ctl 3 2 != 0 || logv == 0 || decide (5 < logv), (0x75#8, 6#8, some p)),
    (!ptrOk p vlen, (0x75#8, 7#8, some p)),
    (hole.isSome, (0x42#8, 0#8, hole))]

/-- xe.lut for one thread (R252). -/
def lutThread (a : Code) (b : BSrc) (r : Run) (s : State) (t : TRef) : ThrRes :=
  let e := s.env r t.cid
  let x := s.thread t
  let wid := (s.crew t.cid).wid
  let p := e.read64 x a
  let ctl := e.readB x b
  if x.helper then .ok ((s.commitAt r t).updThread t fun y => y.writeNone e)
  else if ¬ s.mayTransfer t.cid then .trap s (r.trap 0x74#8 0#8)
  else match s.lutErr wid p ctl with
    | some (c, sub, addr) => .trap s (r.trap c sub addr)
    | none => s.handOver r t .transfer fun s1 id =>
        (s1.updLut wid (fieldNat ctl 1 0) fun l =>
          { l with loads := l.loads ++ [⟨id, t.cid, p, 2 ^ fieldNat ctl 6 4⟩] }).updThread t fun y =>
            y.writeNone e

/-- xe.lut (R252). -/
def execXeLut (a : Code) (b : BSrc) (s : State) : Host.Outcome State Fault Refusal :=
  s.lanes (lutThread a b)

/-! ## The work of a command -/

/-- The bytes of a repeated pattern. -/
def patBytes (pat : List Byte) (n : Nat) : List Byte := (List.range n).map fun j => pat.getD (j % pat.length) 0

/-- A source read when the element does not come from padding. -/
def State.xeFetch (s : State) (wid : Nat) (c : XeCmd) (src : Option DWord) : EngOut :=
  match src with
  | none => .ok s (patBytes (toLe 4 c.desc.pad.toNat) (2 ^ c.desc.esize))
  | some p => s.engRead wid p (2 ^ c.desc.esize)

/-- A number read from AUX (R247). -/
def State.xeAux (s : State) (wid : Nat) (p : DWord) (n : Nat) (f : State → Nat → EngOut) : EngOut :=
  match s.engRead wid p n with
  | .ok s1 bs => f s1 (leNat bs)
  | o => o

/-- The bytes of the element of some indices (R247). -/
def State.xeElem (s : State) (wid : Nat) (c : XeCmd) (i : List Nat) : EngOut :=
  let d := c.desc
  let size := 2 ^ d.esize
  let i0 := i.headD 0
  let i1 := i.getD 1 0
  match c.kind with
  | .copy => s.xeFetch wid c (some (ptrAdd d.src (i0 * size + dotNat i d.spitch)))
  | .cbx =>
    match s.engRead wid (ptrAdd d.src (i0 / 2 + dotNat i d.spitch)) 1 with
    | .ok s1 bs => .ok s1 (bytesAt c.table (leNat bs / 16 ^ (i0 % 2) % 16 * c.vlen) c.vlen)
    | o => o
  | .ragged =>
    s.xeAux wid (ptrAdd d.aux (4 * i1)) 4 fun s1 o =>
      s1.xeAux wid (ptrAdd d.aux (4 * i1 + 4)) 4 fun s2 o1 =>
        s2.xeFetch wid c (if i0 < o1 - o then some (ptrAdd d.src ((o + i0) * size)) else none)
  | .btab =>
    let t := d.dims - 1
    s.xeAux wid (ptrAdd d.aux (8 * i.getD t 0)) 8 fun s1 base =>
      s1.xeFetch wid c (if base = 0 then none
        else some (ptrAdd (BitVec.ofNat 64 base) (i0 * size + dotNat (i.take t) (d.spitch.take t))))
  | .gather =>
    s.xeAux wid (ptrAdd d.aux (4 * i1)) 4 fun s1 x =>
      s1.xeFetch wid c (if x = 0xffffffff then none
        else some (ptrAdd d.src (x * d.spitch.getD 1 0 + i0 * size)))
  | .fill => .ok s (patBytes (toLe 8 d.aux.toNat) size)

/-- The size of the command's output elements. -/
def XeCmd.eo (c : XeCmd) : Nat := c.desc.eo c.kind c.vlen
/-- Where the n-th element goes. -/
def XeCmd.dstAt (c : XeCmd) (n : Nat) : DWord := ptrAdd c.desc.dst (c.desc.dstOff c.eo (idxOf c.desc.ext n))
/-- The sectors of the n-th element. -/
def XeCmd.sectorsOf (c : XeCmd) (n : Nat) : List Nat :=
  ((List.range c.eo).map fun j => (ptrAdd (c.dstAt n) j).toNat / 16).eraseDups
/-- The distinct sectors of the destination from the n-th element on (R249). -/
def XeCmd.sectorsFrom (c : XeCmd) (n : Nat) : List Nat :=
  ((List.range (c.desc.count - n)).flatMap fun j => c.sectorsOf (n + j)).eraseDups

/-- What a command writes beside its data: its barrier, where sectors are to be posted, and its channel record (R248,
R249), but for one whose page has failed for good. -/
def XeCmd.sides (c : XeCmd) (posts : Bool) : List DWord :=
  ((if posts then c.tb.toList else []) ++ if c.desc.chanAt = 0 then [] else [c.desc.chanAt]).filter
    fun p => !c.lost.contains p

/-- Whether such objects of 16 bytes can be written now (R250, R362, 14 R368). One that R175 excludes since its issue is
written no more. Log entry 22, DEDUCED. -/
def sidesCan (wid : Nat) : List DWord → State → EngOut
  | [], s => .ok s []
  | p :: ps, s => match s.check (s.whoWg wid) p 16 permW false with
    | .error _ => sidesCan wid ps s
    | .ok d =>
      if s.engWriteFails wid p then .fail s 0x44#8 5#8
      else if s.poolDown d then .wait (s.wakePool d)
      else match s.locate d true with
        | .pageFault k ia _ => .fault s k ia p
        | .at s1 _ => sidesCan wid ps s1

/-- One of them written, by what `f` does at its key. -/
def State.putSide (s : State) (wid : Nat) (c : XeCmd) (p : DWord) (f : State → Nat → State) : State :=
  match s.check (s.whoWg wid) p 16 permW false with
  | .error _ => s
  | .ok d =>
    if s.engWriteFails wid p ∨ c.lost.contains p then s
    else match s.locate d true with
      | .pageFault .. => s
      | .at s1 k => f s1 k

/-- Sector completions posted on a command's barrier (R197, R249). -/
def State.postSectors (s : State) (wid : Nat) (c : XeCmd) (n : Nat) : State :=
  match c.tb with
  | none => s
  | some p => if n = 0 then s else s.putSide wid c p fun s1 k =>
      (s1.noteTb k).setTb k ((s1.tb k).post (-(n : Int)))

/-- Bytes written to a command's channel record, if it has one (R248). -/
def State.putChan (s : State) (wid : Nat) (c : XeCmd) (bs : List Byte) : State :=
  if c.desc.chanAt = 0 then s else s.putSide wid c c.desc.chanAt fun s1 k => s1.put k bs

/-- A command updated on its channel. -/
def State.updCmd (s : State) (wid ch id : Nat) (f : XeCmd → XeCmd) : State :=
  s.updChan wid ch fun c => { c with cmds := c.cmds.map fun x => if x.id == id then f x else x }

/-- WPTR of the prefix written, and bits [63:0] of the channel record (R248). -/
def State.stepWptr (s : State) (wid ch : Nat) (c : XeCmd) (pos : Nat) : State :=
  let w := c.wend - (c.desc.count - pos) * c.eo
  (s.updChan wid ch fun x => { x with wptr := w }).putChan wid c (toLe 8 w)

/-- Elements written in order until a sector of the destination is complete (R247 to R250): at most `n`
elements from `pos` on, while what each of them posts and records can be written. Log entry 22, DEDUCED. -/
def xeRun (wid ch : Nat) (c : XeCmd) : Nat → Nat → State → State
  | 0, _, s => s
  | n + 1, pos, s =>
    let later := c.sectorsFrom (pos + 1)
    let full := (c.sectorsOf pos).filter fun x => !later.contains x
    let stop (s1 : State) (cause step : Byte) : State :=
      s1.updCmd wid ch c.id fun x => { x with failed := some (cause, step) }
    match sidesCan wid (c.sides !full.isEmpty) s with
    | .wait s1 => s1
    | .fail s1 cause step => stop s1 cause step
    | .fault s1 k ia ea => s1.engFault c.id wid k ia ea 2#8
    | .ok s0 _ => match s0.xeElem wid c (idxOf c.desc.ext pos) with
    | .wait s1 => s1
    | .fail s1 cause step => stop s1 cause step
    | .fault s1 k ia ea => s1.engFault c.id wid k ia ea 1#8
    | .ok s1 bs => match s1.engWrite wid (c.dstAt pos) bs with
      | .wait s2 => s2
      | .fail s2 cause step => stop s2 cause step
      | .fault s2 k ia ea => s2.engFault c.id wid k ia ea 2#8
      | .ok s2 _ =>
        let s3 := ((((s2.engPast c.id).updCmd wid ch c.id fun x =>
          { x with pos := pos + 1, posted := x.posted ++ full }).stepWptr wid ch c (pos + 1)).postSectors wid c
            full.length)
        if full.isEmpty then xeRun wid ch c n (pos + 1) s3 else s3

/-- An access of a command whose page has failed for good stops the command; where it is the barrier or the channel
record, that object is written no more (R250, R353, R354). Log entry 24, DEDUCED. -/
def State.xeLost (s : State) (wid ch : Nat) (c : XeCmd) (cause : Byte) : State :=
  let lost := ((s.eng c.id).refaults.head?.map (·.1)).toList.filter (c.sides true).contains
  (s.engQuit c.id).updCmd wid ch c.id fun x => { x with
    failed := some (x.failed.getD (cause, pageStep)), lost := x.lost ++ lost }

/-- TRANSFER_SECTOR_WRITE (R247 to R250): the oldest command of a channel writes on; one whose table could not be read
fails with CAUSE 0x76 (R252). Log entry 22, DEDUCED. Log entry 24, DEDUCED. -/
def execTransferSectorWrite (wid ch : Nat) (s : State) : Host.Outcome State Fault Refusal :=
  .next (match (s.chan wid ch).cmds with
    | [] => s
    | c :: _ =>
      if ¬ s.engFree c.id ∨ c.failed.isSome ∨ c.lut.isSome ∨ c.desc.count ≤ c.pos then s
      else match (s.eng c.id).failed with
        | some cause => s.xeLost wid ch c cause
        | none =>
          if c.tableBad then s.updCmd wid ch c.id fun x => { x with failed := some (0x76#8, 0#8) }
          else xeRun wid ch c (c.desc.count - c.pos) c.pos s)

/-- The 16 bytes of a channel record at a command's end (R248). -/
def chanRecord (c : XeCmd) : List Byte :=
  let (cause, step) := c.failed.getD (0, 0)
  toLe 8 c.wend ++ [0, 0, cause, step] ++ toLe 4 c.seq

/-- The sectors of a command that are still to be posted. -/
def XeCmd.unposted (c : XeCmd) : List Nat := (c.sectorsFrom 0).filter fun x => !c.posted.contains x

/-- The end of a command: the remaining sectors posted, the record written, the operation complete (R242, R250). -/
def State.endXe (s : State) (wid ch : Nat) (c : XeCmd) (cs : List XeCmd) : State :=
  let s1 := (s.postSectors wid c c.unposted.length).putChan wid c (chanRecord c)
  ((s1.updChan wid ch fun x => { x with wptr := c.wend, cmds := cs }).completeOp c.cid c.id).dropEng c.id

/-- TRANSFER_COMPLETION (R250): every byte written or a failure. A barrier that sectors are still to be posted on, or a
record, that cannot be written yet keeps the command waiting; one whose own page has failed for good is written no
more (R353). An empty command has no sectors to post (R247). -/
def execTransferCompletion (wid ch : Nat) (s : State) : Host.Outcome State Fault Refusal :=
  .next (match (s.chan wid ch).cmds with
    | [] => s
    | c :: cs =>
      if c.lut.isSome ∨ ¬ s.engFree c.id ∨ (c.failed.isNone ∧ c.pos < c.desc.count) then s
      else match (s.eng c.id).failed with
        | some cause => s.xeLost wid ch c cause
        | none => match sidesCan wid (c.sides !c.unposted.isEmpty) s with
          | .wait s1 => s1
          | .fault s1 k ia ea => s1.engFault c.id wid k ia ea 2#8
          | .fail .. | .ok .. => s.endXe wid ch c cs)

/-- A command that waits for a table gets it, or learns that there is none (R252). -/
def XeCmd.give (id : Nat) (table : Option (List Byte)) (c : XeCmd) : XeCmd :=
  if c.lut = some id then { c with lut := none, table := table.getD [], tableBad := table.isNone } else c

/-- Every command of a workgroup that waits for a table. -/
def State.giveTable (s : State) (wid id : Nat) (table : Option (List Byte)) : State :=
  let give (c : Channel) : Channel := { c with cmds := c.cmds.map (XeCmd.give id table) }
  s.updXe wid fun x => { x with chans := x.chans.map give }

/-- XE_LUT_HELD (R252): the oldest load of a slot ends, with the table or without. -/
def execXeLutHeld (wid slot : Nat) (s : State) : Host.Outcome State Fault Refusal :=
  .next (match (s.lutSlot wid slot).loads with
    | [] => s
    | l :: ls =>
      let fin (s : State) (table : Option (List Byte)) : State :=
        (((s.updLut wid slot fun x => { x with loads := ls, table := table, vlen := l.vlen }).giveTable wid l.id
          table).completeOp l.cid l.id).dropEng l.id
      if ¬ s.engFree l.id then s
      else if (s.eng l.id).failed.isSome then fin s none
      else match s.engRead wid l.ptr (16 * l.vlen) with
        | .ok s1 bs => fin s1 (some bs)
        | .fail s1 _ _ => fin s1 none
        | .wait s1 => s1
        | .fault s1 k ia ea => s1.engFault l.id wid k ia ea 1#8)

end Sys2Proof.Machine
end

