-- ==== Sys2Proof/Machine/Mmio.lean ====
section
/-!
DEFINITION. The host's side: the MMIO map of BAR0 (16 R417, 00 R6, R7) with its registers, tail writes
(12 R320, 16 R415), semaphores (R414), the fault queue's registers (13 R351), the page commands (R352, R353),
the scratchpad split (10 R285), gating requests (13 R361), and BAR2 (16 R413).
-/

namespace Sys2Proof.Machine

/-! ## The fault queue (R351, R452) -/

/-- After a write of FQ_BASE, FQ_SIZE or FQ_HEAD a failed slot write is tried again, and records that waited are
written. -/
def State.retryQueue (s : State) : State := { s with fqBroken := false }.flushRecords

/-- FQ_HEAD (R351). -/
def State.putFqHead (s : State) (v : DWord) : State :=
  { s with fqHead := if s.fqHead ≤ v.toNat ∧ v.toNat ≤ s.fqTail then v.toNat else s.fqHead }.retryQueue
/-- FQ_BASE (R351). -/
def State.putFqBase (s : State) (v : DWord) : State := { s with fqBase := v &&& ~~~ 63#64 }.retryQueue
/-- FQ_SIZE (R351). -/
def State.putFqSize (s : State) (v : Nat) : State := { s with fqLog2 := v % 32 }.retryQueue

/-- FQ_HEAD (R351). -/
def execFqHead (v : ByPort DWord) (s : State) : Host.Outcome State Fault Refusal :=
  s.hostWrite v.port fun s1 => s1.putFqHead v.val
/-- FQ_BASE (R351). -/
def execFqBase (v : ByPort DWord) (s : State) : Host.Outcome State Fault Refusal :=
  s.hostWrite v.port fun s1 => s1.putFqBase v.val
/-- FQ_SIZE (R351). -/
def execFqSize (v : ByPort Word) (s : State) : Host.Outcome State Fault Refusal :=
  s.hostWrite v.port fun s1 => s1.putFqSize v.val.toNat

/-! ## Queues and semaphores (R320, R414, R415) -/

/-- The owner semaphore of a queue admits a port's write (R415); a merged card counts as port A. -/
def State.ownerOk (s : State) (p : Port) (x : Queue) : Bool :=
  if x.ownerSem < 64 then
    match (s.sem x.ownerSem).toNat, p with
    | 1, .b | 2, .a => false
    | _, _ => true
  else true

/-- A write of TAIL (R320, R415). -/
def State.putTail (s : State) (p : Port) (q : Nat) (t : DWord) : State :=
  let x := s.queue q
  if s.ownerOk p x ∧ x.tail.toNat ≤ t.toNat ∧ t.toNat ≤ x.head.toNat + x.slots then
    s.updQueue q fun y => { y with tail := t }
  else s.updQueue q fun y => { y with tailErr := true }

/-- Q_TAIL (R320). -/
def execQTail (p : Port) (q : Nat) (t : DWord) (s : State) : Host.Outcome State Fault Refusal :=
  s.hostWrite p fun s1 => if q < 256 then s1.putTail p q t else s1
/-- SEM_VALUE (R414). The inputs of one clock stand in the agenda in the order in which R414 applies them.
Log entry 112, DEDUCED. -/
def execSemValue (n : Nat) (v : ByPort DWord) (s : State) : Host.Outcome State Fault Refusal :=
  s.hostWrite v.port fun s1 => s1.setSem n v.val
/-- SEM_ADD (R414). Log entry 112, DEDUCED. -/
def execSemAdd (n : Nat) (v : ByPort DWord) (s : State) : Host.Outcome State Fault Refusal :=
  s.hostWrite v.port fun s1 => s1.setSem n (s1.sem n + v.val)

/-- A read of SEM_CLAIM: a zero value is claimed for the port (R414). Log entry 112, DEDUCED. -/
def State.claimSem (s : State) (p : Port) (n : Nat) : State :=
  if s.sem n = 0 then s.setSem n (match p with | .a => 1 | .b => 2) else s

/-- What a port's read is told, at its address (16 R413, R417); addresses from 2^60 up are BAR0's. -/
def State.tellHost (s : State) (p : Port) (addr : Nat) (bs : List Byte) : State :=
  { s with outbox := s.outbox ++ [.hostRead p addr bs] }
/-- The address of an offset of BAR0. -/
def bar0 (off : Nat) : Nat := 2 ^ 60 + off

/-- SEM_CLAIM (R414). Log entry 112, DEDUCED. -/
def execSemClaim (p : Port) (n : Nat) (s : State) : Host.Outcome State Fault Refusal :=
  .next (if s.barLive p ∧ n < 64 then
      (s.claimSem p n).tellHost p (bar0 (0x2010 + 0x20 * n)) (toLe 8 (s.sem n).toNat)
    else s)

/-! ## Page commands (R352, R353) -/

/-- A port's page commands. -/
def State.pg (s : State) (p : Port) : PageCmd :=
  match p with
  | .a => s.pgA
  | .b => s.pgB
/-- A port's page commands updated. -/
def State.updPg (s : State) (p : Port) (f : PageCmd → PageCmd) : State :=
  match p with
  | .a => { s with pgA := f s.pgA }
  | .b => { s with pgB := f s.pgB }

/-- An access that waited on an entry goes on, or fails with PAGE_FAILED (R353, R170). -/
def State.wakeAttached (s : State) (fail : Bool) (x : Waiter) : State :=
  match x.who with
  | .thread t =>
    if fail then s.faultWg (s.crew t.cid).wid
      ⟨0x4d#8, 0, x.pc, x.ea, ⟨(s.crew t.cid).idx, t.tid, x.access, x.ia⟩, s.genOf (x.ia / 2 ^ 52 % 256)⟩
    else s.updThread t fun y => { y with wait := .ready, since := (s.col (s.crewCol t.cid)).clock }
  | .sequencer c =>
    if fail then match (s.col c).seqr.holder with
      | some wid => s.faultWg wid ⟨0x4d#8, 0, x.pc, x.ea, { access := x.access, ia := x.ia },
        s.genOf (x.ia / 2 ^ 52 % 256)⟩
      | none => s
    else s.updCol c fun y => { y with seqr := { y.seqr with faultWait := none } }
  | .engine id => s.updEng id fun e => { e with entry := none, failed := if fail then some 0x4d#8 else e.failed }
  | .vector cid => s.updCrew cid fun c => { c with vectorWait := none, vectorFailed := c.vectorFailed || fail }

/-- A replay whose generation has been reached closes its entry (R353). -/
def State.closeEntry (s : State) (e : FaultEntry) (fail : Bool) : State :=
  let woken := e.from_.filter fun x => e.attached.contains x.who
  let s1 : State := { s with pending := s.pending.filter fun y => y.id != e.id }
  (woken.foldl (fun acc x => acc.wakeAttached fail x) s1).settle

/-- A KIND 2 record (R350, R353): WHO names the context of the entry, and GEN is its generation. Where no entry has that
number, no context is known: both are 0. Log entry 69, DEDUCED. -/
def State.replayReport (s : State) (cause : Byte) (id : Nat) : State :=
  let ctx := (s.pending.find? fun e => e.id == id).map (·.ctx)
  s.writeRecord { cause := cause, kind := 2, faultId := BitVec.ofNat 32 id, who := whoWord (ctx.getD 0) 0 0 0
                  gen := (ctx.map s.genOf).getD 0, time := s.time }

/-- What a REPLAY does at once (R353): the state, and whether its hold list is full. Log entry 63, DEDUCED. -/
def State.tryReplay (s : State) (id : Nat) (gen : Word) (fail : Bool) : Option State :=
  match s.pending.find? fun e => e.id == id with
  | none => some (s.replayReport 0x4a#8 id)
  | some e =>
    if ¬ (s.genOf e.ctx - gen).msb then some (s.closeEntry e fail)
    else if 64 ≤ (s.held.filter fun h => h.pair == e.unit % 8).length then none
    else some { s with held := s.held ++ [⟨id, gen, fail, s.timeNs, e.unit % 8⟩] }

/-- A replay that waited for its hold list is tried again (R353). -/
def State.admitPending (s : State) (p : Port) : State :=
  match (s.pg p).pending with
  | none => s
  | some (id, gen, fail) =>
    let err := !s.pending.any fun e => e.id == id
    match s.tryReplay id gen fail with
    | none => s
    | some s1 => s1.updPg p fun x => { x with pending := none, busy := false, err := x.err || err }

/-- Held replays whose generation has been reached proceed, in order (R353). -/
def State.runHeld (s : State) : State :=
  let ready (h : HeldReplay) : Bool := match s.pending.find? fun e => e.id == h.id with
    | some e => !(s.genOf e.ctx - h.gen).msb
    | none => true
  let s0 : State := { s with held := s.held.filter fun h => !ready h }
  let s1 := (s.held.filter ready).foldl (fun acc h =>
    match acc.pending.find? fun e => e.id == h.id with
    | some e => acc.closeEntry e h.fail
    | none => acc.replayReport 0x4a#8 h.id) s0
  (s1.admitPending .a).admitPending .b

/-- The leaf of a translation-cache entry covers part of a range of IAs (R353). -/
def TlbEntry.overlaps (t : TlbEntry) (lo hi : Nat) : Bool :=
  let a := t.ctx * 2 ^ 52 + t.page * 2 ^ levelShift t.level
  decide (a ≤ hi ∧ lo < a + 2 ^ levelShift t.level)

/-- An IA lies in a context and a range of IAs. -/
def iaIn (n lo hi ia : Nat) : Bool := decide (ia / 2 ^ 52 = n ∧ lo ≤ ia ∧ ia ≤ hi)
/-- A line holds an IA of a context in a range. -/
def lineIn (n lo hi line : Nat) : Bool := decide (line * 128 / 2 ^ 52 = n ∧ lo < line * 128 + 128 ∧ line * 128 ≤ hi)

/-- What was found by the old translations of a range leaves an L1 and an instruction cache (R276, R348).
Log entry 63, DEDUCED. -/
def Column.forget (n lo hi : Nat) (x : Column) : Column :=
  { x with
    l1 := x.l1.filter fun l => !lineIn n lo hi l.line
    misses := x.misses.filter fun e => !lineIn n lo hi e.line
    icache := x.icache.filter fun l => !lineIn n lo hi l.1 }

/-- PUBLISH (R276, R353): of any context, installed or not. Log entry 63, DEDUCED. -/
def State.publish (s : State) (p : Port) : State :=
  let x := s.pg p
  let n := fieldNat x.r0 7 0
  let gen : Word := bits x.r0 63 32
  let d := gen - s.genOf n
  if d = 0 ∨ d.msb then s.updPg p fun y => { y with err := true }
  else
    let lo := fieldNat x.r1 59 0
    let hi := fieldNat x.r2 59 0
    let s1 : State := { s with
      tlb := s.tlb.filter fun t => !(t.ctx == n && t.overlaps lo hi), columns := s.columns.map (Column.forget n lo hi) }
    ((s1.setGen n gen).remapStash fun x => iaIn n lo hi x.ia).runHeld

/-- REPLAY (R353). Log entry 63, DEDUCED. -/
def State.replay (s : State) (p : Port) : State :=
  let x := s.pg p
  let id := fieldNat x.r1 31 0
  let gen : Word := bits x.r0 63 32
  let fail := bit x.r1 32
  let err := !s.pending.any fun e => e.id == id
  match s.tryReplay id gen fail with
  | some s1 => s1.updPg p fun y => { y with err := y.err || err }
  | none => s.updPg p fun y => { y with busy := true, pending := some (id, gen, fail) }

/-- GO (R352): the set belongs to port `p`, the write comes from `src`. Log entry 63, DEDUCED. -/
def State.go (s : State) (p src : Port) : State :=
  if src ≠ p ∨ (s.pg p).busy then s.updPg p fun x => { x with err := true }
  else match fieldNat (s.pg p).r0 15 8 with
    | 1 => s.publish p
    | 2 => s.replay p
    | _ => s.updPg p fun x => { x with err := true }

/-- PUBLISH (R353): GO of a set that holds the command. -/
def execPublish (p : Port) (s : State) : Host.Outcome State Fault Refusal :=
  .next (if s.barLive p ∧ fieldNat (s.pg p).r0 15 8 = 1 then (s.unstage p).go p p else s)
/-- REPLAY (R353): GO of a set that holds the command. -/
def execReplay (p : Port) (s : State) : Host.Outcome State Fault Refusal :=
  .next (if s.barLive p ∧ fieldNat (s.pg p).r0 15 8 = 2 then (s.unstage p).go p p else s)

/-- REPLAY_STALE (R353): a replay held for 1,000,000 ns leaves the list. -/
def execReplayStale (id : Nat) (s : State) : Host.Outcome State Fault Refusal :=
  .next (match s.held.find? fun h => h.id == id && decide (h.since + 1000000 ≤ s.timeNs) with
    | none => s
    | some h =>
      let s1 := { s with held := s.held.erase h }.replayReport 0x4c#8 h.id
      (s1.admitPending .a).admitPending .b)

/-! ## The scratchpad split (R285, R286) -/

/-- A write of POOL_SPLIT (R285). Log entry 65, DEDUCED. -/
def State.putSplit (s : State) (c v : Nat) : State :=
  let x := s.col c
  if x.poolBusy ∨ 8 < v % 16 then s
  else s.updCol c fun y => { y with poolTarget := v % 16, poolBusy := decide (v % 16 ≠ y.poolCurrent) }

/-- An outstanding transfer command writes to scratchpad bytes of a column (R285). -/
def State.transferInto (s : State) (c lo hi : Nat) : Bool :=
  s.xe.any fun x => x.chans.toList.any fun ch => ch.cmds.any fun k =>
    match s.scratchCheck (s.whoWg x.wid) k.desc.dst 1 with
    | some (w, o) => (ptrSpace k.desc.dst == 1 || ptrSpace k.desc.dst == 2) && w.col == c &&
        decide (w.scratchBase + o < hi ∧ lo < w.scratchBase + o + k.desc.reach k.eo)
    | none => false

/-- The split takes its new value: the ways that change role hold zero (R285). Log entry 65, DEDUCED. -/
def State.finishSplit (s : State) (c : Nat) : State :=
  let x := s.col c
  let lo := min x.poolCurrent x.poolTarget * 524288
  let hi := max x.poolCurrent x.poolTarget * 524288
  if ¬ x.poolBusy ∨ s.transferInto c lo hi then s
  else
    let s1 := s.updCol c fun y => { y with poolCurrent := y.poolTarget, poolBusy := false }
    { s1 with
    dcache := dcTrim c (s1.col c).dcLines s1.dcache.length s1.dcache
    mem := s.mem.filter fun p => !(keyRegion p.1 == regScratch c && decide (lo ≤ keyOff p.1 ∧ keyOff p.1 < hi)) }

/-- POOL_SPLIT (R285). -/
def execPoolSplit (c : Nat) (v : ByPort Word) (s : State) : Host.Outcome State Fault Refusal :=
  s.hostWrite v.port fun s1 => if c < 96 then s1.putSplit c v.val.toNat else s1
/-- POOL_SPLIT_COMPLETE (R285). Log entry 65, DEDUCED. -/
def execPoolSplitComplete (c : Nat) (s : State) : Host.Outcome State Fault Refusal := .next (s.finishSplit c)

/-! ## Gating requests (R361) -/

/-- A write of COL_GATE (R361): REQ = 1 asks for a gating seal, unless one is in progress or has gated the column. A
seal that was asked for completes, whatever REQ becomes. -/
def Column.putGate (v : Word) (x : Column) : Column :=
  let y := { x with lost := x.lost && !bit v 30, gateReq := bit v 0 }
  if bit v 0 ∧ ¬ x.gated ∧ (x.sealing.all fun z => z.reason != 1#8) then y.askSeal 1 else y
/-- COL_GATE of a column written. -/
def State.putGate (s : State) (c : Nat) (v : Word) : State := s.updCol c (Column.putGate v)

/-- COL_GATE_REQ (R361). -/
def execColGateReq (c : Nat) (v : ByPort Word) (s : State) : Host.Outcome State Fault Refusal :=
  s.hostWrite v.port fun s1 => if c < 96 then s1.putGate c v.val else s1

/-! ## The registers of BAR0 (R417) -/

/-- The registers of BAR0. -/
inductive Reg where
  | ptpCtl | ptpStatus | ptpStep | pwrPool | pwrAvail | pwrCost (i : Nat) | framePeriod
  | fqBase | fqSize | fqTail | fqHead | fqStatus
  | pg (p : Port) (i : Nat) | pgStatus (p : Port)
  | ropeCtl (k : Nat) | ropeMembers (k : Nat) | ropeRate (k : Nat) | ropeGuard (k : Nat) | ropeLat (k : Nat)
  | ropeState (k : Nat)
  | cardId | routeLo | routeHi | linkStatus (i : Nat) | collTimeout | dramCe (i : Nat) | rindCe
  | inBase (w : Nat) | inLimit (w : Nat) | inCtl (w : Nat)
  | semValue (n : Nat) | semAdd (n : Nat) | semClaim (n : Nat)
  | qTail (q : Nat) | qHead (q : Nat) | qStatus (q : Nat)
  | colGate (c : Nat) | colSwallow (c : Nat) | colEnergy (c : Nat) | poolSplit (c : Nat) | mxInject (c : Nat)
  | pickCtl (c : Nat) | vbtStatus (c : Nat) | poolCe (c : Nat)
  deriving DecidableEq, Repr

/-- The register of an array at an offset, by its place in an element. -/
def regIn (off base stride count : Nat) (f : Nat → Nat → Option Reg) : Option Reg :=
  if base ≤ off ∧ off < base + stride * count then f ((off - base) / stride) ((off - base) % stride) else none

/-- The registers of the first page that stand alone. -/
def regAlone : Nat → Option Reg
  | 0x00 => some .ptpCtl | 0x08 => some .ptpStatus | 0x10 => some .ptpStep | 0x20 => some .pwrPool
  | 0x24 => some .pwrAvail | 0x80 => some .framePeriod | 0x100 => some .fqBase | 0x108 => some .fqSize
  | 0x110 => some .fqTail | 0x118 => some .fqHead | 0x120 => some .fqStatus | 0x800 => some .cardId
  | 0x808 => some .routeLo | 0x810 => some .routeHi | 0x830 => some .collTimeout | 0x940 => some .rindCe
  | _ => none

/-- The register at an offset (R417). -/
def regAt (off : Nat) : Option Reg :=
  regAlone off <|>
  regIn off 0x40 4 16 (fun i o => if o = 0 then some (.pwrCost i) else none) <|>
  regIn off 0x200 0x40 2 (fun i o =>
    let p : Port := if i = 0 then .a else .b
    if o = 0x20 then some (.pgStatus p) else if o < 0x20 ∧ o % 8 = 0 then some (.pg p (o / 8)) else none) <|>
  regIn off 0x400 0x40 4 (fun k o => match o with
    | 0x00 => some (.ropeCtl k) | 0x04 => some (.ropeMembers k) | 0x08 => some (.ropeRate k)
    | 0x10 => some (.ropeGuard k) | 0x14 => some (.ropeLat k) | 0x18 => some (.ropeState k) | _ => none) <|>
  regIn off 0x820 4 4 (fun i o => if o = 0 then some (.linkStatus i) else none) <|>
  regIn off 0x900 4 16 (fun i o => if o = 0 then some (.dramCe i) else none) <|>
  regIn off 0x1000 0x20 16 (fun w o => match o with
    | 0x00 => some (.inBase w) | 0x08 => some (.inLimit w) | 0x10 => some (.inCtl w) | _ => none) <|>
  regIn off 0x2000 0x20 64 (fun n o => match o with
    | 0x00 => some (.semValue n) | 0x08 => some (.semAdd n) | 0x10 => some (.semClaim n) | _ => none) <|>
  regIn off 0x10000 0x40 256 (fun q o => match o with
    | 0x00 => some (.qTail q) | 0x08 => some (.qHead q) | 0x10 => some (.qStatus q) | _ => none) <|>
  regIn off 0x100000 0x1000 96 (fun c o => match o with
    | 0x00 => some (.colGate c) | 0x04 => some (.colSwallow c) | 0x08 => some (.colEnergy c)
    | 0x10 => some (.poolSplit c) | 0x14 => some (.mxInject c) | 0x18 => some (.pickCtl c)
    | 0x1c => some (.vbtStatus c) | 0x20 => some (.poolCe c) | _ => none)

/-- The register is 64 bits wide. -/
def Reg.wide : Reg → Bool
  | .ptpStatus | .ptpStep | .fqBase | .fqTail | .fqHead | .pg .. | .ropeRate _ | .ropeState _ | .routeLo
  | .routeHi | .inBase _ | .inLimit _ | .inCtl _ | .semValue _ | .semAdd _ | .semClaim _ | .qTail _ | .qHead _
  | .colEnergy _ => true
  | _ => false

/-- EXPELLED of a rope: the members cut from it now (R393, R396, R397). -/
def State.expelledMask (s : State) (r : Rope) : Nat :=
  (r.members.filter fun m => r.expelled.any fun e => e.member == m && e.stands r s.timeNs).foldl
    (fun acc m => acc + 2 ^ m) 0

/-- What a read of a register returns (R6, R7). Log entry 66, DEDUCED. -/
def State.regGet (s : State) (r : Reg) : Nat :=
  match r with
  | .ptpCtl => b2n s.ptpEnable * 2 ^ 31 + s.ptpDomain.toNat * 256 + s.ptpSubport.toNat
  | .ptpStatus => b2n s.ptpLocked * 2 ^ 63 + (BitVec.ofInt 32 s.ptpOffset).toNat
  | .ptpStep => 0
  | .pwrPool => s.pwrTokens
  | .pwrAvail => (BitVec.ofInt 21 ((s.pwrTokens : Int) - s.tokensHeld noneGone)).toNat
  | .pwrCost i => s.pwrCost[i]?.getD 0
  | .framePeriod => s.framePeriod
  | .fqBase => s.fqBase.toNat
  | .fqSize => s.fqLog2
  | .fqTail => s.fqTail
  | .fqHead => s.fqHead
  | .fqStatus => s.fqDropped * 65536 + b2n (s.fqTail - s.fqHead == 2 ^ s.fqLog2) * 2 +
      b2n (!decide (4 ≤ s.fqLog2 ∧ s.fqLog2 ≤ 16))
  | .pg p 0 => (s.pg p).r0.toNat
  | .pg p 1 => (s.pg p).r1.toNat
  | .pg p 2 => (s.pg p).r2.toNat
  | .pg .. => 0
  | .pgStatus p => b2n (s.pg p).err * 2 + b2n (s.pg p).busy
  | .ropeCtl k => b2n (s.rope k).enable * 2 ^ 31 + (s.rope k).self % 32 * 256
  | .ropeMembers k => (s.rope k).mask.toNat
  | .ropeRate k => (s.rope k).num.toNat * 2 ^ 32 + (s.rope k).den.toNat
  | .ropeGuard k => (s.rope k).guard.toNat
  | .ropeLat k => (s.rope k).latMax
  | .ropeState k => s.expelledMask (s.rope k) * 2 ^ 32 + (s.rope k).subst.toNat
  | .cardId => s.cardId
  | .routeLo => s.routeLo.toNat
  | .routeHi => s.routeHi.toNat
  | .linkStatus i =>
    let l := s.links[i]?.getD {}
    b2n l.up * 2 ^ 31 + l.lanes.toNat * 256 + l.retries.toNat
  | .collTimeout => s.collNs
  | .dramCe i => ((s.dramCe[i]?).getD 0).toNat
  | .rindCe => s.rindCe.toNat
  | .inBase w => ((s.inwins[w]?).getD {}).base.toNat
  | .inLimit w => ((s.inwins[w]?).getD {}).limit.toNat
  | .inCtl w => ((s.inwins[w]?).getD {}).ctl.toNat
  | .semValue n | .semClaim n => (s.sem n).toNat
  | .semAdd _ => 0
  | .qTail q => (s.queue q).tail.toNat
  | .qHead q => (s.queue q).head.toNat
  | .qStatus q =>
    let x := s.queue q
    b2n x.stopped * 4 + b2n x.tailErr * 2 + b2n (x.run.any fun r => !r.completion)
  | .colGate c =>
    let x := s.col c
    b2n x.gated * 2 ^ 31 + b2n x.lost * 2 ^ 30 + b2n x.gateReq
  | .colSwallow c =>
    let x := s.col c
    x.fwLevel.toNat * 256 + x.hwLevel.toNat * 16 + max x.fwLevel.toNat x.hwLevel.toNat
  | .colEnergy c => (s.col c).energyLast.toNat * 2 ^ 32 + (s.col c).energyCur.toNat
  | .poolSplit c =>
    let x := s.col c
    b2n x.poolBusy * 2 ^ 31 + x.poolCurrent * 256 + x.poolTarget
  | .mxInject c =>
    let x := s.col c
    b2n x.injArm * 2 ^ 31 + x.injAcc * 2 ^ 14 + x.injRow * 2 ^ 10 + x.injCol * 2 ^ 6 + x.injBit
  | .pickCtl c => (s.col c).localityT
  | .vbtStatus c => (s.col c).retired.toNat
  | .poolCe c => (s.col c).poolCe.toNat

/-- A rope's ROPE_CTL written: SELF only while the rope is not enabled, then REJOIN (R393, R397). A card that begins to
take part decides the frames whose decision points are to come. Log entry 25, DEDUCED. -/
def State.putRopeCtl (s : State) (k : Nat) (v : Nat) : State :=
  let r := s.rope k
  let s1 := s.setRope k { r with
    enable := v.testBit 31, self := if r.enable then r.self else v / 256 % 32
    next := if r.enable then r.next else max r.next (r.frameAfter s.timeNs) }
  if v.testBit 30 then s1.rejoin k else s1

/-- A register of a rope that stands while the rope is enabled (R393). -/
def State.putRope (s : State) (k : Nat) (f : Rope → Rope) : State :=
  if (s.rope k).enable then s else s.setRope k (f (s.rope k))

/-- An inbound window updated. -/
def State.updWin (s : State) (k : Nat) (f : InWindow → InWindow) : State :=
  { s with inwins := s.inwins.setIfInBounds k (f ((s.inwins[k]?).getD {})) }

/-- A whole register written (R6, R7, R417) by a port. Log entry 66, DEDUCED. -/
def State.regPut (s : State) (p : Port) (r : Reg) (v : DWord) : State :=
  let n := v.toNat
  let w : Word := v.setWidth 32
  match r with
  | .ptpCtl => { s with ptpEnable := bit w 31, ptpDomain := bits w 15 8, ptpSubport := bits w 3 0 }
  | .ptpStep => s.ptpStep v
  | .pwrPool => { s with pwrTokens := n % 2 ^ 20 }
  | .pwrCost i => { s with pwrCost := s.pwrCost.setIfInBounds i (n % 65536) }
  | .framePeriod => { s with
      framePeriod := n % 2 ^ 32
      periodAt := if s.timeNs = 0 then s.periodAt else some (max (s.timeNs - 1) (s.periodAt.getD 0)) }
  | .fqBase => s.putFqBase v
  | .fqSize => s.putFqSize n
  | .fqHead => s.putFqHead v
  | .pg t 0 => s.updPg t fun x => { x with r0 := v &&& 0xffffffff0000ffff#64 }
  | .pg t 1 => s.updPg t fun x => { x with r1 := v }
  | .pg t 2 => s.updPg t fun x => { x with r2 := v }
  | .pg t _ => if bit v 0 then s.go t p else s
  | .pgStatus t => s.updPg t fun x => { x with err := x.err && !bit w 1 }
  | .ropeCtl k => s.putRopeCtl k n
  | .ropeMembers k => s.putRope k fun x => { x with mask := w }
  | .ropeRate k => s.putRope k fun x => x.putRate s.timeNs (bits v 63 32) w
  | .ropeGuard k => s.setRope k { s.rope k with guard := w }
  | .cardId => { s with cardId := n % 32 }
  | .routeLo => { s with routeLo := v }
  | .routeHi => { s with routeHi := v }
  | .linkStatus i =>
    let l : Link := s.links[i]?.getD {}
    let keep : Byte := ~~~ (bits w 7 0)
    { s with links := s.links.setIfInBounds i { l with retries := l.retries &&& keep } }
  | .collTimeout => { s with collTimeout := n % 2 ^ 32 }
  | .dramCe i => { s with dramCe := s.dramCe.setIfInBounds i w }
  | .rindCe => { s with rindCe := w }
  | .inBase k => s.updWin k fun x => { x with base := v &&& 0x000fffffffff0000#64 }
  | .inLimit k => s.updWin k fun x => { x with limit := v &&& 0x000fffffffff0000#64 }
  | .inCtl k => s.updWin k fun x => { x with ctl := v &&& 0xffffffff00000097#64 }
  | .semValue k => s.setSem k v
  | .semAdd k => s.setSem k (s.sem k + v)
  | .qTail q => s.putTail p q v
  | .qStatus q => s.updQueue q fun x => { x with tailErr := x.tailErr && !bit w 1 }
  | .colGate c => s.putGate c w
  | .colSwallow c => s.updCol c fun x => { x with fwLevel := bits w 11 8 }
  | .poolSplit c => s.putSplit c n
  | .mxInject c => s.updCol c fun x => { x with
      injArm := bit w 31, injAcc := fieldNat w 16 14, injRow := fieldNat w 13 10, injCol := fieldNat w 9 6
      injBit := fieldNat w 4 0 }
  | .pickCtl c => s.updCol c fun x => { x with localityT := n % 65536 }
  | .poolCe c => s.updCol c fun x => { x with poolCe := w }
  | .ptpStatus | .pwrAvail | .fqTail | .fqStatus | .ropeLat _ | .ropeState _ | .semClaim _ | .qHead _
  | .colEnergy _ | .vbtStatus _ => s

/-! ## Accesses to BAR0 (R417) -/

/-- What an access of a size at an offset reaches: a whole register, the lower or the upper half of one, no
register, or nothing that completes. -/
inductive Bar0Acc where
  | whole (r : Reg) | lower (r : Reg) | upper (r : Reg) | unlisted | bad
  deriving DecidableEq, Repr

/-- The access that a size and an offset make (R417). -/
def bar0Acc (off size : Nat) : Bar0Acc :=
  if size = 8 ∧ off % 8 = 0 then
    match regAt off, regAt (off + 4) with
    | some r, _ => if r.wide then .whole r else .bad
    | none, some _ => .bad
    | none, none => .unlisted
  else if size = 4 ∧ off % 4 = 0 then
    match regAt off, (if 4 ≤ off then regAt (off - 4) else none) with
    | some r, _ => if r.wide then .lower r else .whole r
    | none, some r => if r.wide then .upper r else .unlisted
    | none, none => .unlisted
  else .bad

/-- A port stages the lower half of the register at an offset. Log entry 64, DEDUCED. -/
def State.stage (s : State) (p : Port) (off : Nat) (v : Word) : State :=
  match p with
  | .a => { s with stagedA := some (off, v) }
  | .b => { s with stagedB := some (off, v) }

/-- The lower half that joins a write of an upper half (R417). -/
def State.lowerHalf (s : State) (p : Port) (off : Nat) (r : Reg) : Nat :=
  match s.staged? p with
  | some (o, v) => if o + 4 = off then v.toNat else s.regGet r % 2 ^ 32
  | none => s.regGet r % 2 ^ 32

/-- A write to BAR0 (R417). Log entry 64, DEDUCED. -/
def State.bar0Write (s : State) (p : Port) (off size : Nat) (v : DWord) : State :=
  if ¬ s.barLive p then s
  else
    let s1 := s.unstage p
    match bar0Acc off size with
    | .whole r => s1.regPut p r v
    | .lower _ => s.stage p off (v.setWidth 32)
    | .upper r => s1.regPut p r (BitVec.ofNat 64 (v.toNat % 2 ^ 32 * 2 ^ 32 + s.lowerHalf p off r))
    | .unlisted | .bad => s1

/-- BAR0_LOWER_HALF_WRITE (R417). -/
def execBar0LowerHalfWrite (p : Port) (off : Nat) (v : Word) (s : State) : Host.Outcome State Fault Refusal :=
  .next (s.bar0Write p off 4 (v.setWidth 64))
/-- REGISTER_WRITE (R6, R417). -/
def execRegisterWrite (p : Port) (off size : Nat) (v : DWord) (s : State) : Host.Outcome State Fault Refusal :=
  .next (s.bar0Write p off size v)

/-- The side effect of a register's read (R414). -/
def State.readEffect (s : State) (p : Port) : Reg → State
  | .semClaim n => s.claimSem p n
  | _ => s

/-- A read of BAR0 (R417). Log entry 64, DEDUCED. -/
def State.bar0Read (s : State) (p : Port) (off size : Nat) : State :=
  if ¬ s.barLive p then s
  else
    let tell (s : State) (v : Nat) : State := s.tellHost p (bar0 off) (toLe size v)
    match bar0Acc off size with
    | .whole r | .lower r => tell (s.readEffect p r) (s.regGet r)
    | .upper r => tell (s.readEffect p r) (s.regGet r / 2 ^ 32)
    | .unlisted => tell s 0
    | .bad => { s with outbox := s.outbox ++ [.unsupported p] }

/-! ## BAR2 (R413) -/

/-- A byte of G7 DRAM read through BAR2: all ones above the memory; a sector with an uncorrectable error returns
no data, and the spec states no byte for it. -/
def State.bar2Byte (s : State) (a i : Nat) : Byte :=
  if dramSize ≤ a + i then 0xff#8
  else if (s.eccAt (mkKey regDram (a + i)) 1).isSome then Config.freeByte 11 (s.freeCtr + i)
  else s.byte (mkKey regDram (a + i))

/-- Bytes written through BAR2; those above the memory are dropped, those in a stash entry's range are performed on its
copy, filled first (R283). -/
def bar2Put (s : State) (a : Nat) : List Byte → State
  | [] => s
  | b :: bs => bar2Put (if dramSize ≤ a then s else (s.fillAt (mkKey regDram a)).put (mkKey regDram a) [b])
      (a + 1) bs

/-- HOST_BAR2_ACCESS (R413). -/
def execHostBar2Access (p : Port) (write : Bool) (addr size : Nat) (data : List Byte) (s : State) :
    Host.Outcome State Fault Refusal :=
  .next (if ¬ s.barLive p then s
    else
      let s1 := if dramSize ≤ addr then s else s.dcFillAll (mkKey regDram addr) (min (max size data.length) (dramSize - addr))
      if write then bar2Put s1 addr data
      else { s1 with freeCtr := s1.freeCtr + size }.tellHost p addr
        ((List.range size).map fun i => s1.bar2Byte addr i))

end Sys2Proof.Machine
end

