-- ==== Sys2Proof/Machine/Pipeline.lean ====
section
/-!
DEFINITION. From a ready thread to a run: instruction fetch (13 R348), readiness, the throttle and the picker
(12 R341 to R345, 01 R27), parked runs that go on (R342), results that land (01 R26), traps at run boundaries
(07 R182, R186, 08 R220, 16 R403), page walks (10 R274, 13 R349), and the clocked counters of a column (12 R331,
R332, R344).
-/

namespace Sys2Proof.Machine

/-! ## Readiness (R341) -/

/-- The instructions of a run's words; `skip` extension words come first. -/
def State.runInstrs (s : State) (l : Launch) : Nat → List Word → List Instr
  | _, [] => []
  | n + 1, _ :: ws => s.runInstrs l n ws
  | 0, w :: ws =>
    if isTrailer w then []
    else match s.rowOf l w with
      | none => s.runInstrs l 0 ws
      | some (_, row) =>
        let rest := s.runInstrs l (row.ext w) ws
        match row.dec w (ws.getD 0 0) (ws.getD 1 0) with
        | .ok i => i :: rest
        | .error _ => rest

/-- The registers that an instruction names for a thread of an allotment (R341). -/
def Instr.namedRegs (allot : Nat) (i : Instr) : List (Nat × Nat) :=
  i.laneRegs ++ if i.usesLr then [(allot - 4, 2)] else []

/-- No register that the instructions name holds a pending result (R26, R341). -/
def Thread.regsFree (t : Thread) (is : List Instr) : Bool :=
  t.pend.all fun p => !decide (p.dst.toNat < 96) || is.all fun i => (Instr.namedRegs t.allot i).all fun r =>
    decide (r.1 + r.2 ≤ p.dst.toNat ∨ p.dst.toNat + p.n ≤ r.1)

/-- A thread stands at its PC: live, between runs, held by no fault, with no trap of its crew to take. -/
def State.standing (s : State) (t : Thread) : Bool :=
  !t.exited && t.wait == .ready && t.boundary.isNone && (s.runOf t.ref).isNone &&
    (s.crewThreads t.cid).all (fun x => x.raised.isNone) && (s.wg (s.crew t.cid).wid).fault.isNone

/-- A thread whose next run may be picked: the run's words and its instructions. -/
structure Cand where
  t : Thread
  crew : Crew
  lid : Nat
  words : List Word
  instrs : List Instr
  uniform : Bool
  /-- The column's clock when it last became ready (R341). -/
  since : Nat

/-- The members of a crew that a crew run at a PC gathers (R27). -/
def State.crewGather (s : State) (cid : Nat) (pc : DWord) : List Thread :=
  (s.liveMembers cid).filter fun t => s.standing t && t.pc == pc

/-- A crew run may begin: every live member that is no helper stands at its first word, and no gathered member
waits for a register (R27, R341). -/
def State.gathers (s : State) (cid : Nat) (pc : DWord) (is : List Instr) : Bool :=
  let ms := s.crewGather cid pc
  (s.liveMembers cid).all (fun t => t.helper || ms.any fun x => x.tid == t.tid) &&
    ms.any (fun t => !t.helper) && ms.all fun t => t.regsFree is

/-- When a thread became ready for a run that names some registers: as it came to stand there, or as the last pending
result of one of them landed (R341). -/
def Thread.readyAt (t : Thread) (is : List Instr) : Nat :=
  ((t.lands.filter fun p => is.any fun i => (Instr.namedRegs t.allot i).any fun r =>
    decide (p.1 < r.1 + r.2 ∧ r.1 < p.1 + p.2.1)).map (·.2.2)).foldl max t.since

/-- When a crew run became ready: as its last member did, or as the last of those that it waited for left (R27, R28,
R341). -/
def State.gatheredAt (s : State) (c : Crew) (pc : DWord) (is : List Instr) : Nat :=
  ((s.crewGather c.cid pc).map (·.readyAt is)).foldl max c.leftAt

/-- A thread as a candidate of its picker, if it is ready (R341). -/
def State.cand? (s : State) (t : Thread) : Option Cand :=
  let c := s.crew t.cid
  let w := s.wg c.wid
  let l := s.launch w.lid
  if ¬ s.standing t then none
  else match s.fetchRun l w.col t.pc with
    | .words ws =>
      let is := s.runInstrs l 0 ws
      let u := s.hasUniform l 0 ws
      if (if u then s.gathers t.cid t.pc is else t.regsFree is) then
        some ⟨t, c, l.lid, ws, is, u, if u then s.gatheredAt c t.pc is else t.readyAt is⟩
      else none
    | _ => none

/-- The order of the picker: the oldest first, then by crew index and thread index (R343). Log entry 8, DEDUCED. -/
def Cand.order (x : Cand) : List Nat := [x.since, x.crew.idx, x.t.tid, x.t.cid]

/-- The candidates of a partition, oldest first. -/
def State.cands (s : State) (c p : Nat) : List Cand :=
  ((s.threads.filter fun t => (s.crew t.cid).part == p && s.crewCol t.cid == c).filterMap s.cand?).mergeSort
    fun a b => !lexLt b.order a.order

/-! ## The locality throttle (R344) -/

/-- The crews homed in a partition. -/
def State.partCrews (s : State) (c p : Nat) : List Crew :=
  s.crews.filter fun x => x.part == p && s.crewCol x.cid == c

/-- How many crews may issue memory runs. -/
def crewLimit (sum t : Nat) : Nat :=
  if t = 0 ∨ sum < t then 12 else if sum < 2 * t then 8 else if sum < 4 * t then 4 else 2

/-- A crew may issue memory runs: it is among those placed earliest. -/
def State.mayMemory (s : State) (c p cid : Nat) : Bool :=
  let crews := s.partCrews c p
  let n := crewLimit ((crews.map fun x => x.loss).foldl (· + ·) 0) (s.col c).localityT
  let sorted := crews.mergeSort fun a b => !lexLt [b.placed, b.idx] [a.placed, a.idx]
  (sorted.take n).any fun x => x.cid == cid

/-- The run that a candidate would begin. -/
def Cand.run (k : RunKey) (x : Cand) : Run :=
  { key := k, start := x.t.pc, words := x.words, members := [x.t.ref]
    crewRun := if x.uniform then some x.t.cid else none }

/-- The pointer of a lane's load, store, atomic, reduction or prefetch, and of a uniform load or store (R344). -/
def Instr.lanePtr : Instr → Option Code
  | .ld _ _ _ a _ | .st _ _ _ a _ | .ldAcq _ _ _ a _ | .stRel _ _ _ a _ | .ldRelaxed _ _ a _ | .stRelaxed _ _ a _
  | .atom _ _ a _ | .red _ _ a _ | .atomCasB32 _ a _ | .atomCasB64 _ a _ | .prefetch a _ => some a
  | _ => none
def Instr.uniformPtr : Instr → Option USrc
  | .uniformLd _ _ b _ | .uniformSt _ _ b | .uniformLdAcqDev _ b _ | .uniformStRelDev _ b => some b
  | _ => none

/-- An earlier word of the run may write the pointer pair of a lane's access: its first field, which is its destination if
it has one, meets it. -/
def Instr.mayForm (a : Code) (i : Instr) : Bool :=
  (i.fields.head?).any fun p => decide (p.1.toNat < a.toNat + 2 ∧ a.toNat < p.1.toNat + p.2)

/-- An access of a run is to space 0, 3, 4 or 5 (R344), by the candidate's registers as they stand; one whose pointer the
run itself may form, or that is no register, counts as such. Log entry 76, DEDUCED. -/
def State.accMemory (s : State) (r : Run) (x : Thread) (before : List Instr) (i : Instr) : Bool :=
  let mem (p : DWord) : Bool := [0, 3, 4, 5].contains (ptrSpace p)
  match Instr.lanePtr i, Instr.uniformPtr i with
  | some a, _ => decide (96 ≤ a.toNat) || before.any (Instr.mayForm a) || mem ((s.env r x.cid).read64 x a)
  | none, some b => before.any (fun j => j.fields.isEmpty) || mem (s.uVal (.crew r x.cid) b)
  | none, none => false

/-- A candidate's run is a memory run (R344). -/
def State.memoryRun (s : State) (k : RunKey) (x : Cand) : Bool :=
  (List.range x.instrs.length).any fun n => (x.instrs[n]?).any fun i =>
    s.accMemory (x.run k) x.t (x.instrs.take n) i

/-- The throttle bars a candidate's run. -/
def State.barred (s : State) (k : RunKey) (x : Cand) : Bool :=
  s.memoryRun k x && !s.mayMemory k.col k.part x.t.cid

/-! ## The picker (R342, R343) -/

/-- How many lane ports a run holds (R27, R342). -/
def Run.ports (r : Run) : Nat := if r.crewRun.isSome ∧ 32 < r.members.length then 2 else 1
/-- A run holds its port from its first word to its trailer, but while it is parked; one that waits for a miss-status
entry keeps it (R279, R342). -/
def Run.holds (r : Run) : Bool := r.parked.all fun w => w == .miss
/-- A lane port of a partition is free (R342). -/
def State.portFree (s : State) (c p i : Nat) : Bool :=
  !s.runs.any fun r => r.key.col == c && r.key.part == p && r.holds && (r.ports == 2 || r.lane == i)
/-- A run that needs some ports can take one, or both (R27, R342). -/
def State.portFor? (s : State) (c p ports want : Nat) : Option Nat :=
  if ports = 2 then (if s.portFree c p 0 && s.portFree c p 1 then some want else none)
  else if s.portFree c p want then some want
  else none

/-- The candidate whose PC and key the picker of a port takes (R343). Log entry 8, DEDUCED. -/
def State.choose (s : State) (k : RunKey) : Option Cand :=
  let c := s.col k.col
  let cs := s.cands k.col k.part
  let old := cs.find? fun x => decide (2048 ≤ c.clock - x.since)
  let leader := (c.leaders.find? fun x => x.1 == k.part && x.2.1 == k.port % 2).bind fun x =>
    cs.find? fun y => y.t.ref == x.2.2 && !s.barred k y
  old <|> leader <|> cs.find? fun x => !s.barred k x

/-- The threads that the run of a candidate gathers: the one that was chosen, and then the others (R27, R343).
Log entry 8, DEDUCED. -/
def State.gather (s : State) (k : RunKey) (x : Cand) : List TRef :=
  if x.uniform then
    x.t.ref :: ((s.crewGather x.t.cid x.t.pc).map (·.ref)).filter fun t => t != x.t.ref
  else
    let others := (s.cands k.col k.part).filter fun y =>
      y.lid == x.lid && y.t.pc == x.t.pc && y.t.ref != x.t.ref
    x.t.ref :: (((others.filter fun y => y.t.reorderKey == x.t.reorderKey) ++
      (others.filter fun y => y.t.reorderKey != x.t.reorderKey)).take 31).map (·.t.ref)

/-- The leader of a run: its lowest-indexed real thread, by crew and then by thread (R343). -/
def State.leaderOf (s : State) (ts : List TRef) : Option TRef :=
  let index (t : TRef) : List Nat := [(s.crew t.cid).idx, t.tid, t.cid]
  (ts.filter fun t => !(s.thread t).helper).foldl (fun acc t =>
    if acc.all fun u => lexLt (index t) (index u) then some t else acc) none

/-- The leader of a port's last run, from now on. -/
def Column.setLeader (x : Column) (p port : Nat) (t : TRef) : Column :=
  { x with leaders := (p, port, t) :: x.leaders.filter fun y => !(y.1 == p && y.2.1 == port) }

/-- A run takes a port, or both: its leader is that of the port's last run (R342, R343). -/
def State.takePort (s : State) (r : Run) (i : Nat) : State :=
  match s.leaderOf r.members with
  | none => s
  | some t => s.updCol r.key.col fun y =>
    if r.ports = 2 then (y.setLeader r.key.part 0 t).setLeader r.key.part 1 t else y.setLeader r.key.part i t

/-- A run begins on a port (R343): its members' handlers, if they stood at one, have been fetched (R348). -/
def State.startRun (s : State) (k : RunKey) (x : Cand) : State :=
  let r : Run := { x.run k with members := s.gather k x, lane := k.port % 2 }
  match s.portFor? k.col k.part r.ports r.lane with
  | none => s
  | some i => r.members.foldl (fun acc t => acc.updThread t fun y => { y with entering := none })
      { s.takePort r i with runs := s.runs ++ [r], turn := .run k }

/-- PICK_RUN (R343): the key names a port of a partition by its parity, and no run has it. Log entry 8, DEDUCED. -/
def execPickRun (k : RunKey) (s : State) : Host.Outcome State Fault Refusal :=
  if (s.col k.col).acts ∧ (s.run? k).isNone ∧ s.portFree k.col k.part (k.port % 2) then
    match s.choose k with
    | some x => .next (s.startRun k x)
    | none => .next s
  else .next s

/-! ## Parked runs and the parked sequencer (R342, 08 R222) -/

/-- The port with which a parked run goes on: the one that it still holds, the one that it had, or the other (R279,
R342). -/
def State.portAgain (s : State) (r : Run) : Option Nat :=
  if r.holds then some r.lane
  else s.portFor? r.key.col r.key.part r.ports r.lane <|> s.portFor? r.key.col r.key.part r.ports (1 - r.lane)

/-- A parked run takes a port again, at the same position with the same threads: it executes its word once more,
and parks again unless the word can complete (log entry 1). A run with a member that a workgroup fault stops does
not (R356). -/
def State.resumeRun (s : State) (k : RunKey) (ok : ParkWhy → Bool) : State :=
  match s.run? k with
  | none => s
  | some r =>
    let stopped := r.members.any fun t => (s.wg (s.crew t.cid).wid).fault.isSome
    if r.parked.any ok ∧ (s.col k.col).acts ∧ ¬ stopped then
      match s.portAgain r with
      | none => s
      | some i => { (s.takePort r i).updRun k fun x => { x with parked := none, lane := i } with turn := .run k }
    else s

/-- PARKED_RUN_RESUME (R342). -/
def execParkedRunResume (k : RunKey) (s : State) : Host.Outcome State Fault Refusal :=
  .next (s.resumeRun k fun _ => true)
/-- ENGINE_COUNTER_ROOM (R22). -/
def execEngineCounterRoom (k : RunKey) (s : State) : Host.Outcome State Fault Refusal :=
  .next (s.resumeRun k fun w => w == .engine)
/-- WAIT_TIME_EXPIRY (R161). Log entry 91, DESIGN CHOICE. -/
def execWaitTimeExpiry (k : RunKey) (s : State) : Host.Outcome State Fault Refusal :=
  .next (s.resumeRun k fun w => w == .time)
/-- TB_WAIT_TIMEOUT (R199): the word answers by the clocks that have passed since it parked.
Log entry 91, DESIGN CHOICE. -/
def execTbWaitTimeout (k : RunKey) (s : State) : Host.Outcome State Fault Refusal :=
  .next (s.resumeRun k fun w => w == .barrier)

/-- SEQUENCER_PARK_RESUME (R222): the sequencer executes its word once more. -/
def execSequencerParkResume (c : Nat) (s : State) : Host.Outcome State Fault Refusal :=
  .next (if (s.col c).acts ∧ (s.col c).seqr.running then
      { s.updCol c fun x => { x with seqr := { x.seqr with parked := none } } with turn := .seq c }
    else s)

/-! ## Instruction fetch (R348) -/

/-- The PC of a thread is the handler that its crew has entered, none of whose words has been fetched for a run yet
(R170, R348). Log entry 19, DEDUCED. -/
def Thread.atHandler (x : Thread) : Bool := x.entering == some x.pc

/-- A fetch that fails: the trap, or BAD_VECTOR at a handler (R348). Log entry 19, DEDUCED. -/
def State.fetchTrap (s : State) (x : Thread) (cause : Byte) (addr data : DWord) : State :=
  if x.atHandler then s.faultWg (s.crew x.cid).wid ⟨0xb3#8, 0, x.pc, 0, { crew := (s.crew x.cid).idx, tid := x.tid }, 0⟩
  else (s.raise x.ref ⟨cause, x.pc, addr, data⟩).settle

/-- TRAP_DATA of FETCH_RIGHTS and FETCH_ECC: the step in [39:32]. The spec names no word for [31:0], since none
was fetched. Log entry 19, DEDUCED. -/
def fetchData (step ctr : Nat) : DWord := stepData (Config.freeWord 12 ctr) step

/-- A thread's fetch: the next line that its run lacks (R278, R348). -/
def State.fetchFor (s : State) (x : Thread) : State :=
  let c := s.crewCol x.cid
  let l := s.crewLaunch x.cid
  let s' : State := { s with freeCtr := s.freeCtr + 1 }
  match s.fetchIa l.ctx x.pc, s.fetchRun l c x.pc with
  | .error st, _ => s'.fetchTrap x 0x0e#8 x.pc (fetchData st s.freeCtr)
  | .ok a, .missing _ ia => match s.fillLine c (ptrAdd x.pc (ia - a)) ia with
    | (.pageFault kind i, s1) =>
      let word := ptrAdd x.pc (ia - a)
      (s1.threadFault x.ref (s1.faultWhoThread x.ref word 8#8) kind i word ThreadWait.fetch).settle
    | (.ecc sec, _) => s'.fetchTrap x 0x0f#8 sec (fetchData 8 s.freeCtr)
    | (_, s1) => s1
  | .ok _, _ => s

/-- The threads of a column that have become ready count their age from now (R341). -/
def State.renewAges (s0 : State) (c : Nat) (s : State) : State :=
  let now (x : Thread) : Thread :=
    if s.crewCol x.cid == c && (s0.cand? (s0.thread x.ref)).isNone && (s.cand? x).isSome then
      { x with since := (s.col c).clock } else x
  { s with threads := s.threads.map now }

/-- INSTRUCTION_FETCH (R348), for a core that acts (R361). -/
def execInstructionFetch (t : TRef) (s : State) : Host.Outcome State Fault Refusal :=
  .next (if s.standing (s.thread t) ∧ (s.col (s.crewCol t.cid)).acts then s.renewAges (s.crewCol t.cid) (s.fetchFor (s.thread t)) else s)

/-! ## Results and boundary traps -/

/-- LONG_LATENCY_RESULT (R26): the oldest pending result of a thread that can land, unless its column has no power
(R361). -/
def execLongLatencyResult (t : TRef) (s : State) : Host.Outcome State Fault Refusal :=
  .next (if ¬ (s.col (s.crewCol t.cid)).acts then s
    else match (s.thread t).pend.findSome? fun p => s.landOne t p with
    | some s1 => s1.settle
    | none => s)

/-- TRAP_ENTRY (R169, R170). -/
def execTrapEntry (cid : Nat) (s : State) : Host.Outcome State Fault Refusal := .next (s.tryEnter cid).settle

/-- A boundary trap of a cause is taken (R182, R186, R220, R403). -/
def State.boundaryTrap (s : State) (t : TRef) (cause : Byte) : State :=
  if (s.col (s.crewCol t.cid)).acts ∧ (s.thread t).boundary.any (fun b => b.cause == cause) then (s.takeBoundary t).settle else s

/-- MEM_ECC (R182). -/
def execMemEcc (t : TRef) (s : State) : Host.Outcome State Fault Refusal := .next (s.boundaryTrap t 0x45#8)
/-- HOST_COMPLETION (R186). -/
def execHostCompletion (t : TRef) (s : State) : Host.Outcome State Fault Refusal :=
  .next (s.boundaryTrap t 0x48#8)
/-- MX_FEED (R220). -/
def execMxFeed (t : TRef) (s : State) : Host.Outcome State Fault Refusal := .next (s.boundaryTrap t 0x71#8)
/-- PEER_ACCESS_REFUSED (R403). -/
def execPeerAccessRefused (t : TRef) (s : State) : Host.Outcome State Fault Refusal :=
  .next (s.boundaryTrap t 0x44#8)

/-! ## Page walks (R274, R349) -/

/-- The threads that wait at the walker for an IA. Log entry 84, DEDUCED. -/
def State.atWalker (s : State) (ia : Nat) : List Thread :=
  s.threads.filter fun t => match t.wait with
    | .walker _ a .. => a == ia
    | _ => false

/-- A thread at the walker takes an entry, if there is room (R349). Log entry 84, DEDUCED. -/
def State.attachWalker (s : State) (kind : Nat) (x : Thread) : State :=
  match x.wait with
  | .walker _ ia access pc ea =>
    match s.openFault (s.faultWhoThread x.ref pc access) kind ia ea with
    | some (id, s1) => s1.updThread x.ref fun y =>
        { y with wait := if bit access 3 then .fetch id else .fault id }
    | none => s
  | _ => s

/-- PAGE_WALK (R274): a leaf enters the translation cache and frees the threads that wait for it; a fault attaches
them to an entry. Log entry 84, DEDUCED. -/
def execPageWalk (ctx ia : Nat) (space : BitVec 4) (write : Bool) (s : State) :
    Host.Outcome State Fault Refusal :=
  let a := ctx % 256 * 2 ^ 52 + ia % 2 ^ 52
  match s.translate a space.toNat write with
  | .at s1 _ => .next ((s1.atWalker a).foldl (fun acc x => acc.updThread x.ref fun y =>
      { y with wait := .ready, since := (acc.col (acc.crewCol x.cid)).clock }) s1)
  | .pageFault kind _ _ => .next ((s.atWalker a).foldl (fun acc x => acc.attachWalker kind x) s)

/-! ## Clocked counters of a column -/

/-- LOCALITY_LOSS_HALVING (R344): once for every 1,024 clocks of the column. -/
def execLocalityLossHalving (c part : Nat) (s : State) : Host.Outcome State Fault Refusal :=
  let n := (s.col c).halved[part]?.getD 0
  .next (if (n + 1) * 1024 ≤ (s.col c).clock then
      { s.updCol c fun x => { x with halved := x.halved.setIfInBounds part (n + 1) } with
        crews := s.crews.map fun x =>
          if x.part == part && s.crewCol x.cid == c then { x with loss := x.loss / 2 } else x }
    else s)

/-- A limit that governs a column's clock is exceeded (R331, R431, R432). Log entry 73, DESIGN CHOICE. -/
def State.columnOver (s : State) (x : Column) : Bool :=
  x.railOver || decide (s.tempLimit < x.temp) || decide (min s.limitW s.wattLimit < s.powerW)

/-- HW_LEVEL_RISE (R331). Log entry 73, DESIGN CHOICE. -/
def execHwLevelRise (c : Nat) (s : State) : Host.Outcome State Fault Refusal :=
  .next (s.updCol c fun x => if s.columnOver x ∧ x.hwLevel ≠ 15#4 then { x with hwLevel := x.hwLevel + 1 } else x)
/-- HW_LEVEL_FALL (R331). Log entry 73, DESIGN CHOICE. -/
def execHwLevelFall (c : Nat) (s : State) : Host.Outcome State Fault Refusal :=
  .next (s.updCol c fun x => if ¬ s.columnOver x ∧ x.hwLevel ≠ 0 then { x with hwLevel := x.hwLevel - 1 } else x)

/-- ENERGY_PERIOD_END (R332): for the latest multiple of PERIOD_NS that the PTP time has reached, once.
Log entry 73, DESIGN CHOICE. -/
def execEnergyPeriodEnd (s : State) : Host.Outcome State Fault Refusal :=
  let m := s.timeNs / s.framePeriod * s.framePeriod
  .next (if s.framePeriod ≠ 0 ∧ s.periodAt.all fun t => decide (t < m) then
      { s with
        columns := s.columns.map fun x => { x with energyLast := x.energyCur, energyCur := 0 }, periodAt := some m }
    else s)

end Sys2Proof.Machine
end

