-- ==== Sys2Proof/Machine/Recovery.lean ====
section
/-!
DEFINITION. Seals (10 R287 to R291), gating (13 R361, R362), loss and recovery of a core (R363, R364), released
stores and the persistent window (10 R291, R292), the patrol scrubber (R295), the vertical buses (R293) and soft
errors (13 R358).
-/

namespace Sys2Proof.Machine

/-! ## Seals (R288 to R290) -/

/-- SHADOW_WRITE_BEHIND (R288): the dirty blocks go, as they stand, into the slots that the latest valid seal does not
reference; while a seal is in progress, into the column's shadow buffer until it ends. Log entry 87, DEDUCED. -/
def execShadowWriteBehind (c : Nat) (s : State) : Host.Outcome State Fault Refusal :=
  let body := s.sealBody c
  .next (if (s.col c).awake then s.updCol c fun x =>
      let w : ShadowWrite := ⟨x.dirty body, body⟩
      if x.sealing.isSome then { x with shadowBuf := w :: x.shadowBuf } else { x with shadow := w :: x.shadow }
    else s)

/-- The reason of a seal that a core may capture now: one that was asked for, or firmware's (R289). -/
def State.sealWanted (s : State) (c : Nat) (reason : Byte) : Bool :=
  (s.col c).sealReqs.contains reason || reason == 3#8

/-- No run of a core executes: each is complete, or parked at a word (R290, R291). Log entry 78, DEDUCED. -/
def State.between (s : State) (c : Nat) : Bool :=
  s.runs.all fun r => r.key.col != c || r.parked.any fun w => w != .miss

/-- SEAL_CAPTURE (R290): the core's runs are complete and no seal is in progress. A gating seal stops the core's issue. -/
def execSealCapture (c : Nat) (reason : Byte) (s : State) : Host.Outcome State Fault Refusal :=
  let x := s.col c
  .next (if c < 96 ∧ x.acts ∧ x.sealing.isNone ∧ s.sealWanted c reason ∧ s.between c then
      (s.captureSeal c reason).updCol c fun y => { y with stopIssue := reason == 1#8 }
    else s)

/-- What a core without power forgets: its caches (R315). -/
def Column.unpowered (x : Column) : Column := { x with l1 := [], misses := [], icache := [], leaders := [], victims := [] }

/-- What follows a gating seal: the column is powered down, or issue resumes (R361). Log entry 72, DEDUCED. -/
def Column.afterGating (x : Column) : Column :=
  if x.gateReq then { x.unpowered with gated := true } else { x with stopIssue := false }

/-- SEAL_VALID (R290, R361). -/
def execSealValid (c : Nat) (s : State) : Host.Outcome State Fault Refusal :=
  match (s.col c).sealing with
  | none => .next s
  | some y =>
    let s1 := s.validateSeal c
    .next (if y.reason = 1#8 then s1.updCol c Column.afterGating else s1)

/-! ## Gating (R361, R362) -/

/-- Completions that were held take effect, in their order (R362). Log entry 72, DEDUCED. -/
def State.applyHeld (s : State) (c : Nat) : State :=
  let hs := (s.col c).heldDone
  hs.foldl (fun acc h => acc.completeOp h.1 h.2) (s.updCol c fun x => { x with heldDone := [] })

/-- COL_GATE_POWER_UP (R361): from the capture of its gating seal on the core acts no more (`Column.acts`), so that the
state which that seal restores, each thread's sealed PC, open region and held stores with it, is the state that stands;
and the stores that it recorded as released are those that LAST_APPLIED has not passed. Log entry 72, DEDUCED. -/
def execColGatePowerUp (c : Nat) (s : State) : Host.Outcome State Fault Refusal :=
  let x := s.col c
  if x.gated ∧ ¬ x.gateReq ∧ x.powered then
    .next ((s.updCol c fun y => { y with gated := false, stopIssue := false }).applyHeld c)
  else .next s

/-! ## Loss of a core's power and recovery (R363) -/

/-- The runs of a column are gone. -/
def State.dropColRuns (s : State) (c : Nat) : State := { s with runs := s.runs.filter fun r => r.key.col != c }

/-- COLUMN_SUPPLY_FAILURE (R363): the core's power goes, with the seal in progress, its store queues' released
entries and its caches; what the service layer has taken over stays (R315). Log entry 46, DEDUCED. -/
def execColumnSupplyFailure (c : Nat) (s : State) : Host.Outcome State Fault Refusal :=
  if c < 96 ∧ (s.col c).powered then
    .next ((s.updCol c fun x => { x.unpowered with
      lost := true, powered := false, gated := false, sealing := none, shadowBuf := [], sealReqs := []
      released := [], injArm := false }).dropColRuns c)
  else .next s

/-- The seal from which a core is recovered: the latest valid one, unless a check of it fails; then the one before it, if
none of the blocks that it references has been written since (R288, R290). Log entry 78, DEDUCED. -/
def Column.best (x : Column) : Option Seal :=
  match x.seals.filter (·.valid) with
  | [] => none
  | y :: ys =>
    if ¬ y.torn then some y
    else ys.head?.filter fun z => !z.torn && x.shadow.all fun w => w.blocks &&& (y.slots ^^^ z.slots) == 0

/-- A pending result as a resumed thread has it: an atomic that has been applied returns its recorded old value (R291), a
draw that has been delivered since its RESULT (R256, R441). Log entry 71, DEDUCED. -/
def State.restorePend (s : State) (c : Nat) (p : Pend) : Pend :=
  match p.val with
  | .draw id => match s.drawn.find? fun x => x.1 == id with
    | some x => { p with val := .words [x.2] }
    | none => p
  | .atomic n => if n ≤ (s.col c).lastApplied then { p with val := s.atomicResult c n p.n } else p
  | _ => p

/-- A thread of a restored workgroup: it starts at its sealed REGION_PC (R363), but one that was parked at a commit
point, which the seal holds, at that word; one that was to enter its handler enters it (R291). Elements that it had taken for the
word at which it stands stay with it (R201).
Log entry 71, DEDUCED. -/
def State.restoreThread (s : State) (c clock : Nat) (t : Thread) : Thread :=
  let entering := t.sealing.any fun x => x.pc == trapSeal
  { t with
    pc := if entering then t.regionPc else (t.sealing.map (·.pc)).getD t.regionPc
    jump := none, b := .replicate 8 .unwritten, raised := if entering then t.raised else none, wait := .ready
    qout := none, since := clock, lands := []
    sealing := t.sealing.map fun x => { x with valid := true }
    pend := t.pend.map (s.restorePend c) }

/-- An operation that a sealed crew counts: the service layer has completed it since, or it goes on (R315,
R362). Rays and fed rows are the core's own and stand as they were sealed. Log entry 71, DEDUCED. -/
def restoreOp (now : Crew) (o : EngOp) : EngOp :=
  if o.cls = .matrix ∨ o.cls = .traversal then o
  else { o with done := o.done || !now.ops.any fun x => x.id == o.id && !x.done }

/-- A crew of a restored workgroup: the held stores of open regions are discarded (R189, R363). -/
def State.restoreCrew (s : State) (c : Crew) : Crew :=
  { c with storeQ := [], vectorWait := none
           ops := retireOps [] (c.ops.map (restoreOp (s.crew c.cid))) }

/-- A workgroup of a seal as it is restored: what has been decided outside the core since stands. -/
def State.restoreWg (s : State) (w : Workgroup) : Workgroup :=
  let now := s.wg w.wid
  { w with fault := now.fault, judged := now.judged, chosen := now.chosen, applied := now.applied }

/-- The workgroups of a seal that are restored: resident at the seal, and not ended or stopped since (R363). -/
def State.restored (s : State) (c : Nat) (b : SealBody) : List Workgroup :=
  b.wgs.filter fun w => !(s.col c).endedSince.contains w.wid &&
    s.wgs.any (fun x => x.wid == w.wid && !x.faulted)

/-- Steps 3 and 4 of R363, for the workgroups named: the sealed blocks, and the released entries that the service
layer has not applied (R291). Log entry 71, DEDUCED. -/
def State.restoreFrom (s : State) (c : Nat) (y : Seal) (ws : List Workgroup) (applied : Nat) : State :=
  let b := y.body
  let mine (cid : Nat) : Bool := b.crews.any fun x => x.cid == cid && ws.any fun w => w.wid == x.wid
  let clock := (s.col c).clock
  let rest := s.mem.filter fun p => keyRegion p.1 != regScratch c
  let seqr : Sequencer := match b.seqr.owner with
    | some wid => if ws.any fun w => w.wid == wid then
        { b.seqr with parked := none, faultWait := none, waitsFor := none } else {}
    | none => {}
  let s1 : State := { s with
    pending := s.pending.map fun e => { e with attached := e.attached.filter fun a => match a with
      | .thread t => !mine t.cid
      | .vector cid => !mine cid
      | .sequencer k => k != c
      | .engine _ => true }
    freeCtr := s.freeCtr + 128
    mem := b.scratch.foldl (fun m p => memSet m p.1 p.2) rest
    threads := (s.threads.filter fun t => !mine t.cid) ++
      (b.threads.filter fun t => mine t.cid).map (s.restoreThread c clock)
    crews := (s.crews.filter fun x => !mine x.cid) ++ (b.crews.filter fun x => mine x.cid).map s.restoreCrew
    wgs := (s.wgs.filter fun x => !ws.any fun w => w.wid == x.wid) ++ ws.map s.restoreWg
    rays := (s.rays.filter fun r => s.crewCol r.cid != c) ++ b.rays.filter fun r => mine r.cid
    hits := (s.hits.filter fun h => s.crewCol h.cid != c) ++ b.hits.filter fun h => mine h.cid }
  s1.updCol c fun x => { x with
    seqr := seqr, released := b.released.filter fun r => decide (applied < r.seq), nextSeq := y.sqNext }

/-- The role-entry table that a resident workgroup started from. -/
def State.rolesOf (s : State) (w : Workgroup) : Roles :=
  if w.fromDeque then match s.recordNeed w.record with
    | .start r _ => r
    | _ => (s.launch w.lid).table
  else (s.launch w.lid).table

/-- A workgroup that is placed again where it stood, from the record that the service layer keeps (R363): its crews
and its sequencer program start over. -/
def State.restartWg (s : State) (w : Workgroup) : State :=
  let l := s.launch w.lid
  let roles := s.rolesOf w
  let clock := (s.col w.col).clock
  let idx : DWord := if w.task then BitVec.allOnes 64
    else match w.index with
      | some i => BitVec.ofNat 64 i
      | none => Config.freeDWord 11 s.freeCtr
  let g := startG w.record idx w.coords
  let pcOf (x : Crew) : DWord := if w.task then w.record.code else if x.producer then roles.prodPc else roles.consPc
  let fresh (x : Crew) : Crew :=
    { cid := x.cid, wid := x.wid, idx := x.idx, size := x.size, producer := x.producer, consumer := x.consumer
      allot := x.allot, part := x.part, g := g, gDone := g, mode := l.mode, placed := x.placed }
  let threads := (s.wgCrews w.wid).flatMap fun x => (List.range ((x.size + 3) / 4 * 4)).map
    (startThread x.cid ⟨x.producer, x.consumer, pcOf x, x.size, x.allot, x.part⟩
      (l.spOf w.task idx.toNat x.idx) clock)
  let again : Workgroup :=
    { wid := w.wid, lid := w.lid, index := w.index, coords := w.coords, col := w.col, scratchBase := w.scratchBase
      scratchSize := w.scratchSize, task := w.task, deadline := w.deadline, record := w.record
      tokens := w.tokens, hasSeq := w.hasSeq, copy := w.copy, fromDeque := w.fromDeque, placed := w.placed, part := w.part }
  let s1 := s.detachWg w.wid
  let s2 := if w.hasSeq then s1.updCol w.col fun x => { x with
      seqr := { holder := some w.wid, owner := some w.wid, running := true, pc := roles.seqPc, g := g } } else s1
  { s2 with
    freeCtr := s2.freeCtr + 1
    xe := s2.xe.map fun x => if x.wid == w.wid then
      { x with chans := x.chans.map fun ch => { ch with accepted := [] } } else x
    collAcc := s2.collAcc.filter fun a => !s.crewIn w.wid a.1.1
    rays := s2.rays.filter fun y => !s.crewIn w.wid y.cid
    hits := s2.hits.filter fun y => !s.crewIn w.wid y.cid
    threads := (s2.threads.filter fun t => !s.crewIn w.wid t.cid) ++ threads
    crews := s2.crews.map fun x => if x.wid == w.wid then fresh x else x
    wgs := s2.wgs.map fun x => if x.wid == w.wid then again else x }

/-- A workgroup that was placed after the seal on a sequencer which the restored program holds is placed again where there
is one free (R209, R236, R363): the dispatcher takes its record of the grid anew, a record of a deque goes back to its
core's. Log entry 71, DEDUCED. -/
def State.replaceWg (s : State) (w : Workgroup) : State :=
  let s1 := (s.detachWg w.wid).updWg w.wid fun x => { x with stash := [] }
  let s2 := s1.freeWg w.wid
  if w.fromDeque then s2.updCol w.col fun x =>
    if x.hasRoom then x.enqueue w.record else Column.askSeal 2 { x with yielded := x.yielded ++ [(0, w.record)] }
  else s2.updLaunch w.lid fun l => { l with placed := l.placed.erase (w.index.getD 0, w.copy) }

/-- A workgroup placed after the seal, placed again (R363). -/
def State.placeAgain (s : State) (w : Workgroup) : State :=
  if w.hasSeq ∧ (s.col w.col).seqr.holder.any (fun h => h != w.wid && s.wgs.any fun x => x.wid == h) then s.replaceWg w
  else s.restartWg w

/-- The KIND 3 record of R363 with GEN = the seal's SEQ. -/
def State.recoveryReport (s : State) (c : Nat) (seq : Nat) : State :=
  s.writeRecord { cause := 0xb9#8, kind := 3, who := whoWord 0 c 0 0, gen := BitVec.ofNat 32 seq, time := s.time }

/-- Issue resumes on a column; a seal is asked for while records of yields wait for one (R165). -/
def Column.resume (x : Column) : Column :=
  let y := { x with powered := true, stopIssue := false }
  if x.yielded.isEmpty then y else y.askSeal 2

/-- CORE_RECOVERY (R363). Log entry 71, DEDUCED. -/
def execCoreRecovery (c : Nat) (s : State) : Host.Outcome State Fault Refusal :=
  let x := s.col c
  if x.powered ∨ 96 ≤ c then .next s
  else
    let there := (s.colWgs c).filter fun w => !w.faulted
    match x.best with
    | none =>
      let s1 : State := { s with mem := s.mem.filter fun p => keyRegion p.1 != regScratch c }
      let s2 := there.foldl (fun acc w => acc.restartWg w) (s1.updCol c fun y => { y with seqr := {} })
      .next ((((s2.updCol c Column.resume).applyHeld c).recoveryReport c 0).settle)
    | some y =>
      let ws := s.restored c y.body
      let s1 := s.restoreFrom c y ws x.lastApplied
      let s2 := (there.filter fun w => !ws.any fun v => v.wid == w.wid).foldl (fun acc w => acc.placeAgain w) s1
      .next ((((s2.updCol c Column.resume).applyHeld c).recoveryReport c y.seq).settle)

/-- FIRMWARE_CORE_RESTORE (R364): after a loss of card power, the workgroups of the seal, with LAST_APPLIED read as
0; the launches that firmware gives back are the seal's. Log entry 71, DEDUCED. -/
def execFirmwareCoreRestore (c : Nat) (s : State) : Host.Outcome State Fault Refusal :=
  let x := s.col c
  match x.best with
  | none => .next s
  | some y =>
    if s.phase ≠ .live ∨ 96 ≤ c ∨ ¬ (s.colWgs c).isEmpty ∨ ¬ x.powered ∨ x.gated then .next s
    else
      let gone := y.body.launches.filter fun l => !s.launches.any fun k => k.lid == l.lid
      let s1 := { s with launches := s.launches ++ gone }.restoreFrom c y y.body.wgs 0
      .next (((s1.updCol c Column.resume).recoveryReport c y.seq).settle)

/-! ## Released stores and the persistent window (R291, R292) -/

/-- STORE_APPLIED (R291): the oldest store of a core that may be performed; one that the core itself still holds waits
while it has no power (R361, R363). -/
def execStoreApplied (c : Nat) (s : State) : Host.Outcome State Fault Refusal :=
  .next (if (s.col c).awake ∨ (s.col c).banked ≠ [] then s.applyHead c else s)

/-- The i-th write to the persistent window that is not durable may become so: no earlier one is to its sector, and no
earlier store of its thread before a persist fence is pending (R190, R292, R318). Log entry 21, DEDUCED. -/
def State.mayDurable (s : State) (i : Nat) (w : KeepWrite) : Bool :=
  ((s.keepQ.take i).all fun x => x.key / 16 != w.key / 16) && match w.by_ with
    | some t => !s.keepPending t w.epoch
    | none => true

/-- That write becomes durable: its sector is written whole (R292, R318). Log entry 21, DEDUCED. -/
def State.durable (s : State) (i : Nat) (w : KeepWrite) : State :=
  { s with
    keep := memSetBytes s.keep w.key w.data, keepQ := s.keepQ.take i ++ s.keepQ.drop (i + 1)
    keepDone := s.keepDone + 1 }

/-- The i-th write becomes durable if it may. Log entry 21, DEDUCED. -/
def State.durableAt (s : State) (i : Nat) : State :=
  match s.keepQ[i]? with
  | none => s
  | some w => if s.mayDurable i w then s.durable i w else s

/-- KEEP_SCOPE_DURABLE (R292): the oldest write to the persistent window that may become durable becomes so; an input
chooses another (log entry 1). Log entry 21, DEDUCED. -/
def execKeepScopeDurable (s : State) : Host.Outcome State Fault Refusal :=
  .next (match (List.range s.keepQ.length).find? fun i => (s.keepQ[i]?).any (s.mayDurable i) with
    | none => s
    | some i => s.durableAt i)

/-! ## The scrubber and the vertical buses (R293, R295) -/

/-- A KIND 3 record with the IA of a sector (R350, R358). -/
def State.eccReport (s : State) (ia : DWord) : State :=
  s.writeRecord { cause := 0x4e#8, kind := 3, addr := ia, time := s.time }

/-- The IA of a sector of G7 DRAM (R350): that by which a translation cache reaches it. Where none does, the spec names
none: a free value (log entry 67, DESIGN CHOICE). -/
def State.sectorIa (s : State) (k : Nat) : DWord :=
  let reach (t : TlbEntry) : Option Nat :=
    let base := leafKey t.level t.leaf 0
    if base ≤ k ∧ k < base + 2 ^ levelShift t.level then
      some (t.ctx * 2 ^ 52 + t.page * 2 ^ levelShift t.level + (k - base)) else none
  ((s.tlb.findSome? reach).map (BitVec.ofNat 64)).getD (Config.freeDWord 22 s.freeCtr)

/-- PATROL_SCRUB (R295): the scrubber reads a code word of G7 DRAM: a single-bit error is corrected and counted, an
uncorrectable one is logged. Log entry 67, DESIGN CHOICE. -/
def execPatrolScrub (addr : Nat) (s : State) : Host.Outcome State Fault Refusal :=
  let k := mkKey regDram (addr / 32 * 32)
  .next (if dramSize ≤ addr then s
    else if s.bad.contains k then
      { s with freeCtr := s.freeCtr + 1 }.eccReport (s.sectorIa (mkKey regDram (addr / 16 * 16)))
    else s.correct k)

/-- A bus fails its pattern twice in a row: it is retired; with a second failed bus the column is withdrawn, and
the host is told (R293). Log entry 77, DEDUCED. -/
def State.busFailed (s : State) (c bus : Nat) : State :=
  let x := s.col c
  if x.retired.getLsbD bus then s
  else if x.retired ≠ 0 ∧ ¬ x.withdrawn then
    (s.updCol c fun y => { y with withdrawn := true, lastFail := y.lastFail &&& ~~~ (1#9 <<< bus), retired := y.retired ||| (1#9 <<< bus) })
      |>.writeRecord { cause := 0xb8#8, kind := 3, who := whoWord 0 c 0 0, time := s.time }
  else s.updCol c fun y => { y with lastFail := y.lastFail &&& ~~~ (1#9 <<< bus), retired := y.retired ||| (1#9 <<< bus) }

/-- VERTICAL_BUS_TEST (R293): a pattern that ran to its end on a bus, 8 being the spare. Log entry 77, DEDUCED. -/
def execVerticalBusTest (c bus : Nat) (pass : Bool) (s : State) : Host.Outcome State Fault Refusal :=
  .next (if 96 ≤ c ∨ 9 ≤ bus then s
    else if pass then s.updCol c fun x => { x with lastFail := x.lastFail &&& ~~~ (1#9 <<< bus) }
    else if (s.col c).lastFail.getLsbD bus then s.busFailed c bus
    else s.updCol c fun x => { x with lastFail := x.lastFail ||| (1#9 <<< bus) })

/-! ## Soft errors (R358), and blocks of the rind that fail (R287) -/

/-- An uncorrectable error in a dirty sector of the device cache: the data is lost, memory keeps its earlier contents,
and it is logged (R358). -/
def State.dirtyError (s : State) (key ia : Nat) : State :=
  match (s.dcache.find? fun l => l.key == key / 128 * 128).bind fun l =>
      (l.sectors.find? fun x => x.1 == key % 128 / 16).bind (·.2) with
  | none => s
  | some old =>
    { s with mem := memSetBytes s.mem (key / 16 * 16) old, dcache := dcDrop key s.dcache }.eccReport (BitVec.ofNat 64 ia)

/-- A soft error (R358). Log entry 67, DESIGN CHOICE. -/
def State.softError (s : State) : SoftError → State
  | .memory key true =>
    if keyRegion key = regDram ∨ keyRegion key = regKeep then
      { s with weak := codeWord key :: s.weak.filter fun w => w != codeWord key }
    else s.countCe key
  | .memory key false => { s with
      bad := codeWord key :: s.bad.filter fun b => b != codeWord key
      weak := s.weak.filter fun w => w != codeWord key }
  | .registers _ true => s
  | .registers wid false => s.faultWg wid { cause := 0xb7#8 }
  | .pool c true => s.updCol c fun x => { x with poolCe := satInc x.poolCe }
  | .pool _ false => s
  | .dirty key ia => s.dirtyError key ia
  | .shadow c seq => s.updCol c fun x => { x with
      seals := x.seals.map fun y => if y.seq == seq then { y with torn := true } else y }
  | .line c n => s.updCol c fun x => { x with
      l1 := x.l1.filter fun l => l.line != n, icache := x.icache.filter fun l => l.1 != n }

/-! ## The layout of the rind (R287) -/

/-- An area of shadows: its first byte in the rind, how many blocks of 512 B it has for a core and a slot. -/
structure ShadowArea where
  base : Nat
  blocks : Nat
  deriving DecidableEq, Repr
/-- The areas, in the table's order, which is that of a core's block numbers: lane registers, uniform registers, control
state, engine state, scratchpad (R287). Log entry 98, DESIGN CHOICE. -/
def shadowAreas : List ShadowArea :=
  [⟨0, 3072⟩, ⟨0x12000000, 388⟩, ⟨0x14800000, 768⟩, ⟨0x19800000, 128⟩, ⟨0x1a800000, 8192⟩]

/-- The byte of the rind at which a block of a core lies in a slot, B where `slot` is true (R287). The order of cores and
slots in an area the spec does not say. Log entry 98, DESIGN CHOICE. -/
def shadowAt (core : Nat) (slot : Bool) : Nat → List ShadowArea → Option Nat
  | _, [] => none
  | b, a :: as =>
    if b < a.blocks then some (a.base + 512 * ((2 * core + b2n slot) * a.blocks + b))
    else shadowAt core slot (b - a.blocks) as

/-- A core's seal journal (R287, R289): its first byte, a manifest slot, an entry of the ring of records. Log entry 98,
DESIGN CHOICE. -/
def journalAt (core : Nat) : Nat := 0x4a800000 + 131072 * core
def manifestAt (core mslot : Nat) : Nat := journalAt core + 57344 * mslot
def sealRecordAt (core seq : Nat) : Nat := journalAt core + 114688 + 64 * (seq % 256)
/-- The first byte of the persistent window in the rind (R287). -/
def windowAt : Nat := 0x60000000

/-- The first spare block of the rind, and how many there are (R287). -/
def spareFirst : Nat := 0x4b800000 / 512
def spareBlocks : Nat := 328 * 2048

/-- The block in which a block of the rind lies: itself, or the spare block that stands in for it (R287). -/
def State.rindBlock (s : State) (block : Nat) : Nat :=
  ((s.spares.find? fun p => p.1 == block).map (·.2)).getD block
/-- A block of the rind, or the spare that stands in for it, fails its write verification: the next spare block is mapped in
its place (R287). Log entry 98, DESIGN CHOICE. -/
def State.spare (s : State) (block : Nat) : State :=
  if 2 ^ 22 ≤ block ∨ (spareFirst ≤ block ∧ block < spareFirst + spareBlocks) ∨ spareBlocks ≤ s.spares.length then s
  else { s with spares := (block, spareFirst + s.spares.length) :: s.spares }

end Sys2Proof.Machine
end

