-- ==== Sys2Proof/Machine/Power.lean ====
section
/-!
DEFINITION. The power of the card: its inputs and limits (18 R430 to R432), cold reset and what survives it (R433,
11 R315), PERST# and the PCIe links (R434), and the bring-up sequence with the defaults that firmware installs (R435 to
R437).
-/

namespace Sys2Proof.Machine

/-! ## The inputs (R430) -/

/-- The capability of an input, or none when it is absent (R430). -/
def Sense.watts : Sense → Option Nat
  | .w600 => some 600 | .w450 => some 450 | .w300 => some 300 | .w150 => some 150 | .absent => none
/-- The card limit L; with an input absent, none that lets the card leave reset (R430). -/
def cardLimit (in0 in1 : Sense) : Nat :=
  match in0.watts, in1.watts with
  | some x, some y => min 800 (75 + x + y)
  | _, _ => 0
/-- One of the two inputs. -/
def State.input (s : State) (i : Nat) : PowerIn := s.inputs[i]?.getD {}
/-- L as the SENSE pins give it now. Log entry 74, DEDUCED. -/
def State.pinLimit (s : State) : Nat := cardLimit (s.input 0).sense (s.input 1).sense

/-! ## Cold reset and loss of power -/

/-- What a column keeps: its seals in the rind, and what has been written behind them (R292, R433); what its sensor
reads. Log entry 74, DEDUCED. -/
def Column.afterReset (x : Column) : Column := { ({} : Column) with seals := x.seals, shadow := x.shadow, temp := x.temp }

/-- The bytes that a loss of card power leaves: the durable contents of the persistent window, and what other
devices hold (R292, R315). Log entry 74, DEDUCED. -/
def State.memAfterReset (s : State) : List Host.Cell :=
  s.keep.foldl (fun m p => memSet m p.1 p.2)
    (s.mem.filter fun p => decide (2 ≤ keyRegion p.1 ∧ keyRegion p.1 ≤ 34))

/-- Cold reset: every register has its Reset value, the PCIe links are down, the SENSE pins are read; the rind, the
firmware banks and the world around the card stand (R426, R430, R433). A card whose power has been removed stays
without it (R431). Log entry 74, DEDUCED. -/
def State.coldReset (s : State) : State :=
  { State.reset with
    agenda := s.agenda, freeCtr := s.freeCtr, nextId := s.nextId, ticks := s.ticks, outbox := s.outbox
    hostErrs := s.hostErrs
    bad := s.bad.filter fun k => decide (1 ≤ keyRegion k ∧ keyRegion k ≤ 34)
    weak := s.weak.filter fun k => decide (1 ≤ keyRegion k ∧ keyRegion k ≤ 34)
    mem := s.memAfterReset, keep := s.keep, keepDone := s.keepDone, spares := s.spares
    columns := s.columns.map Column.afterReset
    banks := s.banks, activeBank := s.activeBank
    inputs := s.inputs, powerW := s.powerW, cardTemp := s.cardTemp, latched := s.latched
    limitW := if s.phase = .off then 0 else s.pinLimit
    phase := if s.phase = .off then .off else .held }

/-- COLD_RESET (R433). Log entry 74, DEDUCED. -/
def execColdReset (s : State) : Host.Outcome State Fault Refusal := .next s.coldReset

/-- An input as the card loses its power: from now on it counts whether it leaves its limits, and whether it is
removed (R431, R432). -/
def PowerIn.cut (p : PowerIn) : PowerIn :=
  { p with left := !p.inLimits || p.sense == .absent, removed := p.sense == .absent }

/-- The card removes power (R431, R432). -/
def State.powerOff (s : State) : State :=
  { s.coldReset with
    phase := .off, limitW := 0, powerW := 0, inputs := if s.phase = .off then s.inputs else s.inputs.map PowerIn.cut }

/-- INPUT_UNDERVOLTAGE (R431): an input has stayed below 11.0 V for 1 ms. -/
def execInputUndervoltage (s : State) : Host.Outcome State Fault Refusal := .next s.powerOff

/-- A sensor has reached the temperature at which the card removes power (R432). -/
def State.tooHot (s : State) : Bool :=
  decide (s.tempCut ≤ s.cardTemp) || s.columns.toList.any fun x => decide (s.tempCut ≤ x.temp)
/-- OVER_TEMPERATURE (R432): such a sensor has stood there for 10 µs; the card latches off. -/
def execOverTemperature (s : State) : Host.Outcome State Fault Refusal :=
  .next (if s.tooHot then { s.powerOff with latched := true } else s)

/-- An input lets the card start again: it has left its limits and is within them; where the card is latched off, it has
been removed as well (R431, R432). -/
def PowerIn.ready (latched : Bool) (p : PowerIn) : Bool :=
  p.left && p.inLimits && p.sense != .absent && (!latched || p.removed)

/-- The inputs have changed: a card without power starts again once both let it; one that is held reads its SENSE pins
(R430 to R432). Log entry 74, DEDUCED. -/
def State.inputsChanged (s : State) : State :=
  match s.phase with
  | .off =>
    if s.inputs.toList.all (PowerIn.ready s.latched) then
      { s.coldReset with phase := .held, latched := false, limitW := s.pinLimit }
    else s
  | .held => { s with limitW := s.pinLimit }
  | _ => s

/-- What the SENSE pins of an input say from now on; an absent input is removed (R430). -/
def PowerIn.setSense (x : Sense) (p : PowerIn) : PowerIn :=
  { p with sense := x, left := p.left || x == .absent, removed := p.removed || x == .absent }
/-- The SENSE pins of the two inputs (R430). -/
def State.sense (s : State) (in0 in1 : Sense) : State :=
  State.inputsChanged { s with inputs := #v[(s.input 0).setSense in0, (s.input 1).setSense in1] }

/-- The voltage of an input is within its limits, or not, from now on (R431). -/
def PowerIn.supply (ok : Bool) (p : PowerIn) : PowerIn := { p with inLimits := ok, left := p.left || !ok }
/-- The voltages of the two inputs (R431). -/
def State.supply (s : State) (ok0 ok1 : Bool) : State :=
  State.inputsChanged { s with inputs := #v[(s.input 0).supply ok0, (s.input 1).supply ok1] }

/-- A sensor reads a temperature: a column's, or another one (R331, R432). -/
def State.sensor (s : State) (c : Option Nat) (deg : Nat) : State :=
  match c with
  | some c => s.updCol c fun x => { x with temp := deg }
  | none => { s with cardTemp := deg }

/-- Firmware lowers limits; it cannot raise one (R331, R432). Log entry 73, DESIGN CHOICE. -/
def State.lowerLimits (s : State) (watts deg cut : Nat) : State :=
  { s with wattLimit := min s.wattLimit watts, tempLimit := min s.tempLimit deg, tempCut := min s.tempCut cut }

/-! ## The PCIe links: PERST# and configuration requests (R434, R435) -/

/-- PERST# of one of two split ports, while the other port's link is up. Log entry 74, DEDUCED. -/
def State.portReset (s : State) : Port → State
  | .a => { s with pgA := {}, stagedA := none, portAUp := false }
  | .b => { s with pgB := {}, stagedB := none, portBUp := false }

/-- PERST (R434): which of the two ports assert it in this clock. Log entry 74, DEDUCED. -/
def execPerst (a b : Bool) (s : State) : Host.Outcome State Fault Refusal :=
  .next (if s.merged then (if a then s.coldReset else s)
    else match a, b with
      | true, true => s.coldReset
      | true, false => if s.portBUp then s.portReset .a else s.coldReset
      | false, true => if s.portAUp then s.portReset .b else s.coldReset
      | false, false => s)

/-- The links of the PCIe ports: they train while the card has power and is not held by R430; the ports are merged or
split only while both are down (R413, R430). -/
def State.hostLinks (s : State) (a b merge : Bool) : State :=
  let train := s.phase != .off && decide (500 ≤ s.limitW)
  { s with
    portAUp := a && train, portBUp := b && train
    merged := if s.portAUp || s.portBUp then s.merged else merge }

/-- A PCIe configuration request: it completes with Retry Status until the card is live (R435). -/
def State.configRequest (s : State) (p : Port) : State :=
  if s.linkUp p then { s with outbox := s.outbox ++ [.config p (s.phase != .live)] } else s

/-! ## Bring-up (R435) -/

/-- A front-end image verifies (R426, R435). The bytes of the images that the card comes with are not in the spec: one
without an envelope verifies. Log entry 113, DESIGN CHOICE. -/
def Image.boots (im : Image) : Bool := im.head.isEmpty || !envelopeBad im.head 1 && imageOk im.head im.body

/-- The contents of a firmware bank are what some bytes say, from outside the machine. Log entry 113, DESIGN CHOICE. -/
def State.bankImage (s : State) (i : Nat) (head body : List Byte) : State :=
  { s with banks := s.banks.setIfInBounds i (Image.parse head body) }

/-- The bank whose front-end image verifies: the active one, or else the other (R435 step 2).
Log entry 113, DESIGN CHOICE. -/
def State.bootBank (s : State) : Option Nat :=
  let ok (i : Nat) : Bool := (s.banks[i]?.getD {}).boots
  if ok s.activeBank then some s.activeBank else if ok (1 - s.activeBank) then some (1 - s.activeBank) else none

/-- Where firmware's tables lie (R436). -/
def fwTables : Nat := 0x1df0000000
/-- The page table of context 0: two root entries and 120 leaves (R436). Log entry 75, DEDUCED. -/
def fwPages (m : List Host.Cell) : List Host.Cell :=
  let leaves := (List.range 120).flatMap fun g => toLe 8 (g * 2 ^ 30 + 7)
  memSetBytes (memSetBytes m (mkKey regDram fwTables) (toLe 8 (fwTables + 0x80001) ++ toLe 8 (fwTables + 0x80201)))
    (mkKey regDram (fwTables + 0x80000)) leaves
/-- The bounds table of context 0 (R436). Log entry 75, DEDUCED. -/
def fwBounds (m : List Host.Cell) : List Host.Cell :=
  memSetBytes m (mkKey regDram (fwTables + 0x100000)) (toLe 8 0 ++ toLe 8 0x1defffffff ++ toLe 8 0x8f)

/-- Context 0 (R436). Log entry 75, DEDUCED. -/
def fwContext : Context :=
  { num := 0, root := fwTables, boundsAddr := BitVec.ofNat 64 (fwTables + 0x100000)
    ranges := (Vector.replicate 8 {}).set 0 { limit := 0x1dffff0000#64, ctl := 0x8f#64 }
    bounds := { lo := 0, hi := 0x1defffffff, ctl := 0x8f#8 } :: List.replicate 255 {} }
/-- Queue 0 (R436). -/
def fwQueue : Queue :=
  { installed := true, ring := 0, slots := 64, ctx := 0, ownerSem := 255, admin := true, program := 0
    errAt := 0x2000, record := List.replicate 128 0 }
/-- Program 0 (R437). Its digest is that of a body that the spec does not give. -/
def fwProgram (ctr : Nat) : CurdProgram :=
  { num := 0, entryPkt := 0, entryDone := none
    ops := [0x10100000#32, 0x1e210000#32, 0x10300008#32, 0x20300002#32, 0x14230000#32, 0x24000000#32]
    digest := (List.range 32).map fun i => Config.freeByte 16 (ctr + i) }

/-- The defaults that firmware installs, and its policy's tokens and costs, which the spec leaves to it (R435 to
R437). Log entry 75, DEDUCED. -/
def State.installDefaults (s : State) (bank : Nat) : State :=
  let zeroed := s.mem.filter fun p => keyRegion p.1 != regDram
  { s with
    activeBank := bank
    bad := s.bad.filter fun k => keyRegion k != regDram
    weak := s.weak.filter fun k => keyRegion k != regDram
    mem := fwBounds (fwPages zeroed)
    contexts := [fwContext]
    queues := s.queues.set 0 fwQueue
    programs := [fwProgram s.freeCtr]
    pwrTokens := (Config.freeDWord 14 s.freeCtr).toNat % 2 ^ 20
    pwrCost := Vector.ofFn fun (i : Fin 16) => (Config.freeWord 15 (s.freeCtr + i.val)).toNat % 65536
    freeCtr := s.freeCtr + 32
    phase := .live }

/-- BRING_UP (R430, R435): a card limit below 500 W keeps the card in reset; where no bank verifies, it stays at its
second step. -/
def execBringUp (s : State) : Host.Outcome State Fault Refusal :=
  .next (match s.phase with
    | .off | .live | .step _ => s
    | .held =>
      if s.limitW < 500 then s
      else match s.bootBank with
        | some b => s.installDefaults b
        | none => { s with phase := .step 2 })

end Sys2Proof.Machine
end

