-- ==== Sys2Proof/Machine/Sampling.lean ====
section
/-!
DEFINITION. The sampling unit (09 R253 to R257): contexts, logits, draws and the passes of a sharded
vocabulary.
-/

namespace Sys2Proof.Machine

/-! ## Issue -/

/-- The configuration that smp.cfg reads, and its checks of R254 from subcode 2 on. -/
def SmpCfg.parse (bs : List Byte) : SmpCfg :=
  { vocab := natAt bs 20 4, temp := wAt bs 24, topk := natAt bs 28 4, topp := wAt bs 32
    pass := natAt bs 36 4 % 4, first := natAt bs 40 4, count := natAt bs 44 4, bsumAt := dwAt bs 48 }

/-- A value above zero; NaN is not. -/
def Ex.positive (x : Ex) : Bool := Ex.zero.lt x
/-- A finite value. -/
def Ex.finite : Ex → Bool
  | .fin .. => true | _ => false

/-- The blocks of a vocabulary (R256). -/
def SmpCfg.blocks (c : SmpCfg) : Nat := (c.vocab + 255) / 256

/-- The lowest subcode of R254 that the fields give, if any. -/
def SmpCfg.err (c : SmpCfg) (resv : Bool) : Option Byte :=
  ([(decide (c.vocab = 0 ∨ 2 ^ 24 < c.vocab), 2#8),
    (!((f32 c.temp).finite && (f32 c.temp).positive), 3#8),
    (decide (1024 < c.topk) || (c.pass == 0 && !(f32 c.topp).positive), 4#8),
    (c.pass != 0 && (c.topk != 0 || decide (c.blocks < c.first + c.count)), 5#8),
    (resv, 6#8)].find? (·.1)).map (·.2)

/-- smp.cfg for one thread (R254). -/
def smpCfgThread (a : Code) (r : Run) (s : State) (t : TRef) : ThrRes :=
  let e := s.env r t.cid
  let x := s.thread t
  let p := e.read64 x a
  if x.helper then .ok ((s.commitAt r t).updThread t fun y => y.writeNone e)
  else if ¬ ptrOk p 64 then .trap s (r.trap 0x77#8 1#8 (some p))
  else match s.issueRead r t p 64 with
    | .error res => res
    | .ok (s1, bs) =>
      let c := SmpCfg.parse bs
      match c.err (decide (3 < natAt bs 36 4)) with
      | some sub => .trap s (r.trap 0x77#8 sub (some p))
      | none =>
        let key := s1.smpKey t.cid p
        s1.issue r t fun s2 =>
          let (n, s3) := s2.fresh
          let s4 : State := if (s2.smpCtx? key).isSome then s2
            else { s3 with smps := { key := key, cfg := c, op := n } :: s3.smps }
          .ok ((s4.smpDo key fun y => { y with work := y.work ++ [.cfg ⟨(s.crew t.cid).wid, p⟩ c] }).updThread t
            fun y => y.writeNone e)

/-- smp.cfg (R254). -/
def execSmpCfg (a : Code) (s : State) : Host.Outcome State Fault Refusal := s.lanes (smpCfgThread a)

/-- A command on a context that has passed smp.cfg (R254 subcode 7). Log entry 35, DEDUCED. -/
def smpIssue (a : Code) (r : Run) (s : State) (t : TRef) (f : State → Nat → Nat → CtxRef → State) : ThrRes :=
  let p := (s.env r t.cid).read64 (s.thread t) a
  let key := s.smpKey t.cid p
  if (s.smpCtx? key).isNone then .trap s (r.trap 0x77#8 7#8 (some p))
  else s.handOver r t .sampling fun s1 id => f s1 key id ⟨(s.crew t.cid).wid, p⟩

/-- smp.push for one thread (R255). Log entry 35, DEDUCED. -/
def smpPushThread (a : Code) (b : BSrc) (r : Run) (s : State) (t : TRef) : ThrRes :=
  let e := s.env r t.cid
  let x := s.thread t
  if x.helper then .ok ((s.commitAt r t).updThread t fun y => y.writeNone e)
  else smpIssue a r s t fun s1 key id at_ =>
    (s1.updSmp key fun c => { c with work := c.work ++ [.push id t.cid at_ (e.readB64 x b)] }).updThread t fun y =>
      y.writeNone e

/-- smp.push (R255). -/
def execSmpPush (a : Code) (b : BSrc) (s : State) : Host.Outcome State Fault Refusal :=
  s.lanes (smpPushThread a b)

/-- smp.draw for one thread (R256). -/
def smpDrawThread (d a : Code) (r : Run) (s : State) (t : TRef) : ThrRes :=
  let e := s.env r t.cid
  if (s.thread t).helper then .ok ((s.commitAt r t).updThread t fun y => y.writeLong e d 1 (.words [0]))
  else smpIssue a r s t fun s1 key id at_ =>
    (s1.updSmp key fun c => { c with work := c.work ++ [.draw id t at_] }).updThread t fun y =>
      y.writeLong e d 1 (.draw id)

/-- smp.draw (R256). -/
def execSmpDraw (d a : Code) (s : State) : Host.Outcome State Fault Refusal := s.lanes (smpDrawThread d a)

/-! ## Pushes -/

/-- The context of an operation. -/
def State.smpOf (s : State) (id : Nat) : Option SmpCtx := s.smps.find? fun c => c.work.any fun w =>
  match w with
  | .push i .. | .draw i .. => i == id
  | _ => false

/-- The words of some bytes. -/
def bytesWords (bs : List Byte) : List Word := (List.range (bs.length / 4)).map fun i => wAt bs (4 * i)

/-- A context changed by an operation of the unit, its RECEIVED written, then what it can do (R253, R255). -/
def State.smpEnd (s : State) (c : SmpCtx) (a : CtxRef) (f : SmpCtx → SmpCtx) : State :=
  ((s.updSmp c.key f).smpPoke a 60 (f c).logits.length).smpPump c.key

/-- A piece of work is done, and nothing of it is kept. -/
def SmpCtx.drop (id : Nat) (w : SmpWork) (c : SmpCtx) : SmpCtx :=
  { c with work := c.work.erase w, lost := c.lost.filter fun x => x.1 != id }

/-- A push ends: its logits are received, its operation retires (R242, R255). -/
def State.endPush (s : State) (c : SmpCtx) (id cid : Nat) (a : CtxRef) (addr : DWord) (ws : List Word) (bad : Bool) :
    State :=
  let s1 := if bad then s.smpPoke a 56 0xfffffffd else s
  let fin (x : SmpCtx) : SmpCtx := { x.drop id (.push id cid a addr) with failed := x.failed || bad }.receive ws
  ((s1.smpEnd c a fin).completeOp cid id).dropEng id

/-- An access of an operation has met a page that failed for good (R353, R354). -/
def SmpCtx.isLost (c : SmpCtx) (id : Nat) (p : DWord → Bool) : Bool := c.lost.any fun x => x.1 == id && p x.2

/-- The end of an operation of the unit, `f`, once it can write the context's fields, or once their own page has failed
for good (R253, R349, R353, R362). -/
def State.smpWhenReady (s : State) (c : SmpCtx) (id : Nat) (a : CtxRef) (f : State → State) : State :=
  if c.isLost id fun p => p == ptrAdd a.ptr 56 then f s
  else match s.smpCan a with
    | .ok => f s
    | .wait s1 => s1
    | .fault k ia ea => s.engFault id a.wid k ia ea 2#8

/-- What an operation of the unit does next: it waits for a page, notes one that has failed for good, or goes on. -/
def State.smpTurn (s : State) (c : SmpCtx) (id : Nat) (f : State) : State :=
  if ¬ s.engFree id then s
  else if (s.eng id).failed.isSome then
    let p := ((s.eng id).refaults.head?.map (·.1)).getD 0
    (s.engQuit id).updSmp c.key fun x => { x with lost := (id, p) :: x.lost }
  else f

/-- SMP_PUSH_COMPLETION (R242, R255): the push whose turn it is has read every logit. A read that fails
counts the values that it did not read. -/
def execSmpPushCompletion (id : Nat) (s : State) : Host.Outcome State Fault Refusal :=
  .next (match s.smpOf id with
    | none => s
    | some c => match SmpCtx.nextPush c.full c.work with
      | some (.push i cid a addr) =>
        let n := c.cfg.total - c.logits.length
        let fin (s : State) (ws : List Word) (bad : Bool) : State :=
          s.smpWhenReady c id a fun s1 => s1.endPush c id cid a addr ws bad
        let bad (s : State) : State := fin s (List.replicate n 0) true
        if i ≠ id then s
        else s.smpTurn c id (
          if (n ≠ 0 ∧ ptrOff addr % 4 ≠ 0) ∨ c.isLost id (fun p => p != ptrAdd a.ptr 56) then bad s
          else match s.engRead a.wid addr (4 * n) with
            | .ok s1 bs => fin s1 (bytesWords bs) false
            | .fail s1 _ _ => bad s1
            | .wait s1 => s1
            | .fault s1 k ia ea => s1.engFault id a.wid k ia ea 1#8)
      | _ => s)

/-! ## The arithmetic of a draw -/

/-- rnd of an exact value, as a value. -/
def rv (x : Ex) : Ex := f32 (rnd x)
/-- A sum rounded once. Log entry 81, DEDUCED. -/
def addRv (a b : Ex) : Ex := rv (.sum false [a, b])
/-- A sequential sum from +0 (R256). -/
def seqSum (xs : List Ex) : Ex := xs.foldl addRv .zero
/-- Blocks of 256, at most `n` of them. -/
def blocksOf : Nat → List Ex → List (List Ex)
  | 0, _ => []
  | n + 1, xs => if xs.isEmpty then [] else xs.take 256 :: blocksOf n (xs.drop 256)
/-- bs (R256). Log entry 36, DEDUCED. -/
def blockSums (w : List Ex) : List Ex := (blocksOf (w.length / 256 + 1) w).map seqSum
/-- pre[b]: the sequential sum of the first b block sums. Log entry 36, DEDUCED. -/
def preSum (bs : List Ex) (b : Nat) : Ex := seqSum (bs.take b)
/-- total(w) (R256). Log entry 36, DEDUCED. -/
def totalOf (w : List Ex) : Ex := seqSum (blockSums w)

/-- 2^y, exactly enough to be rounded once (R256). Log entry 36, DEDUCED. -/
def pow2Ex : Ex → Ex
  | .nan => .nan
  | .inf n => if n then .zero else .inf false
  | .fin n a b => exp2Ex (signed n a * fxOne / b)

/-- The weight of a member of C (R256). -/
def weightOf (z m : Ex) : Ex := rv (pow2Ex (rv ((Ex.sum false [z, m.negate]).mul (f32 0x3fb8aa3b#32))))

/-- The scaled logits; NaN is −∞ (R256). -/
def scaled (temp : Word) (ls : List Word) : List Ex :=
  ls.map fun l => match rv ((f32 l).div (f32 temp)) with
    | .nan => .inf true
    | x => x

/-- Indices in descending order of a key, ties to the lower index. -/
def descending (key : Nat → Ex) (is : List Nat) : List Nat :=
  is.mergeSort fun i j => !(key i).lt (key j)

/-- The element of a list of values. -/
def nth (xs : List Ex) (i : Nat) : Ex := xs.getD i .zero

/-- C with top-k (R256), in ascending order. -/
def members (z : List Ex) (topk : Nat) : List Nat :=
  let c := (List.range z.length).filter fun i => nth z i != .inf true
  if topk = 0 then c
  else
    let top := (descending (nth z) c).take topk
    c.filter top.contains

/-- The weights after top-p (R256): `c` is the running sum over the members in order of p. -/
def topP (limit s : Ex) : List Nat → Ex → List Ex → List Ex
  | [], _, w => w
  | i :: is, c, w =>
    if limit.le c then topP limit s is c (w.set i .zero)
    else topP limit s is (addRv c (rv ((nth w i).div s))) w

/-- The maximum of some values. -/
def maxEx (xs : List Ex) : Ex := xs.foldl (fun m x => if m.lt x then x else m) (.inf true)

/-- The draw's 32 random bits (R256). -/
def smpBits (ctx : List Byte) : Word := philox (wAt ctx 8) (wAt ctx 12) (wAt ctx 16) 3 (dwAt ctx 0)

/-- target (R256). -/
def targetOf (x : Word) (s : Ex) : Ex := rv ((Ex.fin false (2 * (x.toNat / 256) + 1) (2 ^ 25)).mul s)

/-- The first index of a block with weight above zero and a cumulative sum above the target, with the last
index of positive weight: `pre` the sum before the block, `acc` the sum inside it. -/
def findIn (pre target : Ex) : List Ex → Nat → Ex → Option Nat → Option Nat × Option Nat
  | [], _, _, last => (none, last)
  | w :: ws, i, acc, last =>
    let acc' := addRv acc w
    if w.positive then
      if target.lt (addRv pre acc') then (some i, some i) else findIn pre target ws (i + 1) acc' (some i)
    else findIn pre target ws (i + 1) acc' last

/-- The token over all blocks (R256): none when no weight is positive. -/
def findToken (target : Ex) : List (List Ex) → Nat → Ex → Option Nat → Option Nat
  | [], _, _, last => last
  | b :: bs, i, pre, last =>
    match findIn pre target b i .zero last with
    | (some j, _) => some j
    | (none, last') => findToken target bs (i + b.length) (addRv pre (seqSum b)) last'

/-- A token, or 0xFFFF_FFFE (R256). -/
def tokenWord : Option Nat → Word
  | some i => BitVec.ofNat 32 i
  | none => 0xfffffffe#32

/-- The weights of the members of C; the others are zero. -/
def weights (z : List Ex) (c : List Nat) (m : Ex) : List Ex :=
  c.foldl (fun w i => w.set i (weightOf (nth z i) m)) (List.replicate z.length .zero)

/-- Pass 0 (R256). -/
def pass0 (c : SmpCfg) (logits : List Word) (x : Word) : Word :=
  let z := scaled c.temp logits
  let cs := members z c.topk
  if cs.isEmpty then 0xfffffffe#32
  else
    let w := weights z cs (maxEx (cs.map (nth z)))
    let w' := if (f32 c.topp).lt (.fin false 1 1) then
        let s := totalOf w
        topP (f32 c.topp) s (descending (fun i => rv ((nth w i).div s)) cs) .zero w
      else w
    tokenWord (findToken (targetOf x (totalOf w')) (blocksOf (w'.length / 256 + 1) w') 0 .zero none)

/-- Pass 1: m over the shard (R257). -/
def pass1 (c : SmpCfg) (logits : List Word) : Word :=
  let z := scaled c.temp logits
  let cs := members z 0
  if cs.isEmpty then 0xff800000#32 else rnd (maxEx (cs.map (nth z)))

/-- The weights of a shard with GMAX (R257). -/
def shardWeights (c : SmpCfg) (logits : List Word) : List Ex :=
  let z := scaled c.temp logits
  weights z (members z 0) (f32 c.topp)

/-- The block that pass 3 picks (R257). -/
def pickBlock (bs : List Ex) (target : Ex) : Option Nat :=
  let is := List.range bs.length
  match is.find? fun b => target.lt (addRv (preSum bs b) (nth bs b)) with
  | some b => some b
  | none => (is.filter fun b => !(nth bs b).isZero).getLast?

/-- Pass 3, once the table is read (R257). -/
def pass3 (c : SmpCfg) (logits : List Word) (bs : List Ex) (x : Word) : Word :=
  let target := targetOf x (seqSum bs)
  match pickBlock bs target with
  | none => 0xfffffffe#32
  | some b =>
    if c.first ≤ b ∧ b < c.first + c.count then
      let w := ((shardWeights c logits).drop (256 * (b - c.first))).take 256
      match findIn (preSum bs b) target w (256 * b) .zero none with
      | (some j, _) => tokenWord (some j)
      | (none, last) => tokenWord last
    else 0xffffffff#32

/-! ## The evaluation of a draw -/

/-- The result of an evaluation: a word, a wait, a page fault. -/
inductive DrawOut where
  | ok (s : State) (w : Word)
  | wait (s : State)
  | fault (s : State) (kind ia : Nat) (ea : DWord) (access : Byte)

/-- The block sums of pass 2 written to the table (R257). -/
def writeTable (wid : Nat) (base : DWord) : List Ex → Nat → State → DrawOut
  | [], _, s => .ok s 0
  | x :: xs, b, s =>
    if ptrOff base % 4 ≠ 0 then .ok s 0xfffffffd#32
    else match s.engWrite wid (ptrAdd base (4 * b)) (toLe 4 (rnd x).toNat) with
    | .ok s1 _ => writeTable wid base xs (b + 1) s1
    | .fail s1 _ _ => .ok s1 0xfffffffd#32
    | .wait s1 => .wait s1
    | .fault s1 k ia ea => .fault s1 k ia ea 2#8

/-- One pass over the logits of a context whose fields are `ctx` (R256, R257). -/
def State.evalDraw (s : State) (wid : Nat) (c : SmpCtx) (ctx : List Byte) : DrawOut :=
  match c.cfg.pass with
  | 0 => .ok s (pass0 c.cfg c.logits (smpBits ctx))
  | 1 => .ok s (pass1 c.cfg c.logits)
  | 2 => writeTable wid c.cfg.bsumAt (blockSums (shardWeights c.cfg c.logits)) c.cfg.first s
  | _ =>
    if ptrOff c.cfg.bsumAt % 4 ≠ 0 then .ok s 0xfffffffd#32
    else match s.engRead wid c.cfg.bsumAt (4 * c.cfg.blocks) with
    | .ok s1 bs => .ok s1 (pass3 c.cfg c.logits ((bytesWords bs).map f32) (smpBits ctx))
    | .fail s1 _ _ => .ok s1 0xfffffffd#32
    | .wait s1 => .wait s1
    | .fault s1 k ia ea => .fault s1 k ia ea 1#8

/-- The draw that a context evaluates next: the oldest work, once RECEIVED is N (R255, R256). -/
def SmpCtx.nextDraw (c : SmpCtx) : Option (Nat × TRef × CtxRef) :=
  match c.work with
  | .draw id t a :: _ => if c.full then some (id, t, a) else none
  | _ => none

/-- A draw is delivered (R256): RESULT is written, RECEIVED is 0, the thread's pending result has its value
and its core sees RESULT (R312), the operation retires; what it gave is kept for a resume (R441). -/
def State.endDraw (s : State) (c : SmpCtx) (id : Nat) (t : TRef) (a : CtxRef) (res : Word) : State :=
  let s1 := s.smpPoke a 56 res.toNat
  let fin (x : SmpCtx) : SmpCtx := { x.drop id (.draw id t a) with logits := [], failed := false }
  let land (p : Pend) : Pend := if p.val = .draw id then { p with val := .words [res] } else p
  let s2 := (s1.smpEnd c a fin).acquired (s1.crewCol t.cid) 3
  (({ s2 with drawn := (id, res) :: s2.drawn }.updThread t fun x => { x with pend := x.pend.map land }).completeOp
    t.cid id).dropEng id

/-- The pointer is one of SEED to DRAW (R253). -/
def CtxRef.isSeed (a : CtxRef) (p : DWord) : Bool := (List.range 20).any fun i => p == ptrAdd a.ptr i

/-- SMP_DRAW_EVALUATE (R256, R257). The spec states no result where SEED to DRAW can no longer be read: a free value (log
entry 11, DESIGN CHOICE). A block-sum table whose page has failed for good gives 0xFFFF_FFFD, as any other failure of
its accesses does. -/
def execSmpDrawEvaluate (id : Nat) (s : State) : Host.Outcome State Fault Refusal :=
  .next (match s.smpOf id with
    | none => s
    | some c => match c.nextDraw with
      | none => s
      | some (i, t, a) =>
        let fin (s : State) (w : Word) : State := s.smpWhenReady c id a fun s1 => s1.endDraw c id t a w
        let free (s : State) : State := fin { s with freeCtr := s.freeCtr + 1 } (Config.freeWord 4 s.freeCtr)
        if i ≠ id then s
        else s.smpTurn c id (
          if c.failed ∨ c.isLost id (fun p => p != ptrAdd a.ptr 56 && !a.isSeed p) then fin s 0xfffffffd#32
          else if c.isLost id a.isSeed then free s
          else match s.engRead a.wid a.ptr 20 with
            | .wait s1 => s1
            | .fault s1 k ia ea => s1.engFault id a.wid k ia ea 1#8
            | .fail s1 _ _ => free s1
            | .ok s1 ctx => match s1.evalDraw a.wid c ctx with
              | .ok s2 w => fin s2 w
              | .wait s2 => s2
              | .fault s2 k ia ea access => s2.engFault id a.wid k ia ea access))

end Sys2Proof.Machine
end

