-- ==== Sys2Proof/Machine/Dispatch.lean ====
section
/-!
DEFINITION. The dispatcher: one arm per constructor of Instr, each one call of its meaning.
-/

namespace Sys2Proof.Machine

/-- The meaning of an instruction. -/
def exec (i : Instr) (s : State) : Host.Outcome State Fault Refusal :=
  match i with
  | .add d a b => Sys2Proof.Machine.execAdd d a b s
  | .addImm d a x_i => Sys2Proof.Machine.execAddImm d a x_i s
  | .sub d a b => Sys2Proof.Machine.execSub d a b s
  | .subImm d a x_i => Sys2Proof.Machine.execSubImm d a x_i s
  | .mad d a b => Sys2Proof.Machine.execMad d a b s
  | .madImm d a x_i => Sys2Proof.Machine.execMadImm d a x_i s
  | .mulLo d a b => Sys2Proof.Machine.execMulLo d a b s
  | .mulLoImm d a x_i => Sys2Proof.Machine.execMulLoImm d a x_i s
  | .mulHiI32 d a b => Sys2Proof.Machine.execMulHiI32 d a b s
  | .mulHiI32Imm d a x_i => Sys2Proof.Machine.execMulHiI32Imm d a x_i s
  | .mulHiN32 d a b => Sys2Proof.Machine.execMulHiN32 d a b s
  | .mulHiN32Imm d a x_i => Sys2Proof.Machine.execMulHiN32Imm d a x_i s
  | .add64 d a b => Sys2Proof.Machine.execAdd64 d a b s
  | .add64Imm d a x_i => Sys2Proof.Machine.execAdd64Imm d a x_i s
  | .sub64 d a b => Sys2Proof.Machine.execSub64 d a b s
  | .sub64Imm d a x_i => Sys2Proof.Machine.execSub64Imm d a x_i s
  | .shl d a b => Sys2Proof.Machine.execShl d a b s
  | .shlImm d a x_i => Sys2Proof.Machine.execShlImm d a x_i s
  | .shrN d a b => Sys2Proof.Machine.execShrN d a b s
  | .shrNImm d a x_i => Sys2Proof.Machine.execShrNImm d a x_i s
  | .shrI d a b => Sys2Proof.Machine.execShrI d a b s
  | .shrIImm d a x_i => Sys2Proof.Machine.execShrIImm d a x_i s
  | .rot d a b => Sys2Proof.Machine.execRot d a b s
  | .rotImm d a x_i => Sys2Proof.Machine.execRotImm d a x_i s
  | .and d a b => Sys2Proof.Machine.execAnd d a b s
  | .andImm d a x_i => Sys2Proof.Machine.execAndImm d a x_i s
  | .or d a b => Sys2Proof.Machine.execOr d a b s
  | .orImm d a x_i => Sys2Proof.Machine.execOrImm d a x_i s
  | .xor d a b => Sys2Proof.Machine.execXor d a b s
  | .xorImm d a x_i => Sys2Proof.Machine.execXorImm d a x_i s
  | .andn d a b => Sys2Proof.Machine.execAndn d a b s
  | .andnImm d a x_i => Sys2Proof.Machine.execAndnImm d a x_i s
  | .minI32 d a b => Sys2Proof.Machine.execMinI32 d a b s
  | .minI32Imm d a x_i => Sys2Proof.Machine.execMinI32Imm d a x_i s
  | .maxI32 d a b => Sys2Proof.Machine.execMaxI32 d a b s
  | .maxI32Imm d a x_i => Sys2Proof.Machine.execMaxI32Imm d a x_i s
  | .minN32 d a b => Sys2Proof.Machine.execMinN32 d a b s
  | .minN32Imm d a x_i => Sys2Proof.Machine.execMinN32Imm d a x_i s
  | .maxN32 d a b => Sys2Proof.Machine.execMaxN32 d a b s
  | .maxN32Imm d a x_i => Sys2Proof.Machine.execMaxN32Imm d a x_i s
  | .absI32 d a => Sys2Proof.Machine.execAbsI32 d a s
  | .negI32 d a => Sys2Proof.Machine.execNegI32 d a s
  | .clz d a => Sys2Proof.Machine.execClz d a s
  | .popc d a => Sys2Proof.Machine.execPopc d a s
  | .brev d a => Sys2Proof.Machine.execBrev d a s
  | .bfeN32 d a b => Sys2Proof.Machine.execBfeN32 d a b s
  | .bfeI32 d a b => Sys2Proof.Machine.execBfeI32 d a b s
  | .bfi d a b => Sys2Proof.Machine.execBfi d a b s
  | .sext d a b => Sys2Proof.Machine.execSext d a b s
  | .sextImm d a x_i => Sys2Proof.Machine.execSextImm d a x_i s
  | .zext d a b => Sys2Proof.Machine.execZext d a b s
  | .zextImm d a x_i => Sys2Proof.Machine.execZextImm d a x_i s
  | .lea n d a b => Sys2Proof.Machine.execLea n d a b s
  | .leaI n d a b => Sys2Proof.Machine.execLeaI n d a b s
  | .dp4I8 d a b => Sys2Proof.Machine.execDp4I8 d a b s
  | .dp4N8 d a b => Sys2Proof.Machine.execDp4N8 d a b s
  | .dp4I8n8 d a b => Sys2Proof.Machine.execDp4I8n8 d a b s
  | .mov d a => Sys2Proof.Machine.execMov d a s
  | .movl d lit => Sys2Proof.Machine.execMovl d lit s
  | .movi d x_i => Sys2Proof.Machine.execMovi d x_i s
  | .sel n d a b => Sys2Proof.Machine.execSel n d a b s
  | .cmpInteger t p cc a b => Sys2Proof.Machine.execCmpInteger t p cc a b s
  | .plut p t x y => Sys2Proof.Machine.execPlut p t x y s
  | .bra p sense o => Sys2Proof.Machine.execBra p sense o s
  | .call p sense o => Sys2Proof.Machine.execCall p sense o s
  | .jmp a => Sys2Proof.Machine.execJmp a s
  | .callRegister a => Sys2Proof.Machine.execCallRegister a s
  | .reorder a => Sys2Proof.Machine.execReorder a s
  | .floatAdd t r d a b => Sys2Proof.Machine.execFloatAdd t r d a b s
  | .floatSub t r d a b => Sys2Proof.Machine.execFloatSub t r d a b s
  | .floatMul t r d a b => Sys2Proof.Machine.execFloatMul t r d a b s
  | .fma t r d a b => Sys2Proof.Machine.execFma t r d a b s
  | .floatMin t d a b => Sys2Proof.Machine.execFloatMin t d a b s
  | .floatMax t d a b => Sys2Proof.Machine.execFloatMax t d a b s
  | .minnum t d a b => Sys2Proof.Machine.execMinnum t d a b s
  | .maxnum t d a b => Sys2Proof.Machine.execMaxnum t d a b s
  | .absF32 d a => Sys2Proof.Machine.execAbsF32 d a s
  | .negF32 d a => Sys2Proof.Machine.execNegF32 d a s
  | .absPacked d a => Sys2Proof.Machine.execAbsPacked d a s
  | .negPacked d a => Sys2Proof.Machine.execNegPacked d a s
  | .cmpF32 p cc a b => Sys2Proof.Machine.execCmpF32 p cc a b s
  | .dot2Bf16x2 d a b => Sys2Proof.Machine.execDot2Bf16x2 d a b s
  | .dot2F16x2 d a b => Sys2Proof.Machine.execDot2F16x2 d a b s
  | .cscM3 d a b => Sys2Proof.Machine.execCscM3 d a b s
  | .cscClip d a b => Sys2Proof.Machine.execCscClip d a b s
  | .rndF32 r d a => Sys2Proof.Machine.execRndF32 r d a s
  | .cvt k sat d a b => Sys2Proof.Machine.execCvt k sat d a b s
  | .qnt sat rs f d a b => Sys2Proof.Machine.execQnt sat rs f d a b s
  | .dqnt f d a b => Sys2Proof.Machine.execDqnt f d a b s
  | .rcp d a => Sys2Proof.Machine.execRcp d a s
  | .rsqrt d a => Sys2Proof.Machine.execRsqrt d a s
  | .sqrt d a => Sys2Proof.Machine.execSqrt d a s
  | .exp2 d a => Sys2Proof.Machine.execExp2 d a s
  | .log2 d a => Sys2Proof.Machine.execLog2 d a s
  | .sinpi d a => Sys2Proof.Machine.execSinpi d a s
  | .cospi d a => Sys2Proof.Machine.execCospi d a s
  | .tanh d a => Sys2Proof.Machine.execTanh d a s
  | .sigm d a => Sys2Proof.Machine.execSigm d a s
  | .pxunpk f d a b => Sys2Proof.Machine.execPxunpk f d a b s
  | .pxpack f d a b => Sys2Proof.Machine.execPxpack f d a b s
  | .xlPick d a b m => Sys2Proof.Machine.execXlPick d a b m s
  | .xlBack d a b m => Sys2Proof.Machine.execXlBack d a b m s
  | .xlFwd d a b m => Sys2Proof.Machine.execXlFwd d a b m s
  | .xlFlip d a b m => Sys2Proof.Machine.execXlFlip d a b m s
  | .quadSwapH d a m => Sys2Proof.Machine.execQuadSwapH d a m s
  | .quadSwapV d a m => Sys2Proof.Machine.execQuadSwapV d a m s
  | .quadSwapD d a m => Sys2Proof.Machine.execQuadSwapD d a m s
  | .quadBcast d a b m => Sys2Proof.Machine.execQuadBcast d a b m s
  | .xlMask d p m => Sys2Proof.Machine.execXlMask d p m s
  | .xlAny p x m => Sys2Proof.Machine.execXlAny p x m s
  | .xlAll p x m => Sys2Proof.Machine.execXlAll p x m s
  | .xlSame d a m => Sys2Proof.Machine.execXlSame d a m s
  | .xlFold j d a m => Sys2Proof.Machine.execXlFold j d a m s
  | .scanIncl j d a m => Sys2Proof.Machine.execScanIncl j d a m s
  | .scanExcl j d a m => Sys2Proof.Machine.execScanExcl j d a m s
  | .scanSegIncl j d a b m => Sys2Proof.Machine.execScanSegIncl j d a b m s
  | .scanSegExcl j d a b m => Sys2Proof.Machine.execScanSegExcl j d a b m s
  | .ld z c d a o => Sys2Proof.Machine.execLd z c d a o s
  | .st z c x_s a o => Sys2Proof.Machine.execSt z c x_s a o s
  | .ldRelaxed w d a o => Sys2Proof.Machine.execLdRelaxed w d a o s
  | .stRelaxed w x_s a o => Sys2Proof.Machine.execStRelaxed w x_s a o s
  | .ldAcq e w d a o => Sys2Proof.Machine.execLdAcq e w d a o s
  | .stRel e w x_s a o => Sys2Proof.Machine.execStRel e w x_s a o s
  | .atom k d a o => Sys2Proof.Machine.execAtom k d a o s
  | .atomCasB32 d a o => Sys2Proof.Machine.execAtomCasB32 d a o s
  | .atomCasB64 d a o => Sys2Proof.Machine.execAtomCasB64 d a o s
  | .red k x_s a o => Sys2Proof.Machine.execRed k x_s a o s
  | .fence e => Sys2Proof.Machine.execFence e s
  | .stashMap d a b => Sys2Proof.Machine.execStashMap d a b s
  | .stashUnmap b => Sys2Proof.Machine.execStashUnmap b s
  | .stashFlush b => Sys2Proof.Machine.execStashFlush b s
  | .prefetch a b => Sys2Proof.Machine.execPrefetch a b s
  | .barArrive d a b => Sys2Proof.Machine.execBarArrive d a b s
  | .barWait a b => Sys2Proof.Machine.execBarWait a b s
  | .tbInit a b => Sys2Proof.Machine.execTbInit a b s
  | .tbArrive d a b => Sys2Proof.Machine.execTbArrive d a b s
  | .tbExpect a b => Sys2Proof.Machine.execTbExpect a b s
  | .tbWait d a b => Sys2Proof.Machine.execTbWait d a b s
  | .tbTest d a b => Sys2Proof.Machine.execTbTest d a b s
  | .qbind d a b => Sys2Proof.Machine.execQbind d a b s
  | .qpush d a => Sys2Proof.Machine.execQpush d a s
  | .qpushr d a b => Sys2Proof.Machine.execQpushr d a b s
  | .qpop d a => Sys2Proof.Machine.execQpop d a s
  | .qstat d a => Sys2Proof.Machine.execQstat d a s
  | .ticketTake d => Sys2Proof.Machine.execTicketTake d s
  | .srd d a b => Sys2Proof.Machine.execSrd d a b s
  | .xeCopy d a b => Sys2Proof.Machine.execXeCopy d a b s
  | .xeRagged d a b => Sys2Proof.Machine.execXeRagged d a b s
  | .xeBtab d a b => Sys2Proof.Machine.execXeBtab d a b s
  | .xeGather d a b => Sys2Proof.Machine.execXeGather d a b s
  | .xeCbx d a b => Sys2Proof.Machine.execXeCbx d a b s
  | .xeLut a b => Sys2Proof.Machine.execXeLut a b s
  | .xeFill d a b => Sys2Proof.Machine.execXeFill d a b s
  | .smpCfg a => Sys2Proof.Machine.execSmpCfg a s
  | .smpPush a b => Sys2Proof.Machine.execSmpPush a b s
  | .smpDraw d a => Sys2Proof.Machine.execSmpDraw d a s
  | .rtTrace d a b => Sys2Proof.Machine.execRtTrace d a b s
  | .rtCont b => Sys2Proof.Machine.execRtCont b s
  | .rtPop d a => Sys2Proof.Machine.execRtPop d a s
  | .collReady a b => Sys2Proof.Machine.execCollReady a b s
  | .collWait d a b => Sys2Proof.Machine.execCollWait d a b s
  | .ropeArrive d a b => Sys2Proof.Machine.execRopeArrive d a b s
  | .ropeStatus d a b => Sys2Proof.Machine.execRopeStatus d a b s
  | .uniformAdd d b lo => Sys2Proof.Machine.execUniformAdd d b lo s
  | .uniformAddImm d x_i => Sys2Proof.Machine.execUniformAddImm d x_i s
  | .uniformSub d b lo => Sys2Proof.Machine.execUniformSub d b lo s
  | .uniformSubImm d x_i => Sys2Proof.Machine.execUniformSubImm d x_i s
  | .uniformMulLo d b lo => Sys2Proof.Machine.execUniformMulLo d b lo s
  | .uniformMulLoImm d x_i => Sys2Proof.Machine.execUniformMulLoImm d x_i s
  | .uniformMulHiI64 d b lo => Sys2Proof.Machine.execUniformMulHiI64 d b lo s
  | .uniformMulHiI64Imm d x_i => Sys2Proof.Machine.execUniformMulHiI64Imm d x_i s
  | .uniformMulHiN64 d b lo => Sys2Proof.Machine.execUniformMulHiN64 d b lo s
  | .uniformMulHiN64Imm d x_i => Sys2Proof.Machine.execUniformMulHiN64Imm d x_i s
  | .uniformShl d b lo => Sys2Proof.Machine.execUniformShl d b lo s
  | .uniformShlImm d x_i => Sys2Proof.Machine.execUniformShlImm d x_i s
  | .uniformShrN d b lo => Sys2Proof.Machine.execUniformShrN d b lo s
  | .uniformShrNImm d x_i => Sys2Proof.Machine.execUniformShrNImm d x_i s
  | .uniformShrI d b lo => Sys2Proof.Machine.execUniformShrI d b lo s
  | .uniformShrIImm d x_i => Sys2Proof.Machine.execUniformShrIImm d x_i s
  | .uniformRot d b lo => Sys2Proof.Machine.execUniformRot d b lo s
  | .uniformRotImm d x_i => Sys2Proof.Machine.execUniformRotImm d x_i s
  | .uniformAnd d b lo => Sys2Proof.Machine.execUniformAnd d b lo s
  | .uniformAndImm d x_i => Sys2Proof.Machine.execUniformAndImm d x_i s
  | .uniformOr d b lo => Sys2Proof.Machine.execUniformOr d b lo s
  | .uniformOrImm d x_i => Sys2Proof.Machine.execUniformOrImm d x_i s
  | .uniformXor d b lo => Sys2Proof.Machine.execUniformXor d b lo s
  | .uniformXorImm d x_i => Sys2Proof.Machine.execUniformXorImm d x_i s
  | .uniformAndn d b lo => Sys2Proof.Machine.execUniformAndn d b lo s
  | .uniformAndnImm d x_i => Sys2Proof.Machine.execUniformAndnImm d x_i s
  | .uniformMinI64 d b lo => Sys2Proof.Machine.execUniformMinI64 d b lo s
  | .uniformMaxI64 d b lo => Sys2Proof.Machine.execUniformMaxI64 d b lo s
  | .uniformMinN64 d b lo => Sys2Proof.Machine.execUniformMinN64 d b lo s
  | .uniformMaxN64 d b lo => Sys2Proof.Machine.execUniformMaxN64 d b lo s
  | .uniformClz d b lo => Sys2Proof.Machine.execUniformClz d b lo s
  | .uniformPopc d b lo => Sys2Proof.Machine.execUniformPopc d b lo s
  | .uniformBrev d b lo => Sys2Proof.Machine.execUniformBrev d b lo s
  | .uniformBfeN64 d b lo => Sys2Proof.Machine.execUniformBfeN64 d b lo s
  | .uniformBfeI64 d b lo => Sys2Proof.Machine.execUniformBfeI64 d b lo s
  | .uniformBfi d b lo => Sys2Proof.Machine.execUniformBfi d b lo s
  | .uniformMov d b lo => Sys2Proof.Machine.execUniformMov d b lo s
  | .uniformMovi d x_i => Sys2Proof.Machine.execUniformMovi d x_i s
  | .setEq d b lo => Sys2Proof.Machine.execSetEq d b lo s
  | .setNe d b lo => Sys2Proof.Machine.execSetNe d b lo s
  | .setLtI64 d b lo => Sys2Proof.Machine.execSetLtI64 d b lo s
  | .setLeI64 d b lo => Sys2Proof.Machine.execSetLeI64 d b lo s
  | .setGtI64 d b lo => Sys2Proof.Machine.execSetGtI64 d b lo s
  | .setGeI64 d b lo => Sys2Proof.Machine.execSetGeI64 d b lo s
  | .setLtN64 d b lo => Sys2Proof.Machine.execSetLtN64 d b lo s
  | .setLeN64 d b lo => Sys2Proof.Machine.execSetLeN64 d b lo s
  | .setGtN64 d b lo => Sys2Proof.Machine.execSetGtN64 d b lo s
  | .setGeN64 d b lo => Sys2Proof.Machine.execSetGeN64 d b lo s
  | .uniformMovl d v lo => Sys2Proof.Machine.execUniformMovl d v lo s
  | .bz g o => Sys2Proof.Machine.execBz g o s
  | .bnz g o => Sys2Proof.Machine.execBnz g o s
  | .br o => Sys2Proof.Machine.execBr o s
  | .uniformCall g o => Sys2Proof.Machine.execUniformCall g o s
  | .uniformJmp b lo => Sys2Proof.Machine.execUniformJmp b lo s
  | .uniformRet b lo => Sys2Proof.Machine.execUniformRet b lo s
  | .mfs d n lo => Sys2Proof.Machine.execMfs d n lo s
  | .mts n b lo => Sys2Proof.Machine.execMts n b lo s
  | .rdtime d lo => Sys2Proof.Machine.execRdtime d lo s
  | .waitTime b lo => Sys2Proof.Machine.execWaitTime b lo s
  | .waitCnt c n => Sys2Proof.Machine.execWaitCnt c n s
  | .spawn b => Sys2Proof.Machine.execSpawn b s
  | .joinDec d b lo => Sys2Proof.Machine.execJoinDec d b lo s
  | .yield b => Sys2Proof.Machine.execYield b s
  | .trap x_i => Sys2Proof.Machine.execTrap x_i s
  | .uniformLd z d b lo => Sys2Proof.Machine.execUniformLd z d b lo s
  | .uniformSt z d b => Sys2Proof.Machine.execUniformSt z d b s
  | .uniformLdAcqDev d b lo => Sys2Proof.Machine.execUniformLdAcqDev d b lo s
  | .uniformStRelDev d b => Sys2Proof.Machine.execUniformStRelDev d b s
  | .mma f ck z c a b advA advB => Sys2Proof.Machine.execMma f ck z c a b advA advB s
  | .mmo c a => Sys2Proof.Machine.execMmo c a s
  | .xload a b adv => Sys2Proof.Machine.execXload a b adv s
  | .xpop a => Sys2Proof.Machine.execXpop a s
  | .cbload c a sa sb => Sys2Proof.Machine.execCbload c a sa sb s
  | .azero c => Sys2Proof.Machine.execAzero c s
  | .aload c a bf adv => Sys2Proof.Machine.execAload c a bf adv s
  | .adrain c a bf clr => Sys2Proof.Machine.execAdrain c a bf clr s
  | .adrainT c a b bf clr => Sys2Proof.Machine.execAdrainT c a b bf clr s
  | .adrainQ c a bf clr => Sys2Proof.Machine.execAdrainQ c a bf clr s
  | .ack c a tol => Sys2Proof.Machine.execAck c a tol s
  | .afix c a => Sys2Proof.Machine.execAfix c a s
  | .curdLdi a x_i => Sys2Proof.Machine.execCurdLdi a x_i s
  | .curdLdh a x_i => Sys2Proof.Machine.execCurdLdh a x_i s
  | .curdAddi a x_i => Sys2Proof.Machine.execCurdAddi a x_i s
  | .curdMov a b => Sys2Proof.Machine.execCurdMov a b s
  | .curdAdd a b => Sys2Proof.Machine.execCurdAdd a b s
  | .curdSub a b => Sys2Proof.Machine.execCurdSub a b s
  | .curdAnd a b => Sys2Proof.Machine.execCurdAnd a b s
  | .curdOr a b => Sys2Proof.Machine.execCurdOr a b s
  | .curdXor a b => Sys2Proof.Machine.execCurdXor a b s
  | .curdShl a x_s => Sys2Proof.Machine.execCurdShl a x_s s
  | .curdShr a x_s => Sys2Proof.Machine.execCurdShr a x_s s
  | .curdSlt a b => Sys2Proof.Machine.execCurdSlt a b s
  | .curdPkt a x_i => Sys2Proof.Machine.execCurdPkt a x_i s
  | .curdRec a x_i => Sys2Proof.Machine.execCurdRec a x_i s
  | .curdLd a b x_i => Sys2Proof.Machine.execCurdLd a b x_i s
  | .curdSt a b x_i => Sys2Proof.Machine.execCurdSt a b x_i s
  | .curdTime a => Sys2Proof.Machine.execCurdTime a s
  | .semwait a x_i => Sys2Proof.Machine.execSemwait a x_i s
  | .semadd a x_i => Sys2Proof.Machine.execSemadd a x_i s
  | .semset a x_i => Sys2Proof.Machine.execSemset a x_i s
  | .wtime a => Sys2Proof.Machine.execWtime a s
  | .curdLaunch a => Sys2Proof.Machine.execCurdLaunch a s
  | .lwait a b => Sys2Proof.Machine.execLwait a b s
  | .curdCmd a b => Sys2Proof.Machine.execCurdCmd a b s
  | .curdBz a x_i => Sys2Proof.Machine.execCurdBz a x_i s
  | .curdBnz a x_i => Sys2Proof.Machine.execCurdBnz a x_i s
  | .curdJmp x_i => Sys2Proof.Machine.execCurdJmp x_i s
  | .curdLoop a x_i => Sys2Proof.Machine.execCurdLoop a x_i s
  | .queueInstall q => Sys2Proof.Machine.execQueueInstall q s
  | .queueRestart q => Sys2Proof.Machine.execQueueRestart q s
  | .contextInstall q => Sys2Proof.Machine.execContextInstall q s
  | .boundsPublish q => Sys2Proof.Machine.execBoundsPublish q s
  | .decodeInstall q => Sys2Proof.Machine.execDecodeInstall q s
  | .curdInstall q => Sys2Proof.Machine.execCurdInstall q s
  | .streamInstall q => Sys2Proof.Machine.execStreamInstall q s
  | .tileInstall q => Sys2Proof.Machine.execTileInstall q s
  | .imageStage q => Sys2Proof.Machine.execImageStage q s
  | .handover q => Sys2Proof.Machine.execHandover q s
  | .attest q => Sys2Proof.Machine.execAttest q s
  | .publish port => Sys2Proof.Machine.execPublish port s
  | .replay port => Sys2Proof.Machine.execReplay port s
  | .replayStale id => Sys2Proof.Machine.execReplayStale id s
  | .qTail port q t => Sys2Proof.Machine.execQTail port q t s
  | .semValue n v => Sys2Proof.Machine.execSemValue n v s
  | .semAdd n v => Sys2Proof.Machine.execSemAdd n v s
  | .semClaim port n => Sys2Proof.Machine.execSemClaim port n s
  | .fqHead v => Sys2Proof.Machine.execFqHead v s
  | .fqBase v => Sys2Proof.Machine.execFqBase v s
  | .fqSize v => Sys2Proof.Machine.execFqSize v s
  | .poolSplit c v => Sys2Proof.Machine.execPoolSplit c v s
  | .poolSplitComplete c => Sys2Proof.Machine.execPoolSplitComplete c s
  | .colGateReq c v => Sys2Proof.Machine.execColGateReq c v s
  | .colGatePowerUp c => Sys2Proof.Machine.execColGatePowerUp c s
  | .ptpStep v => Sys2Proof.Machine.execPtpStep v s
  | .rejoin k => Sys2Proof.Machine.execRejoin k s
  | .bar0LowerHalfWrite port off v => Sys2Proof.Machine.execBar0LowerHalfWrite port off v s
  | .registerWrite port off size v => Sys2Proof.Machine.execRegisterWrite port off size v s
  | .hostBar2Access port write addr size data => Sys2Proof.Machine.execHostBar2Access port write addr size data s
  | .pickRun k => Sys2Proof.Machine.execPickRun k s
  | .instructionFetch t => Sys2Proof.Machine.execInstructionFetch t s
  | .longLatencyResult t => Sys2Proof.Machine.execLongLatencyResult t s
  | .parkedRunResume k => Sys2Proof.Machine.execParkedRunResume k s
  | .engineCounterRoom k => Sys2Proof.Machine.execEngineCounterRoom k s
  | .waitTimeExpiry k => Sys2Proof.Machine.execWaitTimeExpiry k s
  | .tbWaitTimeout k => Sys2Proof.Machine.execTbWaitTimeout k s
  | .sequencerParkResume c => Sys2Proof.Machine.execSequencerParkResume c s
  | .trapEntry cid => Sys2Proof.Machine.execTrapEntry cid s
  | .memEcc t => Sys2Proof.Machine.execMemEcc t s
  | .hostCompletion t => Sys2Proof.Machine.execHostCompletion t s
  | .mxFeed t => Sys2Proof.Machine.execMxFeed t s
  | .peerAccessRefused t => Sys2Proof.Machine.execPeerAccessRefused t s
  | .yieldReq cid => Sys2Proof.Machine.execYieldReq cid s
  | .yieldReqRepeat cid => Sys2Proof.Machine.execYieldReqRepeat cid s
  | .tbPhaseCompletion c off => Sys2Proof.Machine.execTbPhaseCompletion c off s
  | .transferSectorWrite wid ch => Sys2Proof.Machine.execTransferSectorWrite wid ch s
  | .transferCompletion wid ch => Sys2Proof.Machine.execTransferCompletion wid ch s
  | .xeLutHeld wid slot => Sys2Proof.Machine.execXeLutHeld wid slot s
  | .smpDrawEvaluate id => Sys2Proof.Machine.execSmpDrawEvaluate id s
  | .rayTraversal c ray => Sys2Proof.Machine.execRayTraversal c ray s
  | .hitRecord c ray => Sys2Proof.Machine.execHitRecord c ray s
  | .collMessage e card epoch data => Sys2Proof.Machine.execCollMessage e card epoch data s
  | .collEntryCompletion e => Sys2Proof.Machine.execCollEntryCompletion e s
  | .collHeartbeat card => Sys2Proof.Machine.execCollHeartbeat card s
  | .partnerLost e card => Sys2Proof.Machine.execPartnerLost e card s
  | .linkProcessorStop n => Sys2Proof.Machine.execLinkProcessorStop n s
  | .linkProcessorImageStart n => Sys2Proof.Machine.execLinkProcessorImageStart n s
  | .peerInboundAccess card addr acc => Sys2Proof.Machine.execPeerInboundAccess card addr acc s
  | .linkStateChange port up lanes => Sys2Proof.Machine.execLinkStateChange port up lanes s
  | .streamPacket sub p => Sys2Proof.Machine.execStreamPacket sub p s
  | .frameSettleTimeout x_s => Sys2Proof.Machine.execFrameSettleTimeout x_s s
  | .transmitChoice x_s => Sys2Proof.Machine.execTransmitChoice x_s s
  | .transmitPacket x_s => Sys2Proof.Machine.execTransmitPacket x_s s
  | .ptpSync offset => Sys2Proof.Machine.execPtpSync offset s
  | .ropeArrivalMessage rope member k => Sys2Proof.Machine.execRopeArrivalMessage rope member k s
  | .ropeDecision rope k => Sys2Proof.Machine.execRopeDecision rope k s
  | .ropeHeartbeat rope member lat => Sys2Proof.Machine.execRopeHeartbeat rope member lat s
  | .hwLevelRise c => Sys2Proof.Machine.execHwLevelRise c s
  | .hwLevelFall c => Sys2Proof.Machine.execHwLevelFall c s
  | .localityLossHalving c part => Sys2Proof.Machine.execLocalityLossHalving c part s
  | .pageWalk ctx ia space write => Sys2Proof.Machine.execPageWalk ctx ia space write s
  | .workgroupFault wid => Sys2Proof.Machine.execWorkgroupFault wid s
  | .workgroupEnd wid => Sys2Proof.Machine.execWorkgroupEnd wid s
  | .serialPhase wid => Sys2Proof.Machine.execSerialPhase wid s
  | .redundantCompare wid => Sys2Proof.Machine.execRedundantCompare wid s
  | .launchCompletion lid => Sys2Proof.Machine.execLaunchCompletion lid s
  | .boundFieldResolve lid => Sys2Proof.Machine.execBoundFieldResolve lid s
  | .launchEligible lid => Sys2Proof.Machine.execLaunchEligible lid s
  | .workgroupPlace lid idx => Sys2Proof.Machine.execWorkgroupPlace lid idx s
  | .coreTakeWork c => Sys2Proof.Machine.execCoreTakeWork c s
  | .stealAttempt c => Sys2Proof.Machine.execStealAttempt c s
  | .curdPacket q => Sys2Proof.Machine.execCurdPacket q s
  | .curdCompletionRun q => Sys2Proof.Machine.execCurdCompletionRun q s
  | .curdResume q => Sys2Proof.Machine.execCurdResume q s
  | .curdBudgetExhausted q => Sys2Proof.Machine.execCurdBudgetExhausted q s
  | .shadowWriteBehind c => Sys2Proof.Machine.execShadowWriteBehind c s
  | .sealCapture c reason => Sys2Proof.Machine.execSealCapture c reason s
  | .sealValid c => Sys2Proof.Machine.execSealValid c s
  | .columnSupplyFailure c => Sys2Proof.Machine.execColumnSupplyFailure c s
  | .coreRecovery c => Sys2Proof.Machine.execCoreRecovery c s
  | .firmwareCoreRestore c => Sys2Proof.Machine.execFirmwareCoreRestore c s
  | .perst a b => Sys2Proof.Machine.execPerst a b s
  | .patrolScrub addr => Sys2Proof.Machine.execPatrolScrub addr s
  | .verticalBusTest c bus pass => Sys2Proof.Machine.execVerticalBusTest c bus pass s
  | .smpPushCompletion id => Sys2Proof.Machine.execSmpPushCompletion id s
  | .storeApplied c => Sys2Proof.Machine.execStoreApplied c s
  | .flitRetry port => Sys2Proof.Machine.execFlitRetry port s
  | .ret => Sys2Proof.Machine.execRet s
  | .exit => Sys2Proof.Machine.execExit s
  | .region => Sys2Proof.Machine.execRegion s
  | .join => Sys2Proof.Machine.execJoin s
  | .nop => Sys2Proof.Machine.execNop s
  | .pfenceRind => Sys2Proof.Machine.execPfenceRind s
  | .pfenceRindWait => Sys2Proof.Machine.execPfenceRindWait s
  | .pfenceKeep => Sys2Proof.Machine.execPfenceKeep s
  | .pfenceKeepWait => Sys2Proof.Machine.execPfenceKeepWait s
  | .rte => Sys2Proof.Machine.execRte s
  | .brk => Sys2Proof.Machine.execBrk s
  | .uniformExit => Sys2Proof.Machine.execUniformExit s
  | .curdRecpkt => Sys2Proof.Machine.execCurdRecpkt s
  | .curdDone => Sys2Proof.Machine.execCurdDone s
  | .curdStop => Sys2Proof.Machine.execCurdStop s
  | .energyPeriodEnd => Sys2Proof.Machine.execEnergyPeriodEnd s
  | .coldReset => Sys2Proof.Machine.execColdReset s
  | .bringUp => Sys2Proof.Machine.execBringUp s
  | .inputUndervoltage => Sys2Proof.Machine.execInputUndervoltage s
  | .overTemperature => Sys2Proof.Machine.execOverTemperature s
  | .keepScopeDurable => Sys2Proof.Machine.execKeepScopeDurable s

end Sys2Proof.Machine
end

