-- ==== Sys2Proof/Machine/Moves.lean ====
section
/-!
DEFINITION. What happens to the device besides its instructions and events: time that passes (15 R379,
01 R20), the word whose turn it is, and inputs from the world around the card (log entry 1).
-/

namespace Sys2Proof.Machine

/-! ## Time -/

/-- A column's clock counts while it has power (R20, R362). Log entry 72, DEDUCED. Log entry 91, DESIGN CHOICE. -/
def Column.tick (n : Nat) (c : Column) : Column :=
  if c.gated || !c.powered then c else { c with clock := c.clock + n }

/-- The accesses to pools that wait ask for power: pops that have not got their elements (R362). -/
def State.askPools (s : State) : State :=
  let ask (t : TRef) (s : State) (p : Pend) : State :=
    match p.val with
    | .element q _ => s.wakeRing t q
    | _ => s
  s.threads.foldl (fun acc x => x.pend.foldl (ask x.ref) acc) s

/-- One clock passes, and some nanoseconds on the PTP clock (R20, R379): the barriers' phases and waits (R197, R199),
wait.time (R161), what the sampling units can do (R255), contributions to collectives (R407), heartbeats (R393, R405).
Log entry 27, DEDUCED. Log entry 91, DESIGN CHOICE. -/
def State.oneClock (s : State) (ns : Nat) : State :=
  let s1 : State := { s with
    columns := s.columns.map (Column.tick 1), timeNs := s.timeNs + ns, ticks := s.ticks + 1 }
  let s2 := s1.clockBarriers.clockWaits
  let s3 := s2.smps.foldl (fun acc x => acc.smpPump x.key) s2
  let s4 := s3.colls.foldl (fun acc x => acc.sendLocal x) s3
  (s4.askPools.sendBeats s.timeNs).sendCollBeats s.timeNs

/-- The first `n` of `clocks` clocks in which `ns` nanoseconds pass. -/
def State.clocksPass (s : State) (clocks ns : Nat) : Nat → State
  | 0 => s
  | n + 1 => (s.clocksPass clocks ns n).oneClock (ns * (n + 1) / clocks - ns * n / clocks)

/-- Clocks pass in every column, and nanoseconds on the PTP clock (R20, R379), unless the card has no power (R433).
Log entry 27, DEDUCED. Log entry 91, DESIGN CHOICE. -/
def State.elapse (s : State) (clocks ns : Nat) : State :=
  if s.phase = .off then { s with ticks := s.ticks + 1 }
  else if clocks = 0 then { s with timeNs := s.timeNs + ns, ticks := s.ticks + 1 }.sendBeats s.timeNs |>.sendCollBeats s.timeNs
  else s.clocksPass clocks ns clocks

/-! ## Inputs -/

/-- The host, or a peer card, refuses accesses at a key from now on, or no longer (R186, R403).
Log entry 83, DEDUCED. -/
def State.setHostErr (s : State) (key : Nat) (on : Bool) : State :=
  let rest := s.hostErrs.filter fun k => k != key
  { s with hostErrs := if on then key :: rest else rest }

/-- Energy counted in a column (R332). Log entry 73, DESIGN CHOICE. -/
def Column.addEnergy (uj : Nat) (x : Column) : Column :=
  { x with energyCur := BitVec.ofNat 32 (min (x.energyCur.toNat + uj) (2 ^ 32 - 1)) }

/-- A stream port is split anew while none of its streams is configured (R378). Log entry 51, DESIGN CHOICE. -/
def State.splitPort (s : State) (port n : Nat) : State :=
  if (n = 1 ∨ n = 2 ∨ n = 4) ∧ port < 4 ∧ s.streams.all (fun x => x.subports.all fun i => i / 4 != port) then
    { s with portSplit := s.portSplit.setIfInBounds port n }
  else s

/-- A line leaves the device cache: what is dirty in it is written back (R280). -/
def State.evictLine (s : State) (key : Nat) : State :=
  { s with
    dcache := s.dcache.filter fun l => l.key != key / 128 * 128
    peerLines := s.peerLines.filter fun l => l.key != key / 128 * 128 }

/-- The host, or a peer card, writes bytes in its own memory. Log entry 1, DESIGN CHOICE. -/
def State.worldPut (s : State) (key : Nat) (data : List Byte) : State :=
  if 2 ≤ keyRegion key ∧ keyRegion key ≤ 34 ∧ keyRegion (key + data.length) = keyRegion key then
    { s with mem := memSetBytes s.mem key data, lags := s.lags.filter fun l => !l.touches key data.length } else s

/-- A move that is no event of the table. -/
def State.move (s : State) : Move → State
  | .event _ => s
  | .select t => { s with turn := t }
  | .elapse c n => s.elapse c n
  | .softError e => s.softError e
  | .hostError key on => s.setHostErr key on
  | .mmioRead p off size => s.bar0Read p off size
  | .energy c uj => s.updCol c (Column.addEnergy uj)
  | .sense x y => s.sense x y
  | .supply x y => s.supply x y
  | .rail c on => s.updCol c fun x => { x with railOver := on }
  | .sensor c deg => s.sensor c deg
  | .cardPower w => { s with powerW := w }
  | .lowerLimits w deg cut => s.lowerLimits w deg cut
  | .bankImage i h b => s.bankImage i h b
  | .configRequest p => s.configRequest p
  | .columnFirmware c level => s.updCol c fun x => { x with fwLevel := level }
  | .splitPort port n => s.splitPort port n
  | .fill c i => if (s.col c).awake then s.fillMiss c i else s
  | .bank c => if (s.col c).awake then s.bankHead c else s
  | .perform c i => s.performAt c i []
  | .performLate c i spans => s.performAt c i spans
  | .reach i => s.reachAt i
  | .evict key => s.evictLine key
  | .keepNext i => s.durableAt i
  | .world key data => s.worldPut key data
  | .spare b => s.spare b
  | .hostLinks a b m => s.hostLinks a b m

end Sys2Proof.Machine
end

