-- ==== Sys2Proof/Machine/Step.lean ====
section
/-!
DEFINITION. One step of the machine: the next input of the agenda, or else the next word of the stream whose
turn it is. And a word placed where the next step fetches it.
-/

namespace Sys2Proof.Machine

/-- What the machine executes next, once the agenda is empty. Log entry 1, DESIGN CHOICE. -/
noncomputable def State.nextWord (s : State) : Fetched :=
  match s.turn with
  | .idle => .done (s.elapse 9 5)
  | .run k => match s.run? k with
    | none => .done (s.elapse 9 5)
    | some r =>
      let c := s.col k.col
      if r.parked.isSome || c.gated || !c.powered || c.stopIssue then .done (s.elapse 9 5)
      else (s.wordClock k).fetchWord r
  | .seq c => if s.seqReady c then s.fetchSeq c else .done (s.elapse 9 5)
  | .curd q => match s.fetchCurd q with
    | .exec i s1 => .exec i s1
    | .done s1 => .done (s1.elapse 9 5)

/-- What follows an executed instruction: hazards of its long-latency destination (R50). -/
def State.afterExec (s0 : State) (i : Instr) (s : State) : State :=
  match s0.turn with
  | .run k => s.noteHazards k (s0.run k).pos i
  | _ => s

/-- An executed instruction, and what follows it. -/
def runInstr (i : Instr) (s : State) : Host.Outcome State Fault Refusal :=
  match exec i s with
  | .next t => .next (s.afterExec i t)
  | .fault f => .fault f
  | .refused r => .refused r

/-- One step. Log entry 1, DESIGN CHOICE. -/
noncomputable def step (s : State) : Host.Outcome State Fault Refusal :=
  match s.agenda with
  | .event i :: ms =>
    if i.cls = .event then runInstr i { s with agenda := ms } else .refused .notAnEvent
  | m :: ms => .next ({ s with agenda := ms }.move m)
  | [] => match s.nextWord with
    | .exec i s1 => runInstr i s1
    | .done s1 => .next s1

/-! ## A word placed for the next step -/

/-- The word for a trailer without awaits (R37). -/
def plainTrailer : Word := 0x7ffe3c78#32

/-- The words of an instruction of `nbits` bits numbered from the least significant bit of its first word:
bits from `nbits` up are zero. -/
def wordsOf (nbits w n : Nat) : List Word :=
  (List.range n).map fun i => BitVec.ofNat 32 (w % 2 ^ nbits / 2 ^ (32 * i))

/-- A workgroup of one crew with one thread on column 0, all under one identifier, for a placed word.
Log entry 5, DESIGN CHOICE. -/
def State.withWork (s : State) (id : Nat) : State :=
  { s with
    launches := { lid := id, queue := 0, ctx := 256 } :: s.launches
    wgs := { noWg id with lid := id } :: s.wgs
    crews := { cid := id, wid := id } :: s.crews
    threads := { cid := id, tid := 0 } :: s.threads
    nextId := s.nextId + 1 }

/-- The words at position 0 of a run of that thread, its trailer after them. Log entry 5, DESIGN CHOICE. -/
def State.withRun (s : State) (ws : List Word) (uniform : Bool) : State :=
  let id := s.nextId
  let key : RunKey := ⟨0, 0, 2 + id⟩
  { s.withWork id with
    runs := { key := key, start := 0, words := ws ++ [plainTrailer], members := [⟨id, 0⟩],
              crewRun := if uniform then some id else none } :: s.runs
    turn := .run key }

/-- A context whose region 0 allows every access of space 0 (as R436 installs one), numbered 256. -/
def openContext : Context :=
  { num := 256, root := 0,
    ranges := (Vector.replicate 8 {}).set 0 { limit := 0x000fffffffff0000#64, ctl := 0x8f#64 }
    bounds := [{ lo := 0, hi := 2 ^ 52, ctl := 0x8f#8 }] }

/-- The words at address 0 of a sequencer program, in the instruction cache of column 0.
Log entry 5, DESIGN CHOICE. -/
def State.withSeq (s : State) (ws : List Word) : State :=
  let id := s.nextId
  let line := bytesAt (ws.flatMap fun w => toLe 4 w.toNat) 0 128
  let s1 := s.withWork id
  { s1.updCol 0 fun c => { c with
      icache := (0, line) :: c.icache
      seqr := { c.seqr with holder := some id, running := true, pc := 0, parked := none,
                            faultWait := none } } with
    contexts := openContext :: s1.contexts
    turn := .seq 0 }

/-- The operation at index 0 of queue 0's Curd program, a packet in progress. -/
def State.withCurd (s : State) (w : Word) : State :=
  { s.updQueue 0 fun q => { q with installed := true, program := 256, run := some { index := 0 } } with
    programs := { num := 256, entryPkt := 0, entryDone := none, ops := [w] } :: s.programs
    turn := .curd 0 }

/-- The instruction of a table word stored where the step fetches next: a run of one thread, the stream of
a sequencer, or a queue's Curd program (log entry 5, DESIGN CHOICE). Bits from `nbits` up are zero. -/
def State.withFetchWord (s : State) (nbits w : Nat) : State :=
  let ws := wordsOf nbits w 3
  let w0 := ws.headD 0
  let s0 := { s with agenda := [] }
  match decodeWord w0 (ws.getD 1 0) (ws.getD 2 0) with
  | .error _ => s0.withCurd w0
  | .ok (i, n) =>
    if i.cls = .matrix then s0.withSeq ws else s0.withRun (ws.take (n + 1)) (decide (i.cls = .uniform))

end Sys2Proof.Machine
end

