-- ==== Sys2Proof/Safety.lean ====
section
/-!
DEFINITION. What a safe state and a safe run are, and the words in which the statements speak: what a lane or
a uniform word leaves, what one thread does in its turn, and the results of the register words as the rules
give them.
-/

namespace Sys2Proof.Safety

open Sys2Proof.Machine

/-- The memories keep their canonical form. -/
def MemoryOk (s : State) : Prop := Memory.wf s.mem = true ∧ Memory.wf s.keep = true

/-- A run of `n` steps that neither faults nor is refused. -/
def RunsFor (n : Nat) (s : State) : Prop := ∃ t, (Host.Core.run Sys2Proof.core n s) = .next t

/-! ## What a lane word leaves -/

/-- No operand field of the word names a queue register (R39). -/
def noQueue (i : Instr) : Bool := i.fields.all fun p => !isQueueCode p.1

/-- The state after a lane word that changes only the registers of the run's threads: `f` of each thread that
the word acts for, and the run at its next word. -/
def laneDone (s : State) (r : Run) (f : Thread → Thread) : State :=
  { s with
    threads := s.threads.map fun t => if r.todo.contains t.ref then f t else t
    runs := s.runs.map fun x => if x.key = r.key then x.advance else x }

/-- The latch of a word's position takes a lane result (R23). -/
def latched (pos : Nat) (w : Word) (t : Thread) : Thread := { t with b := t.b.setIfInBounds (pos % 8) (.lane w) }

/-- A lane register takes a word; the destination codes that are no register take none (R39). -/
def put32 (d : Code) (w : Word) (t : Thread) : Thread :=
  if d.toNat < 96 then { t with v := t.v.setIfInBounds d.toNat w }
  else if d.toNat < 104 then { t with b := t.b.setIfInBounds (d.toNat - 96) (.lane w) }
  else t

/-- A thread after a 32-bit result: the destination, then the latch of the position (R23, R39). -/
def took32 (pos : Nat) (d : Code) (w : Word) (t : Thread) : Thread := latched pos w (put32 d w t)

/-- A thread after a 64-bit result: the pair, low word first; a latch takes the low word (R23, R40). -/
def took64 (pos : Nat) (d : Code) (x : DWord) (t : Thread) : Thread :=
  latched pos (x.setWidth 32)
    (if d.toNat < 96 then
      let v := t.v.setIfInBounds d.toNat (x.setWidth 32)
      { t with v := v.setIfInBounds (d.toNat + 1) (x.extractLsb' 32 32) }
    else put32 d (x.setWidth 32) t)

/-- A thread after a 128-bit result: four registers, the lowest first (R40). -/
def took128 (pos : Nat) (d : Code) (x : QWord) (t : Thread) : Thread :=
  latched pos (x.setWidth 32)
    (if d.toNat < 96 then
      let v0 := t.v.setIfInBounds d.toNat (x.extractLsb' 0 32)
      let v1 := v0.setIfInBounds (d.toNat + 1) (x.extractLsb' 32 32)
      let v2 := v1.setIfInBounds (d.toNat + 2) (x.extractLsb' 64 32)
      { t with v := v2.setIfInBounds (d.toNat + 3) (x.extractLsb' 96 32) }
    else t)

/-- A thread after a predicate result; p7 keeps reading true (R17, R23). -/
def tookPred (pos : Nat) (p : BitVec 3) (x : Bool) (t : Thread) : Thread :=
  latched pos (if x then 1 else 0) (if p = 7#3 then t else { t with p := t.p.setIfInBounds p.toNat x })

/-- A thread with one more pending result (R23, R26). -/
def tookLong (pos : Nat) (d : Code) (n : Nat) (v : PendVal) (t : Thread) : Thread :=
  latched pos 0 { t with pend := t.pend ++ [⟨d, n, v⟩] }

/-- STOCH_COUNT after `n` elements rounded under a rounding index (R87). -/
def counted (e : LaneEnv) (r : BitVec 3) (n : Nat) (t : Thread) : Thread :=
  if (if r = 0#3 then e.round + 1 else r.toNat) = 6 then { t with stochCount := t.stochCount + BitVec.ofNat 32 n }
  else t

/-- What the threads of a run do in their turn, each from the state that the one before it left; none when one
of them does not complete the word. -/
def inTurn (eff : State → TRef → Option State) (k : RunKey) : List TRef → State → Option State
  | [], s => some s
  | t :: ts, s => match eff s t with
    | some s1 => inTurn eff k ts (s1.markDone k t)
    | none => none

/-- The word is complete for the run: it stands at its next word. -/
def passed (s : State) (r : Run) : State := s.updRun r.key Run.advance

/-! ## Results of the lane integer words (R97 to R108) -/

/-- The result of a lane word of one 32-bit destination: its d field, and the word that it computes. -/
abbrev Res32 := Code × (LaneEnv → Thread → Word)

/-- A result from a and b. -/
def of2 (d a : Code) (b : BSrc) (f : Word → Word → Word) : Option Res32 :=
  some (d, fun e t => f (e.read32 t a) (e.readB t b))
/-- A result from a and sext(imm7) (R97). -/
def ofI (d a : Code) (i : BitVec 7) (f : Word → Word → Word) : Option Res32 :=
  some (d, fun e t => f (e.read32 t a) (i.signExtend 32))
/-- A result from a. -/
def of1 (d a : Code) (f : Word → Word) : Option Res32 := some (d, fun e t => f (e.read32 t a))
/-- A result from d, a and b (R98). -/
def of3 (d a : Code) (b : BSrc) (f : Word → Word → Word → Word) : Option Res32 :=
  some (d, fun e t => f (e.read32 t d) (e.read32 t a) (e.readB t b))

/-- The products of R101. -/
def prodHiS (a b : Word) : Word := BitVec.ofInt 32 (a.toInt * b.toInt / 2 ^ 32)
def prodHiU (a b : Word) : Word := BitVec.ofNat 32 (a.toNat * b.toNat / 2 ^ 32)
/-- Smaller and larger (R101). -/
def lessS (a b : Word) : Word := if a.toInt ≤ b.toInt then a else b
def moreS (a b : Word) : Word := if a.toInt ≤ b.toInt then b else a
def lessU (a b : Word) : Word := if a.toNat ≤ b.toNat then a else b
def moreU (a b : Word) : Word := if a.toNat ≤ b.toNat then b else a

/-- The sums, products, logic and comparisons of R101. -/
def arith32 : Instr → Option Res32
  | .add d a b => of2 d a b fun a b => BitVec.ofNat 32 (a.toNat + b.toNat)
  | .addImm d a i => ofI d a i fun a b => BitVec.ofNat 32 (a.toNat + b.toNat)
  | .sub d a b => of2 d a b fun a b => BitVec.ofInt 32 (a.toNat - b.toNat)
  | .subImm d a i => ofI d a i fun a b => BitVec.ofInt 32 (a.toNat - b.toNat)
  | .mad d a b => of3 d a b fun d a b => BitVec.ofNat 32 (d.toNat + a.toNat * b.toNat)
  | .madImm d a i => some (d, fun e t =>
      BitVec.ofNat 32 ((e.read32 t d).toNat + (e.read32 t a).toNat * (i.signExtend 32 : Word).toNat))
  | .mulLo d a b => of2 d a b fun a b => BitVec.ofNat 32 (a.toNat * b.toNat)
  | .mulLoImm d a i => ofI d a i fun a b => BitVec.ofNat 32 (a.toNat * b.toNat)
  | .mulHiI32 d a b => of2 d a b prodHiS
  | .mulHiI32Imm d a i => ofI d a i prodHiS
  | .mulHiN32 d a b => of2 d a b prodHiU
  | .mulHiN32Imm d a i => ofI d a i prodHiU
  | .and d a b => of2 d a b (· &&& ·)
  | .andImm d a i => ofI d a i (· &&& ·)
  | .or d a b => of2 d a b (· ||| ·)
  | .orImm d a i => ofI d a i (· ||| ·)
  | .xor d a b => of2 d a b (· ^^^ ·)
  | .xorImm d a i => ofI d a i (· ^^^ ·)
  | .andn d a b => of2 d a b fun a b => a &&& ~~~b
  | .andnImm d a i => ofI d a i fun a b => a &&& ~~~b
  | .minI32 d a b => of2 d a b lessS
  | .minI32Imm d a i => ofI d a i lessS
  | .maxI32 d a b => of2 d a b moreS
  | .maxI32Imm d a i => ofI d a i moreS
  | .minN32 d a b => of2 d a b lessU
  | .minN32Imm d a i => ofI d a i lessU
  | .maxN32 d a b => of2 d a b moreU
  | .maxN32Imm d a i => ofI d a i moreU
  | _ => none

/-- The shifts of R102: the amount is b[5:0], or b[4:0] for rot. -/
def shiftL (a b : Word) : Word :=
  if b.toNat % 64 < 32 then BitVec.ofNat 32 (a.toNat * 2 ^ (b.toNat % 64)) else 0
def shiftR (a b : Word) : Word :=
  if b.toNat % 64 < 32 then BitVec.ofNat 32 (a.toNat / 2 ^ (b.toNat % 64)) else 0
def shiftA (a b : Word) : Word :=
  if b.toNat % 64 < 32 then BitVec.ofInt 32 (a.toInt / 2 ^ (b.toNat % 64))
  else if a.msb then 0xffffffff#32 else 0
def rotL (a b : Word) : Word := (a <<< (b.toNat % 32)) ||| (a >>> (32 - b.toNat % 32))

/-- A number of `n` bits read as two's complement. -/
def signedOf (n x : Nat) : Int := if 2 * x < 2 ^ n then x else x - 2 ^ n
/-- The extensions of R105, of a field of b[5:0] bits. -/
def sextR (a b : Word) : Word :=
  let w := b.toNat % 64
  if w = 0 then 0 else if 32 ≤ w then a else BitVec.ofInt 32 (signedOf w (a.toNat % 2 ^ w))
def zextR (a b : Word) : Word :=
  let w := b.toNat % 64
  if w = 0 then 0 else if 32 ≤ w then a else BitVec.ofNat 32 (a.toNat % 2 ^ w)

/-- The position and the length of R104. -/
def fldPos (b : Word) : Nat := b.toNat % 32
def fldLen (b : Word) : Nat := min (b.toNat / 256 % 64) 32
/-- The extracts and the insertion of R104. -/
def extractU (a b : Word) : Word := BitVec.ofNat 32 (a.toNat / 2 ^ fldPos b % 2 ^ fldLen b)
def extractS (a b : Word) : Word :=
  if fldLen b = 0 then 0
  else BitVec.ofInt 32 (signedOf (fldLen b) (a.toInt / 2 ^ fldPos b % 2 ^ fldLen b).toNat)
def insertF (d a b : Word) : Word :=
  let m : Word := BitVec.ofNat 32 (2 ^ fldLen b - 1) <<< fldPos b
  (d &&& ~~~m) ||| ((a <<< fldPos b) &&& m)

/-- One byte of a word. -/
def byteNat (a : Word) (k : Nat) : Nat := a.toNat / 2 ^ (8 * k) % 256
/-- A four-way byte product sum added to d (R107): `ea` and `eb` extend a byte. -/
def dotBytes (ea eb : Nat → Int) (d a b : Word) : Word :=
  BitVec.ofInt 32 (d.toNat + ((List.range 4).map fun k => ea (byteNat a k) * eb (byteNat b k)).sum)

/-- The shifts, fields, counts, byte products and moves of R102 to R105, R107 and R108. -/
def shift32 : Instr → Option Res32
  | .shl d a b => of2 d a b shiftL
  | .shlImm d a i => ofI d a i shiftL
  | .shrN d a b => of2 d a b shiftR
  | .shrNImm d a i => ofI d a i shiftR
  | .shrI d a b => of2 d a b shiftA
  | .shrIImm d a i => ofI d a i shiftA
  | .rot d a b => of2 d a b rotL
  | .rotImm d a i => ofI d a i rotL
  | .sext d a b => of2 d a b sextR
  | .sextImm d a i => ofI d a i sextR
  | .zext d a b => of2 d a b zextR
  | .zextImm d a i => ofI d a i zextR
  | .bfeN32 d a b => of2 d a b extractU
  | .bfeI32 d a b => of2 d a b extractS
  | .bfi d a b => of3 d a b insertF
  | .dp4I8 d a b => of3 d a b (dotBytes (signedOf 8) (signedOf 8))
  | .dp4N8 d a b => of3 d a b (dotBytes Int.ofNat Int.ofNat)
  | .dp4I8n8 d a b => of3 d a b (dotBytes (signedOf 8) Int.ofNat)
  | .absI32 d a => of1 d a fun a => if a.msb then BitVec.ofInt 32 (-a.toNat) else a
  | .negI32 d a => of1 d a fun a => BitVec.ofInt 32 (-a.toNat)
  | .clz d a => of1 d a fun a => BitVec.ofNat 32 (if a = 0 then 32 else 31 - a.toNat.log2)
  | .popc d a => of1 d a fun a => BitVec.ofNat 32 ((List.range 32).filter a.getLsbD).length
  | .brev d a => of1 d a fun a => a.reverse
  | .mov d a => of1 d a id
  | .movl d w => some (d, fun _ _ => w)
  | .movi d i => some (d, fun _ _ => i.signExtend 32)
  | .sel n d a b => some (d, fun e t => if t.pred n then e.read32 t a else e.readB t b)
  | _ => none

/-- The results of the words with a pair destination (R106, R138): their d field and the 64-bit value. -/
def pair64 : Instr → Option (Code × (LaneEnv → Thread → DWord))
  | .add64 d a b => some (d, fun e t => BitVec.ofNat 64 ((e.read64 t a).toNat + (e.readB64 t b).toNat))
  | .add64Imm d a i => some (d, fun e t => BitVec.ofInt 64 ((e.read64 t a).toNat + i.toInt))
  | .sub64 d a b => some (d, fun e t => BitVec.ofInt 64 ((e.read64 t a).toNat - (e.readB64 t b).toNat))
  | .sub64Imm d a i => some (d, fun e t => BitVec.ofInt 64 ((e.read64 t a).toNat - i.toInt))
  | .lea n d a b => some (d, fun e t =>
      BitVec.ofNat 64 ((e.read64 t a).toNat + (e.readB t b).toNat * 2 ^ n.toNat))
  | .leaI n d a b => some (d, fun e t =>
      BitVec.ofInt 64 ((e.read64 t a).toNat + (e.readB t b).toInt * 2 ^ n.toNat))
  | .pxunpk f d a b => some (d, fun e t => pxUnpack f (e.read128 t a) ((e.readB t b).toNat % 4))
  | _ => none

/-- An integer condition (R43): 0 eq, 1 ne, 2 lt, 3 le, 4 gt, 5 ge. -/
def condInt (cc : BitVec 4) (x y : Int) : Bool :=
  match cc.toNat with
  | 0 => decide (x = y) | 1 => decide (x ≠ y) | 2 => decide (x < y)
  | 3 => decide (x ≤ y) | 4 => decide (y < x) | 5 => decide (y ≤ x)
  | _ => false

/-- The predicate that a word writes, and its value (R109, R110, R129). -/
def predOf : Instr → Option (BitVec 3 × (LaneEnv → Thread → Bool))
  | .cmpInteger k p cc a b => some (p, fun e t =>
      match k.toNat with
      | 0 => condInt cc (e.read32 t a).toInt (e.readB t b).toInt
      | 1 => condInt cc (e.read32 t a).toNat (e.readB t b).toNat
      | 2 => condInt cc (e.read64 t a).toInt (e.readB64 t b).toInt
      | _ => condInt cc (e.read64 t a).toNat (e.readB64 t b).toNat)
  | .cmpF32 p cc a b => some (p, fun e t => floatCond cc (e.f32v (e.read32 t a)) (e.f32v (e.readB t b)))
  | .plut p tb x y => some (p, fun _ t =>
      (tb.toNat / 2 ^ ((if t.pred x then 2 else 0) + if t.pred y then 1 else 0)) % 2 == 1)
  | _ => none

/-- The words without a result (R117 to R119): what they do to a thread. -/
def plainOf : Instr → Option (LaneEnv → Thread → Thread)
  | .nop | .join => some fun _ t => t
  | .reorder a => some fun e t => { t with reorderKey := e.read32 t a }
  | _ => none

/-! ## Results of the lane floating-point words (R123 to R141) -/

/-- A word with one 32-bit result and what it adds to STOCH_COUNT: d, the result, the rounding index, the number of
elements that it rounds. -/
structure FloatRes where
  d : Code
  val : LaneEnv → Thread → Word
  idx : BitVec 3 := 1#3
  n : Nat := 0

/-- A word of packed elements, each rounded once (R126). -/
def packedRes (ty : FTy) (r : BitVec 3) (d a : Code) (b : BSrc) (f : Bool → Ex → Ex → Ex → Ex) : Option FloatRes :=
  let val (e : LaneEnv) (t : Thread) : Word := e.packed t ty r fun md k =>
    f md.down (e.elemVal ty (e.read32 t d) k) (e.elemVal ty (e.read32 t a) k) (e.elemVal ty (e.readB t b) k)
  some { d := d, idx := r, n := elems ty, val := val }

/-- A word of one FP32 result, rounded once (R124). -/
def fp32Res (r : BitVec 3) (d : Code) (f : LaneEnv → Thread → Rnd → Ex) : Option FloatRes :=
  let val (e : LaneEnv) (t : Thread) : Word :=
    BitVec.ofNat 32 (e.out fp32 (fp32.round (e.rnd t r 0) (f e t (e.rnd t r 0))))
  some { d := d, idx := r, n := 1, val := val }

/-- A word of element codes that rounds nothing (R127). -/
def codesRes (ty : FTy) (d a : Code) (b : BSrc) (f : Fmt → Nat → Nat → Nat) : Option FloatRes :=
  let val (e : LaneEnv) (t : Thread) : Word :=
    let fm := fmtOf ty
    BitVec.ofNat 32 (pack fm ((List.range (elems ty)).map fun k =>
      e.out fm (f fm (fm.flush e.daz (elem fm (e.read32 t a) k)) (fm.flush e.daz (elem fm (e.readB t b) k)))))
  some { d := d, val := val }

/-- The exact dot product that dot2 rounds once (R130). -/
def dot2Ex (ty : FTy) (d a : Code) (b : BSrc) (e : LaneEnv) (t : Thread) (md : Rnd) : Ex :=
  let p (k : Nat) : Ex := (e.elemVal ty (e.read32 t a) k).mul (e.elemVal ty (e.readB t b) k)
  .sum md.down [e.f32v (e.read32 t d), p 0, p 1]

/-- The floating-point words of R126 to R135, R140 and R141. -/
def floatOf : Instr → Option FloatRes
  | .floatAdd ty r d a b => packedRes ty r d a b fun dn _ x y => .sum dn [x, y]
  | .floatSub ty r d a b => packedRes ty r d a b fun dn _ x y => .sum dn [x, y.negate]
  | .floatMul ty r d a b => packedRes ty r d a b fun _ _ x y => x.mul y
  | .fma ty r d a b => packedRes ty r d a b fun dn z x y => .sum dn [z, x.mul y]
  | .floatMin ty d a b => codesRes ty d a b (nanBoth Fmt.minCode)
  | .floatMax ty d a b => codesRes ty d a b (nanBoth Fmt.maxCodeOf)
  | .minnum ty d a b => codesRes ty d a b (nanOther Fmt.minCode)
  | .maxnum ty d a b => codesRes ty d a b (nanOther Fmt.maxCodeOf)
  | .absF32 d a => some { d := d, val := fun e t => e.read32 t a &&& 0x7fffffff#32 }
  | .negF32 d a => some { d := d, val := fun e t => e.read32 t a ^^^ 0x80000000#32 }
  | .absPacked d a => some { d := d, val := fun e t => e.read32 t a &&& 0x7fff7fff#32 }
  | .negPacked d a => some { d := d, val := fun e t => e.read32 t a ^^^ 0x80008000#32 }
  | .dot2Bf16x2 d a b => fp32Res 0 d (dot2Ex .bf16x2 d a b)
  | .dot2F16x2 d a b => fp32Res 0 d (dot2Ex .f16x2 d a b)
  | .cscM3 d a b => fp32Res 0 d fun e t md =>
      let x := e.read64 t a
      let c := e.readB64 t b
      let comp (k : Nat) : Int := (x.extractLsb' (16 * k) 16).toNat
      let sum := field16 c 0 * comp 0 + field16 c 1 * comp 1 + field16 c 2 * comp 2 + field16 c 3 * 16384
      if sum = 0 then .fin md.down 0 1 else .fin (decide (sum < 0)) sum.natAbs 16384
  | .cscClip d a b =>
    let val (e : LaneEnv) (t : Thread) : Word :=
      let lo : Int := ((e.readB t b).extractLsb' 0 16).toNat
      let hi : Int := ((e.readB t b).extractLsb' 16 16).toNat
      BitVec.ofInt 32 (match e.f32v (e.read32 t a) with
        | .nan => lo
        | .inf n => if n then lo else hi
        | .fin n x y => min (max (signed n (roundIntMag (e.rnd t 0#3 0) n x y)) lo) hi)
    some { d := d, idx := 0, n := 1, val := val }
  | .rndF32 r d a => fp32Res r d fun e t md => match e.f32v (e.read32 t a) with
      | .fin n x y => .fin n (roundIntMag md n x y) 1
      | v => v
  | .cvt k sat d a b =>
    let val (e : LaneEnv) (t : Thread) : Word :=
      e.cvt t k.toNat sat (e.read32 t d) (e.read32 t a) (e.readB t b)
    some { d := d, idx := 0, n := cvtRounds k.toNat, val := val }
  | .qnt sat rs f d a b =>
    let val (e : LaneEnv) (t : Thread) : Word :=
      BitVec.ofNat 32 (e.qntCode f (e.qntRnd t rs (e.read32 t d)) sat
        ((e.f32v (e.read32 t a)).div (e.f32v (e.readB t b))))
    some { d := d, idx := 0, n := if rs then 0 else 1, val := val }
  | .dqnt f d a b => fp32Res 0 d fun e t _ => (e.qntValue f (e.read32 t a)).mul (e.f32v (e.readB t b))
  | _ => none

/-- The special-function words: their number in the order of R136, d and a. -/
def specialOf : Instr → Option (Nat × Code × Code)
  | .rcp d a => some (0, d, a) | .rsqrt d a => some (1, d, a) | .sqrt d a => some (2, d, a)
  | .exp2 d a => some (3, d, a) | .log2 d a => some (4, d, a) | .sinpi d a => some (5, d, a)
  | .cospi d a => some (6, d, a) | .tanh d a => some (7, d, a) | .sigm d a => some (8, d, a)
  | _ => none

/-! ## Cross-lane words (R142 to R147) -/

/-- What a cross-lane word does to one thread: its mask code, and the thread after the word from the environment, the
thread's group and the thread itself. -/
abbrev CrossRes := Code × (LaneEnv → List Thread → Thread → Thread)

/-- A thread takes `a` of the lane that `j` names from its own index and b, or its own where that lane is not in the
group (R144). -/
def picked (d a : Code) (b : BSrc) (m : Code) (j : Nat → Nat → Option Nat) : Option CrossRes :=
  some (m, fun e g t =>
    let src := match j t.tid (e.readB t b).toNat with
      | none => t
      | some n => (g.find? fun u => u.tid == n).getD t
    took32 e.pos d (e.read32 src a) t)

/-- The lane n = b[5:0] steps below, and above; b[6] wraps modulo 64 (R144). -/
def laneBelow (t b : Nat) : Option Nat :=
  if b / 64 % 2 = 1 then some ((t + 64 - b % 64) % 64) else if b % 64 ≤ t then some (t - b % 64) else none
def laneAbove (t b : Nat) : Option Nat :=
  if b / 64 % 2 = 1 then some ((t + b % 64) % 64) else if t + b % 64 < 64 then some (t + b % 64) else none

/-- The mask of the contributors of a group that satisfy a condition (R145). -/
def maskOf (g : List Thread) (c : Thread → Bool) : DWord := threadMask ((contributors g).filter c)

/-- A scan's words: those of the contributors from the start lane up, below the thread, with it if `incl` (R147). -/
def scanned (incl : Bool) (j : BitVec 3) (d a m : Code) (start : LaneEnv → Thread → Nat) : Option CrossRes :=
  some (m, fun e g t =>
    let us := (byTid (contributors g)).filter fun u =>
      decide (start e t ≤ u.tid) && (decide (u.tid < t.tid) || incl && u.tid == t.tid)
    took32 e.pos d (e.fold t j.toNat (us.map fun u => e.read32 u a)) t)

/-- The cross-lane words. -/
def crossOf : Instr → Option CrossRes
  | .xlPick d a b m => picked d a b m fun _ x => some (x % 64)
  | .xlBack d a b m => picked d a b m laneBelow
  | .xlFwd d a b m => picked d a b m laneAbove
  | .xlFlip d a b m => picked d a b m fun t x => some (t ^^^ (x % 64))
  | .quadSwapH d a m => picked d a (.lit 0) m fun t _ => some (t ^^^ 1)
  | .quadSwapV d a m => picked d a (.lit 0) m fun t _ => some (t ^^^ 2)
  | .quadSwapD d a m => picked d a (.lit 0) m fun t _ => some (t ^^^ 3)
  | .quadBcast d a b m => picked d a b m fun t x => some (t / 4 * 4 + x % 4)
  | .xlMask d p m => some (m, fun e g t => took64 e.pos d (maskOf g fun u => u.pred p) t)
  | .xlAny p x m => some (m, fun e g t => tookPred e.pos p ((contributors g).any fun u => u.pred x) t)
  | .xlAll p x m => some (m, fun e g t => tookPred e.pos p ((contributors g).all fun u => u.pred x) t)
  | .xlSame d a m => some (m, fun e g t => took64 e.pos d (maskOf g fun u => e.read32 u a == e.read32 t a) t)
  | .xlFold j d a m => some (m, fun e g t =>
      let t1 := took32 e.pos d (e.fold t j.toNat ((byTid (contributors g)).map fun u => e.read32 u a)) t
      if j = 8#4 then counted e 0 1 t1 else t1)
  | .scanIncl j d a m => scanned true j d a m fun _ _ => 0
  | .scanExcl j d a m => scanned false j d a m fun _ _ => 0
  | .scanSegIncl j d a b m => scanned true j d a m fun e t => segStart (e.readB64 t b) t.tid
  | .scanSegExcl j d a b m => scanned false j d a m fun e t => segStart (e.readB64 t b) t.tid
  | _ => none

/-- The threads after a cross-lane word: each that executes it takes its result from its group among those (R142, R143). -/
def crossThreads (s : State) (r : Run) (todo : List TRef) (c : CrossRes) : List Thread :=
  let xs := todo.map s.thread
  s.threads.map fun t =>
    if todo.contains t.ref then c.2 (s.env r t.cid) (groupOf (s.env r t.cid) c.1 xs t) t else t

/-- The state after a cross-lane word (R142, R143). -/
def crossDone (s : State) (r : Run) (c : CrossRes) : State :=
  passed { s with threads := crossThreads s r r.todo c } r

/-! ## Queue registers among the operands (R99, R201) -/

/-- The effect of a lane word on one thread, a destination queue taking its element last; with the operand codes that
it reads, in order. -/
def laneEffect (i : Instr) : Option (List Code × (LaneEnv → Thread → Thread)) :=
  let codes := i.fields.map (·.1)
  let put (d : Code) (w : Word) (pos : Nat) (t : Thread) : Thread :=
    if isQueueCode d then latched pos w { t with qout := some (d, w) } else took32 pos d w t
  match arith32 i <|> shift32 i with
  | some (d, val) => some (codes.drop 1, fun e t => put d (val e t) e.pos t)
  | none => match floatOf i with
    | some w => some (codes.drop 1, fun e t => counted e w.idx w.n (put w.d (w.val e t) e.pos t))
    | none => match predOf i, plainOf i, pair64 i, specialOf i, i with
      | some (p, val), _, _, _, _ => some (codes, fun e t => tookPred e.pos p (val e t) t)
      | _, some f, _, _, _ => some (codes, fun e t => f e (latched e.pos 0 t))
      | _, _, some (d, val), _, .pxunpk .. => some (codes.drop 2, fun e t => took64 e.pos d (val e t) t)
      | _, _, some (d, val), _, _ => some (codes.drop 1, fun e t => took64 e.pos d (val e t) t)
      | _, _, _, some (n, d, a), _ => some ([a], fun e t =>
          let x : Word := BitVec.ofNat 32 (fp32.flush e.daz (e.read32 t a).toNat)
          tookLong e.pos d 1 (.words [BitVec.ofNat 32 (e.out fp32 (special n x).toNat)]) t)
      | _, _, _, _, .pxpack f d a b => some (codes.drop 2, fun e t =>
          took128 e.pos d (pxPack f (e.read128 t d) (e.read64 t a) ((e.readB t b).toNat % 4)) t)
      | _, _, _, _, _ => none

/-- The queue codes of a word popped for a thread, each once and in order: the region commits, and the element goes to
the thread (R99, R201). A queue popped already for the word is left alone. -/
def popped (r : Run) (t : TRef) : List Code → State → Option State
  | [], s => some s
  | c :: cs, s =>
    let mine (p : DWord × Code × Word) : Bool := p.1 == r.wordAddr && p.2.1 == c
    match (s.thread t).qin.find? mine with
    | some p => popped r t cs (s.updThread t fun x => { x with qin := p :: x.qin.filter fun y => !mine y })
    | none => match (s.commitHere r t).popWord t (queueOf c) with
      | .ok s1 w => popped r t cs (s1.updThread t fun x => { x with qin := (r.wordAddr, c, w) :: x.qin })
      | _ => none

/-- The word is complete for the thread: what it has popped for it is used up, and REGION_PC moves past it where it
pops (R201). -/
def usedUp (srcs : List Code) (r : Run) (s : State) (t : TRef) : State :=
  if queueCodes srcs = [] then s
  else s.updThread t fun x => { x with qin := x.qin.filter fun p => p.1 != r.wordAddr, regionPc := r.nextInstr }

/-- The element that a destination queue takes is pushed: the region commits, and what precedes is performed at the
scope of the queue (R201, R203). -/
def pushed (r : Run) (t : TRef) (s : State) : Option State :=
  match (s.thread t).qout with
  | none => some s
  | some (c, w) => (s.pushCommit r t (queueOf c)).bind fun s0 => match s0.pushWord t (queueOf c) r.wordAddr w with
    | .ok s1 _ => some (s1.updThread t fun x => { x with qout := none, regionPc := r.nextInstr })
    | _ => none

/-- A lane word with queue codes, for one thread. -/
def queueEff (srcs : List Code) (f : LaneEnv → Thread → Thread) (r : Run) (s : State) (t : TRef) : Option State :=
  (popped r t (queueCodes srcs) s).bind fun s1 =>
    (pushed r t (s1.updThread t (f (s1.env r t.cid)))).map fun s2 => usedUp srcs r s2 t

/-- Source queues of a cross-lane word popped for every thread of the run before any computes (R143, R201). -/
def poppedAll (r : Run) (cs : List Code) : List TRef → State → Option State
  | [], s => some s
  | t :: ts, s => (popped r t cs s).bind (poppedAll r cs ts)

/-- A cross-lane word but for the count of its draws. -/
def crossValue : Instr → Option CrossRes
  | .xlFold j d a m => some (m, fun e g t =>
      took32 e.pos d (e.fold t j.toNat ((byTid (contributors g)).map fun u => e.read32 u a)) t)
  | i => crossOf i

/-- The count of a cross-lane word's draws (R146). -/
def crossDraws (e : LaneEnv) (t : Thread) : Instr → Thread
  | .xlFold j _ _ _ => if j = 8#4 then counted e 0 1 t else t
  | _ => t

/-- What a cross-lane word computes for one thread, a destination queue taking its element last. -/
def crossQueued (i : Instr) : Option CrossRes :=
  (crossValue i).map fun c => (c.1, fun e g t => match i.fields with
    | (d, _) :: _ => if isQueueCode d then
        let x := (c.2 e g t).latch (e.pos % 8)
        { c.2 e g t with qout := some (d, match x with | .lane w => w | _ => 0) }
      else c.2 e g t
    | [] => c.2 e g t)

/-- The operand codes that a word reads after its destination. -/
def readCodes (i : Instr) : List Code := (i.fields.drop 1).map (·.1)

/-- A cross-lane word completes for a thread once its push is made: its draws count, and what it has popped is used up
(R51, R143, R201). -/
def crossEnded (i : Instr) (r : Run) (s : State) (t : TRef) : Option State :=
  (pushed r t s).map fun s1 => s1.updThread t fun x => crossDraws (s.env r t.cid) { x with
    qin := x.qin.filter fun p => p.1 != r.wordAddr
    regionPc := if queueCodes (readCodes i) = [] then x.regionPc else r.nextInstr } i

/-! ## Words that act for one thread after another -/

/-- What a word does for one thread when it completes for it: none where it traps, faults or waits. -/
abbrev Turn1 := Run → State → TRef → Option State

/-- The latch of the position takes 0, and nothing else happens to the thread (R23). -/
def idleTurn (r : Run) (s : State) (t : TRef) : State := s.updThread t (latched r.pos 0)

/-- Source queues first (R201). -/
def afterPops (srcs : List Code) (eff : Turn1) : Turn1 := fun r s t =>
  (popped r t (queueCodes srcs) s).bind fun s1 => (eff r s1 t).map fun s2 => usedUp srcs r s2 t

/-- A result in d, pushed last where d is a queue register (R201). -/
def givesWord (d : Code) (w : Word) (r : Run) (s : State) (t : TRef) : Option State :=
  if isQueueCode d then pushed r t (s.updThread t fun x => latched r.pos w { x with qout := some (d, w) })
  else if (s.thread t).qout.isSome then none
  else some (s.updThread t (took32 r.pos d w))

/-- The target of a relative branch (R112). -/
def branchTo (r : Run) (o : BitVec 17) : DWord := BitVec.ofInt 64 (r.start.toNat + 4 * r.pos + 4 * o.toInt)
/-- The call-stack pair takes the address after the trailer (R15, R113). -/
def setLr (r : Run) (t : Thread) : Thread :=
  let a : DWord := BitVec.ofNat 64 (r.start.toNat + 4 * r.pos + 8)
  let v := t.v.setIfInBounds (t.allot - 4) (a.setWidth 32)
  { t with v := v.setIfInBounds (t.allot - 4 + 1) (a.extractLsb' 32 32) }

/-- The jumps to a register's target: the target, and what else the thread does (R113, R114). -/
def jumpOf : Instr → Option ((LaneEnv → Thread → DWord) × (Run → Thread → Thread))
  | .jmp a => some (fun e t => e.read64 t a, fun _ t => t)
  | .callRegister a => some (fun e t => e.read64 t a, setLr)
  | .ret => some (fun _ t => t.pair (t.allot - 4), fun _ t => t)
  | _ => none

/-- A register transfer for the threads of a run in ascending order: one whose target is not word-aligned takes
BAD_TARGET with the target in TRAP_ADDR, and leaves its run (R114, R169); `left` says whether one has. -/
def jumpAll (target : LaneEnv → Thread → DWord) (f : Run → Thread → Thread) (r : Run) : List TRef → Bool → State → State
  | [], left, s => s.finishWord r.key left
  | t :: ts, left, s =>
    let a := target (s.env r t.cid) (s.thread t)
    if a.toNat % 4 = 0 then jumpAll target f r ts left
      ((s.updThread t fun x => { latched r.pos 0 (f r x) with jump := some a }).markDone r.key t)
    else jumpAll target f r ts true
      ((s.leaveRun r.key t).raise t ⟨0x0a#8, r.wordAddr, a, trapData r.word r.pos 0#8⟩)

/-- A jump of one thread to a word-aligned target. -/
def jumpTurn (target : LaneEnv → Thread → DWord) (f : Run → Thread → Thread) : Turn1 := fun r s t =>
  let a := target (s.env r t.cid) (s.thread t)
  if a.toNat % 4 = 0 then some (s.updThread t fun x => { latched r.pos 0 (f r x) with jump := some a }) else none

/-- Threads that end one after the other (R115). -/
def endedAll (r : Run) : List TRef → State → State
  | [], s => s
  | t :: ts, s => endedAll r ts (((s.exitThread t).exitHelpers t.cid).leaveRun r.key t)

/-! ## Memory words (R173 to R193) -/

/-- The effective address (R173): the offset moves modulo 2^52, space and region stand. -/
def eaOf (e : LaneEnv) (t : Thread) (a o : Code) (size : Nat) : DWord :=
  let p := (e.read64 t a).toNat
  BitVec.ofNat 64 (p / 2 ^ 52 * 2 ^ 52 + (((p % 2 ^ 52 : Nat) + o.toInt * size) % 2 ^ 52).toNat)

/-- An access goes to global memory, not to a scratchpad. -/
def inGlobal : Dest → Bool
  | .global .. => true
  | .scratch .. => false

/-- A memory word's access of a size at an address, checked and located: the state with its page cached, the key, and
where it goes; none where a check fails or the access must wait (R174, R192, R362). -/
def access (s : State) (t : TRef) (ea : DWord) (size : Nat) (kind : AccKind) : Option (State × Nat × Dest) :=
  match s.memCheck (s.crew t.cid).wid ea size kind with
  | .error _ => none
  | .ok d =>
    if s.poolDown d then none
    else match s.locate d (kind != .load) with
      | .at s1 k => some (s1, k, d)
      | .pageFault .. => none

/-- A load: size, registers, the words made of the number read, how it reads, its operands (R176, R181, R183). -/
def loadOf : Instr → Option (Nat × Nat × (Nat → List Word) × ReadKind × Code × Code × Code)
  | .ld z c d a o =>
    let n := (ldSize z + 3) / 4
    some (ldSize z, n, fun x => match z.toNat with
      | 1 => [BitVec.ofInt 32 (signedOf 8 (x % 256))]
      | 3 => [BitVec.ofInt 32 (signedOf 16 (x % 65536))]
      | _ => (List.range n).map fun i => BitVec.ofNat 32 (x / 2 ^ (32 * i)), { policy := c }, d, a, o)
  | .ldRelaxed w d a o =>
    let n := if w then 2 else 1
    some (4 * n, n, fun x => (List.range n).map fun i => BitVec.ofNat 32 (x / 2 ^ (32 * i)), { strong := true }, d, a, o)
  | .ldAcq e w d a o =>
    let n := if w then 2 else 1
    some (4 * n, n, fun x => (List.range n).map fun i => BitVec.ofNat 32 (x / 2 ^ (32 * i)),
      { acquire := e.toNat }, d, a, o)
  | _ => none

/-- A load that passes its checks: what it comes after is performed, an acquire invalidates, and its words, or the
failure of its read, are pending for d (R26, R179, R181 to R183, R277). -/
def loadTurn (size n : Nat) (f : Nat → List Word) (kind : ReadKind) (d a o : Code) : Turn1 := fun r s t =>
  let wid := (s.crew t.cid).wid
  let ea := s.actEa wid (eaOf (s.env r t.cid) (s.thread t) a o size)
  let c := s.crewCol t.cid
  let strong := kind.strong || decide (3 ≤ kind.acquire)
  if s.sharedWait wid ea then none
  else (access s t ea size .load).bind fun (s1, k, dst) => (s1.settleRead c (some t) strong k size).bind fun s0 =>
    let s2 := s0.acquired c (kind.invalidates dst)
    match s2.readBase c t.cid wid r.wordAddr r.word kind dst ea k size with
    | .full => none
    | .fail v => some (s2.updThread t (tookLong r.pos d n v))
    | .ok s3 base => some ((if strong then s3.noteRead c t k size else s3).updThread t
        (tookLong r.pos d n (.words (f (leNat (s3.viewOver t ea k base))))))

/-- The number that a store's data operand holds (R181). -/
def dataOf (e : LaneEnv) (t : Thread) (c : Code) (size : Nat) : Nat :=
  if size ≤ 4 then (e.read32 t c).toNat % 2 ^ (8 * size)
  else if size = 8 then (e.read64 t c).toNat else (e.read128 t c).toNat

/-- A store or a reduction: cache policy, size, kind, operation of its data, operands (R176, R181, R183, R187). -/
def storeOf : Instr → Option (BitVec 2 × Nat × AccKind × (Nat → StoreOp) × Code × Code × Code)
  | .st z c d a o => some (c, stSize z, .store, fun x => .write (toLe (stSize z) x), d, a, o)
  | .stRelaxed w d a o =>
    some (0, if w then 8 else 4, .store, fun x => .write (toLe (if w then 8 else 4) x), d, a, o)
  | .red k d a o =>
    some (0, redSize k, .red (decide (k.toNat < 2)), fun x => .reduce k (BitVec.ofNat 64 x), d, a, o)
  | _ => none

/-- What a thread's word sends to memory: an operation at a key (R178, R369). -/
def heldOf (r : Run) (s : State) (t : TRef) (ea : DWord) (k : Nat) (policy : BitVec 2) (op : StoreOp) : HeldStore :=
  { tid := t.tid, key := k, op := op, ea := ea, word := r.word, pc := r.wordAddr, policy := policy
    epoch := (s.thread t).keepEpoch }

/-- A store of a thread: a global one is held in its crew's queue, one to scratchpad is performed (R178); a helper
thread's has no effect (R11). -/
def storeTurn (policy : BitVec 2) (size : Nat) (kind : AccKind) (op : Nat → StoreOp) (d a o : Code) : Turn1 := fun r s t =>
  let e := s.env r t.cid
  let x := s.thread t
  let ea := s.actEa (s.crew t.cid).wid (eaOf e x a o size)
  if x.helper then some (idleTurn r s t)
  else (access s t ea size kind).bind fun (s1, k, dst) =>
    let h := heldOf r s t ea k policy (op (dataOf e x d size))
    if inGlobal dst then
      if 256 ≤ (s.crew t.cid).storeQ.length then none
      else some (idleTurn r (s1.updCrew t.cid fun y => { y with storeQ := y.storeQ ++ [h] }) t)
    else (s1.scratchStore t h).map fun s2 => idleTurn r s2 t

/-- What a thread's store comes after is performed: for one to scratchpad the core's pending stores to the same bytes,
and, where the pool is another column's, what the thread has read; none while that waits for a seal (R178, R302, R308). -/
def storeAfter (s : State) (t : TRef) (k size : Nat) (dst : Dest) : Option State :=
  let c := s.crewCol t.cid
  if inGlobal dst then some s
  else (s.settleWrite c k size).bind fun s1 => if keyRegion k = regScratch c then some s1 else s1.settleSeen c t

/-- st.rel at a scope: the region commits, and the store is released after what it comes after (R180, R183, R304); once
the seal of its commit point is valid, it goes on (R291). REGION_PC moves past the word. -/
def releaseTurn (scope : Nat) (w : Bool) (d a o : Code) : Turn1 := fun r s t =>
  let size := if w then 8 else 4
  let e := s.env r t.cid
  let x := s.thread t
  let c := s.crewCol t.cid
  let wid := (s.crew t.cid).wid
  let ea := s.actEa wid (eaOf e x a o size)
  if x.helper ∨ (x.sealedOwn r.wordAddr).isSome then some (idleTurn r (s.commitAt r t) t)
  else (access s t ea size .store).bind fun (s1, k, dst) =>
    if s1.sealsOwn t r.wordAddr (inGlobal dst && !s1.logged (s1.wg wid) ea) then none
    else
      let h := heldOf r s t ea k 0 (.write (toLe size (dataOf e x d size)))
      let s2 := s1.commitHere r t
      let done := if inGlobal dst then
          (if 3 ≤ scope then some s2 else s2.performed c t scope).map fun s3 => s3.release t.cid h (decide (3 ≤ scope))
        else (s2.performed c t scope).bind fun s3 => s3.scratchStore t h
      done.map fun s4 => idleTurn r (s4.commitAt r t) t

/-- An atomic: size, how many registers its destination names, whether a PCIe AtomicOp carries it, its operation and
operands from the data registers (R184 to R186). -/
def atomOf : Instr → Option (Nat × Nat × Bool × (LaneEnv → Thread → BitVec 5 × DWord × DWord) × Code × Code × Code)
  | .atom k d a o =>
    let host := k == 0#4 || k == 1#4 || k == 10#4 || k == 11#4
    some (atomSize k, atomSize k / 4, host, fun e x =>
      (k.setWidth 5, BitVec.ofNat 64 (dataOf e x d (atomSize k)), 0), d, a, o)
  | .atomCasB32 d a o => some (4, 2, true, fun _ x =>
      (cas32Op, (x.reg d.toNat).setWidth 64, (x.reg (d.toNat + 1)).setWidth 64), d, a, o)
  | .atomCasB64 d a o => some (8, 4, true, fun _ x => (cas64Op, x.pair d.toNat, x.pair (d.toNat + 2)), d, a, o)
  | _ => none

/-- An atomic of a thread: a commit point (R180, R184). In global memory it takes its place in the core store order,
and its old value is pending until it is performed; one to scratchpad, or one whose line is logged, is performed at
once (R291, R301, R368). A helper thread reads zero (R11). -/
def atomTurn (size n : Nat) (host : Bool) (f : LaneEnv → Thread → BitVec 5 × DWord × DWord) (d a o : Code) : Turn1 :=
  fun r s t =>
    let e := s.env r t.cid
    let x := s.thread t
    let c := s.crew t.cid
    let col := s.crewCol t.cid
    let ea := s.actEa c.wid (eaOf e x a o size)
    let old (v : Nat) : PendVal := .words ((List.range (size / 4)).map fun i => BitVec.ofNat 32 (v / 2 ^ (32 * i)))
    let fin (s1 : State) (v : PendVal) : State := (s1.commitAt r t).updThread t (tookLong r.pos d n v)
    if x.helper then some (fin s (old 0))
    else match x.sealedOwn r.wordAddr with
      | some m => some (fin (s.commitAt r t) ((s.commitAt r t).atomicResult col m (size / 4)))
      | none =>
        if s.sharedWait c.wid ea then none
        else (access s t ea size (.atomic host)).bind fun (s1, k, dst) =>
          let p := f e x
          let ordered := inGlobal dst && !s1.logged (s1.wg c.wid) ea
          let s2 := s1.commitHere r t
          if s1.sealsOwn t r.wordAddr ordered then none
          else if ordered then
            some (fin (s2.release t.cid (heldOf r s t ea k 0 (.atomic p.1 p.2.1 p.2.2))) (.atomic (s2.col col).seqNext))
          else match s2.readFailure r.wordAddr r.word ea k size with
            | some v => some (fin s2 v)
            | none => ((s2.settleSeen col t).bind fun s3 =>
                s3.performAtomic c.wid t.cid c.idx t.tid ea dst k p.1 p.2.1 p.2.2).map fun y => fin y.2 (old y.1.toNat)

/-- The fences, the stash words, prefetch and the word that only commits (R120, R188 to R193). -/
def fenceOf : Instr → Option Turn1
  | .region => some fun r s t => some (idleTurn r (s.commitAt r t) t)
  | .fence e => some fun r s t =>
      let wid := (s.crew t.cid).wid
      if (s.thread t).helper then some (idleTurn r (s.commitAt r t) t)
      else
        let s1 := (s.commitHere r t).refindStash wid
        let c := (s1.wg wid).col
        (s1.performed c t e.toNat).bind fun s2 =>
          let s3 := (if 4 ≤ e.toNat then s2.flushStash wid fun _ => true else s2).acquired c e.toNat
          if 4 ≤ e.toNat ∧ (s3.stashStuck wid fun _ => true).isSome then none
          else some (idleTurn r (s3.commitAt r t) t)
  | .pfenceRind => some fun r s t =>
      let c := s.crewCol t.cid
      if (s.thread t).helper then some (idleTurn r (s.commitAt r t) t)
      else ((s.commitHere r t).performed c t 2).map fun s1 =>
        idleTurn r ((s1.updCol c (Column.askSeal 0)).commitAt r t) t
  | .pfenceRindWait => some fun r s t =>
      if (s.thread t).helper then some (idleTurn r (s.commitAt r t) t)
      else match (r.kept.find? fun p => p.1 == t).map (·.2) with
      | none => none
      | some n => if n ≤ (s.col (s.crewCol t.cid)).lastSeal then some (idleTurn r (s.commitAt r t) t) else none
  | .pfenceKeep => some fun r s t => some (idleTurn r ((persistFence r s t).commitAt r t) t)
  | .pfenceKeepWait => some fun r s t => match (r.kept.find? fun p => p.1 == t).map (·.2) with
      | none =>
        let s1 := persistFence r s t
        if s1.keepPending t (s1.thread t).keepEpoch then none else some (idleTurn r (s1.commitAt r t) t)
      | some n => if s.keepPending t n then none else some (idleTurn r (s.commitAt r t) t)
  | .stashMap d a b => some (afterPops (bCodes b) fun r s t =>
      let e := s.env r t.cid
      let x := s.thread t
      let w := s.wg (s.crew t.cid).wid
      let v := (e.readB64 x b).toNat
      let g := e.read64 x a
      let fin (s1 : State) (n : Word) : State := s1.updThread t (tookLong r.pos d 1 (.words [n]))
      if x.helper then some (fin s 0xffffffff#32)
      else if (s.stashErr w g (v % 2 ^ 32) (v / 2 ^ 32)).isSome then none
      else
        let i := ((List.range 16).find? fun j => !w.stash.any fun y => y.idx == j).getD 0
        let new : StashEntry := ⟨i, v % 2 ^ 32, v / 2 ^ 32, g, (s.stashIa w.wid g (v / 2 ^ 32)).getD 0, []⟩
        some (fin ((s.updWg w.wid fun y => { y with stash := y.stash ++ [new] }).dropStashLines w.wid [new])
          (BitVec.ofNat 32 i)))
  | .stashUnmap b => some (afterPops (bCodes b) (stashTurn false b))
  | .stashFlush b => some (afterPops (bCodes b) (stashTurn true b))
  | .prefetch a b => some (afterPops (bCodes b) fun r s t =>
      let e := s.env r t.cid
      let x := s.thread t
      match (if x.helper then none else s.prefetchLine (s.crew t.cid).wid (e.read64 x a)) with
      | none => some (idleTurn r s t)
      | some (s1, ia, k) =>
        let missing := (List.range 8).filter fun i => ((s.col (s.crewCol t.cid)).l1Sector (ia + 16 * i)).isNone
        if (e.readB x b).getLsbD 0 = true ∨ ptrSpace (e.read64 x a) ≠ 0 ∨ (s.stashAt ia).isSome ∨ missing = [] then
          some (idleTurn r s1 t)
        else (s1.missAt (s.crewCol t.cid) t.cid (ia / 128) k missing true false).map fun s2 => idleTurn r s2 t)
  | _ => none
where
  /-- The thread's later stores to the persistent window stay behind its earlier ones (R190). -/
  persistFence (r : Run) (s : State) (t : TRef) : State :=
    (s.commitHere r t).updThread t fun x => { x with keepEpoch := x.keepEpoch + 1 }
  /-- The entry that b names, or all of them, is written back and stays mapped only if `stays` (R192). -/
  stashTurn (stays : Bool) (b : BSrc) : Turn1 := fun r s t =>
    let x := s.thread t
    let n := (s.env r t.cid).readB x b
    let w := s.wg (s.crew t.cid).wid
    let sel (y : StashEntry) : Bool := n == 0xffffffff#32 || y.idx == n.toNat
    let s1 := (s.refindStash w.wid).flushStash w.wid sel
    if x.helper then some (idleTurn r s t)
    else if (n ≠ 0xffffffff#32 ∧ ¬ w.stash.any sel) ∨ (s1.stashStuck w.wid sel).isSome then none
    else some (idleTurn r (if stays then s1
      else (s1.updWg w.wid fun y => { y with stash := y.stash.filter fun z => !sel z }).dropStashLines w.wid
        (w.stash.filter sel)) t)

/-! ## Barriers, queues, tickets (R194 to R204) -/

/-- A transaction barrier that a word names, aligned, in scratchpad, writable: the state in which it is known, unless the
thread is a helper, and its key (R11, R196). -/
def tbHere (s : State) (t : TRef) (p : DWord) : Option (State × Nat) :=
  if ptrOff p % 16 ≠ 0 ∨ (ptrSpace p ≠ 1 ∧ ptrSpace p ≠ 2) then none
  else (access s t p 16 .store).map fun x => (if (s.thread t).helper then x.1 else x.1.noteTb x.2.1, x.2.1)

/-- A word that posts: its count lies in 1 to `hi`; the region commits, a release performs what precedes it at the
object's scope, and the object takes the post (R197, R198). -/
def tbTurn (rel : Bool) (hi : Nat) (a : Code) (b : BSrc) (eff : Run → State → TRef → Nat → Nat → State) : Turn1 :=
  afterPops (bCodes b) fun r s t =>
    let e := s.env r t.cid
    let p := e.read64 (s.thread t) a
    let n := (e.readB (s.thread t) b).toNat
    (tbHere s t p).bind fun (s1, k) =>
      let s2 := s1.commitHere r t
      if n = 0 ∨ hi < n then none
      else (if rel && !(s.thread t).helper then s2.performed (s.crewCol t.cid) t (if ptrSpace p = 2 then 3 else 1)
        else some s2).map fun s3 => ((eff r s3 t k n).usedBy r.key).commitAt r t

/-- tb.wait and tb.test: the phase that the token names has passed, or the bound is over, now or at a clock that has
passed meanwhile; a success acquires (R199, R312). -/
def tbLook (wait : Bool) (d a : Code) (b : BSrc) : Turn1 :=
  afterPops (bCodes b) fun r s t =>
    let e := s.env r t.cid
    let x := s.thread t
    let v := (e.readB x b).toNat
    let run := s.run r.key
    let fin (s1 : State) (w : Word) : Option State := givesWord d w r
      (if w.toNat / 64 % 4 = 0 ∧ ¬ x.helper then s1.acquired (s.crewCol t.cid) 3 else s1) t
    match (run.tbWaits.find? fun y => y.t == t).bind (·.status) with
    | some w => fin s w
    | none => match tbHere s t (e.read64 x a) with
      | none => none
      | some (s1, k) =>
        let clock := (s.col r.key.col).clock
        let waited := if wait then clock - run.parkedAt.getD clock else 0
        let o := s1.tb k
        let ahead := (o.phase + 16 - v % 16) % 16
        if (1 ≤ ahead ∧ ahead ≤ 7) ∨ (if wait then v / 256 else 0) ≤ waited then fin s1 (o.status (v % 16) waited)
        else none

/-- Elements pushed to a queue register as one group (R201, R202). -/
def pushAll (q : BitVec 3) (r : Run) (t : TRef) : List Word → State → Option State
  | [], s => some s
  | w :: ws, s => match s.pushWord t q r.wordAddr w with
    | .ok s1 _ => pushAll q r t ws s1
    | _ => none
/-- A group pushed: the region commits, what precedes is performed at the queue's scope, REGION_PC moves past the word,
the latch takes 0 (R23, R202, R203). -/
def groupTurn (q : BitVec 3) (ws : List Word) : Turn1 := fun r s t =>
  ((s.pushCommit r t q).bind (pushAll q r t ws)).map fun s1 => idleTurn r (s1.commitAt r t) t

/-- The words of R194 to R204; `s0` is the state in which the word began. -/
def syncOf (s0 : State) : Instr → Option Turn1
  | .barArrive d a b => some (afterPops (a :: bCodes b) fun r s t =>
      let e := s.env r t.cid
      let x := s.thread t
      let wid := (s.crew t.cid).wid
      let n := (e.read32 x a).toNat
      let m := (e.readB x b).toNat
      let bar := (s.wg wid).bars[n]?.getD {}
      if 15 < n ∨ m = 0 ∨ 1024 < m ∨ (bar.arr ≠ 0 ∧ m ≠ bar.exp ∧ ¬ x.helper) then none
      else
        let fin (s1 : State) (g : Word) : State :=
          (s1.commitAt r t).updThread t (tookLong r.pos d 1 (.words [g]))
        if x.helper then some (fin s (((s0.wg wid).bars[n]?.getD {}).gen))
        else ((s.commitHere r t).performed (s.crewCol t.cid) t 1).map fun s1 =>
          let now := (s1.wg wid).bars[n]?.getD {}
          let exp := if now.arr = 0 then m else now.exp
          let next : Barrier :=
            if now.arr + 1 = exp then ⟨now.gen + 1, 0, exp⟩ else ⟨now.gen, now.arr + 1, exp⟩
          fin (s1.updWg wid fun w => { w with bars := w.bars.setIfInBounds n next }) now.gen)
  | .barWait a b => some (afterPops (a :: bCodes b) fun r s t =>
      let e := s.env r t.cid
      let n := (e.read32 (s.thread t) a).toNat
      if n < 16 ∧ ((s.wg (s.crew t.cid).wid).bars[n]?.getD {}).gen ≠ e.readB (s.thread t) b then
        some (idleTurn r s t) else none)
  | .tbInit a b => some (tbTurn true 1048575 a b fun r s t k n =>
      idleTurn r (if (s.thread t).helper then s else s.setTb k { pending := n, reload := n }) t)
  | .tbArrive d a b => some (tbTurn true 1048575 a b fun r s t k n =>
      let c := s.crew t.cid
      let o := s.tb k
      let left := o.pending - n
      let refused := decide (o.pending < n)
      let word : Word := BitVec.ofNat 32 (o.phase + (if refused then 256 else if left = 0 then 512 else 0))
      let s1 := s.setTb k (if refused then { o with overrun := true } else { o with pending := left })
      let fin (s : State) (v : PendVal) : State := s.updThread t (tookLong r.pos d 1 v)
      if (s.thread t).helper then fin s (.words [BitVec.ofNat 32 o.phase])
      else if (s.crewLaunch t.cid).deterministic ∧ ¬ refused then
        fin (s1.updWg c.wid fun w => w.noteArrival k (c.idx * 64 + t.tid)) (.arrival k (BitVec.ofNat 32 o.phase))
      else fin s1 (.words [word]))
  | .tbExpect a b => some (tbTurn false 2147483647 a b fun r s t k n =>
      let o := s.tb k
      let x := o.sectors + n
      idleTurn r (if (s.thread t).helper then s
        else s.setTb k (if 2147483648 ≤ x ∨ x < -2147483648 then { o with overrun := true }
          else { o with sectors := x })) t)
  | .tbWait d a b => some (tbLook true d a b)
  | .tbTest d a b => some (tbLook false d a b)
  | .qbind d a b => some (afterPops (bCodes b) fun r s t =>
      let e := s.env r t.cid
      let x := s.thread t
      match (s.wg (s.crew t.cid).wid).binding (e.read64 x a) (e.readB x b) with
      | none => none
      | some v =>
        let s1 := s.landReservations (s.queueId t (queueOf d)) x.pend.length
        if (s1.thread t).reserves (queueOf d) then none
        else some ((s1.dropPacket t (queueOf d).toNat).updThread t fun y =>
          latched r.pos 0 { y with q := y.q.setIfInBounds (queueOf d).toNat v }))
  | .qpush d a => some (afterPops [a] fun r s t =>
      groupTurn (queueOf d) [(s.env r t.cid).read32 (s.thread t) a] r s t)
  | .qpushr d a b => some (afterPops (bCodes b) fun r s t =>
      let x := s.thread t
      let n := ((s.env r t.cid).readB x b).toNat
      if x.helper then some (idleTurn r (s.commitAt r t) t)
      else if n = 0 ∨ 16 < n ∨ (allotErr x.allot [(a.toNat, n)]).isSome ∨
          (hazardErr r.hazards [(a.toNat, n)]).isSome then none
      else groupTurn (queueOf d) ((List.range n).map fun i => x.reg (a.toNat + i)) r s t)
  | .qpop d a => some fun r s t =>
      let x := s.thread t
      let s1 := s.commitAt r t
      let fin (s1 : State) (v : PendVal) : State := s1.updThread t (tookLong r.pos d 1 v)
      let pops : Bool := match x.bind (queueOf a) with
        | .mxdrain _ | .hit => true
        | .ringIn p => x.helper || match s.ringHdr (s.whoCrew t.cid) p with
          | .ok .. | .bad .wait => true
          | .bad _ => false
        | _ => false
      if !pops then none
      else if x.helper then some (fin s1 (.words [0]))
      else some (fin (({ s1 with nextId := s1.nextId + 1 } : State).wakeRing t (queueOf a))
        (.element (queueOf a) s1.nextId))
  | .qstat d a => some fun r s t => match s.qstatOf r t (queueOf a) with
      | .ok (s1, none) => givesWord d 0 r s1 t
      | .ok (s1, some (kind, inbound, n)) => givesWord d (BitVec.ofNat 32
          (2147483648 + (if inbound then 1073741824 else 0) + kind * 16777216 + min n 65535)) r s1 t
      | .error _ => none
  | .ticketTake d => some fun r s t =>
      let w := s.wg (s.crew t.cid).wid
      let idx : Word := BitVec.ofNat 32 (w.index.getD 4294967295)
      if ¬ (s.launch w.lid).deterministic then none
      else if (s.thread t).helper then givesWord d idx r (s.commitAt r t) t
      else if w.ticket ∨ s.lowerEnded w then
        givesWord d idx r (((s.commitAt r t).acquired w.col 4).updWg w.wid fun x => { x with ticket := true }) t
      else none
  | _ => none

/-! ## Engine words (R240 to R266, R205) -/

/-- The release at an issue: the region commits, what precedes is performed, REGION_PC moves past the word (R240). -/
def issued (r : Run) (s : State) (t : TRef) : Option State :=
  ((s.commitHere r t).performed r.key.col t 5).map fun s1 =>
    s1.updThread t fun x => { x with regionPc := r.nextInstr, sealing := none }

/-- That release, and the operation on its class's counter (R22, R240, R241): `f` is what the engine takes over. -/
def issueTurn (cls : EngClass) (r : Run) (s : State) (t : TRef) (f : State → Nat → State) : Option State :=
  if 255 ≤ (s.crew t.cid).count cls then none
  else (issued r s t).map fun s1 => f ({ s1 with nextId := s1.nextId + 1 }.addOp t.cid cls s1.nextId) s1.nextId

/-- A helper thread's engine word only commits (R11). -/
def helperTurn (r : Run) (s : State) (t : TRef) : State := idleTurn r (s.commitAt r t) t

/-- The xe commands with a descriptor (R246 to R251): the kind and the operands. -/
def xeOf : Instr → Option (XeKind × Code × Code × BSrc)
  | .xeCopy d a b => some (.copy, d, a, b)
  | .xeRagged d a b => some (.ragged, d, a, b)
  | .xeBtab d a b => some (.btab, d, a, b)
  | .xeGather d a b => some (.gather, d, a, b)
  | .xeCbx d a b => some (.cbx, d, a, b)
  | .xeFill d a b => some (.fill, d, a, b)
  | _ => none

/-- A transfer command that passes every check of R251 joins its channel, and d takes WPTR at its end (R244, R248). -/
def xeTurn (k : XeKind) (d a : Code) (b : BSrc) : Turn1 := fun r s t =>
  let e := s.env r t.cid
  let x := s.thread t
  let wid := (s.crew t.cid).wid
  let dp := e.read64 x a
  let tb := if b = .code 120#7 then none else some (e.readB64 x b)
  if x.helper then givesWord d 0 r (s.commitAt r t) t
  else if ¬ s.mayTransfer t.cid ∨ ¬ ptrOk dp 32 then none
  else match s.issueRead r t dp 96 with
    | .error _ => none
    | .ok (s1, bs) =>
      let desc := XeDesc.parse bs
      if (s1.xeErr wid k dp desc tb).isSome then none
      else match s1.acceptedXe wid t.cid desc.chan with
        | some v => (issued r s t).bind fun s2 => givesWord d v r (s2.updCrew t.cid fun c =>
            { c with xeSeq := c.xeSeq.setIfInBounds desc.chan ((c.xeSeq[desc.chan]?.getD 0) + 1) }) t
        | none => (issueTurn .transfer r s t fun s2 id => s2.acceptXe wid t.cid id k desc tb).bind fun s3 =>
            givesWord d (BitVec.ofNat 32 (s3.chan wid desc.chan).wend) r s3 t

/-- The pending result of a status doubleword (R26). -/
def tookPair (r : Run) (d : Code) (v : DWord) (s : State) (t : TRef) : State :=
  s.updThread t (tookLong r.pos d 2 (.words [v.setWidth 32, v.extractLsb' 32 32]))

/-- The other words of R252 to R266 and R205. -/
def engineOf : Instr → Option Turn1
  | .xeLut a b => some fun r s t =>
      let e := s.env r t.cid
      let x := s.thread t
      let wid := (s.crew t.cid).wid
      let p := e.read64 x a
      let ctl := (e.readB x b).toNat
      if x.helper then some (helperTurn r s t)
      else if ¬ s.mayTransfer t.cid ∨ (s.lutErr wid p (e.readB x b)).isSome then none
      else issueTurn .transfer r s t fun s1 id => idleTurn r (s1.updLut wid (ctl % 4) fun l =>
        { l with loads := l.loads ++ [⟨id, t.cid, p, 2 ^ (ctl / 16 % 8)⟩] }) t
  | .smpCfg a => some fun r s t =>
      let x := s.thread t
      let p := (s.env r t.cid).read64 x a
      if x.helper then some (helperTurn r s t)
      else if ¬ ptrOk p 64 then none
      else match s.issueRead r t p 64 with
        | .error _ => none
        | .ok (s1, bs) =>
          let c := SmpCfg.parse bs
          let key := s1.smpKey t.cid p
          if (c.err (decide (3 < natAt bs 36 4))).isSome then none
          else (issued r s1 t).map fun s2 =>
            let s3 : State := if (s2.smpCtx? key).isSome then s2
              else { s2 with smps := { key := key, cfg := c, op := s2.nextId } :: s2.smps, nextId := s2.nextId + 1 }
            idleTurn r (s3.smpDo key fun y => { y with work := y.work ++ [.cfg ⟨(s.crew t.cid).wid, p⟩ c] }) t
  | .smpPush a b => some fun r s t =>
      let e := s.env r t.cid
      let x := s.thread t
      let p := e.read64 x a
      let key := s.smpKey t.cid p
      if x.helper then some (helperTurn r s t)
      else if (s.smpCtx? key).isNone then none
      else issueTurn .sampling r s t fun s1 id => idleTurn r
        (s1.updSmp key fun c => { c with work := c.work ++ [.push id t.cid ⟨(s.crew t.cid).wid, p⟩ (e.readB64 x b)] }) t
  | .smpDraw d a => some fun r s t =>
      let x := s.thread t
      let p := (s.env r t.cid).read64 x a
      let key := s.smpKey t.cid p
      if x.helper then some ((s.commitAt r t).updThread t (tookLong r.pos d 1 (.words [0])))
      else if (s.smpCtx? key).isNone then none
      else issueTurn .sampling r s t fun s1 id =>
        (s1.updSmp key fun c => { c with work := c.work ++ [.draw id t ⟨(s.crew t.cid).wid, p⟩] }).updThread t
          (tookLong r.pos d 1 (.draw id))
  | .rtTrace d a b => some fun r s t =>
      let x := s.thread t
      let flags := (s.env r t.cid).readB x b
      if x.helper then some (helperTurn r s t)
      else match x.bind (queueOf d), x.hitQ with
        | .ray scene, some q =>
          if 8 ≤ flags.toNat ∨ 256 ≤ s.raysHeld r.key.col then none
          else issueTurn .traversal r s t fun s1 id =>
            let ray : Ray := {
              id := id, cid := t.cid, tid := t.tid, q := q, scene := scene
              regs := (List.range 8).map fun i => x.reg (a.toNat + i), flags := flags }
            idleTurn r { s1 with rays := s1.rays ++ [ray] } t
        | _, _ => none
  | .rtCont b => some fun r s t =>
      let x := s.thread t
      let ans := ((s.env r t.cid).readB x b).toNat
      if x.helper then some (helperTurn r s t)
      else match x.cands with
        | id :: rest =>
          if 1 < ans then none
          else (issued r s t).map fun s1 => idleTurn r ((s1.updRay id (Ray.answer (ans == 1))).updThread t
            fun y => { y with cands := rest }) t
        | [] => none
  | .rtPop d a => some fun r s t =>
      let fin (s1 : State) (ws : List Word) : State := s1.updThread t (tookLong r.pos d 4 (.words ws))
      if (s.thread t).helper then some (fin (s.commitAt r t) [0, 0, 0, 0])
      else match State.popWords t (queueOf a) 4 [] (s.commitAt r t) with
        | (s1, ws, none) => some (fin s1 ws)
        | _ => none
  | .collReady a b => some fun r s t =>
      let e := s.env r t.cid
      let x := s.thread t
      let p := e.read64 x a
      let i := (e.readB x b).toNat
      let wid := (s.crew t.cid).wid
      let name := ((s.crewLaunch t.cid).ctx, p, i)
      let fin (s1 : State) : State := idleTurn r (s1.updCrew t.cid fun y =>
        { y with collSeq := bumpSeq y.collSeq (p, i) }) t
      if x.helper then some (helperTurn r s t)
      else if ¬ s.hasTile name then none
      else if seqOf (s.crew t.cid).collSeq (p, i) < seqOf s.collAcc (t.cid, p, i) then
        (issued r s t).map fin
      else if s.inProgress name then none
      else match s.issueRead r t (ptrAdd p (64 * i)) 64 with
        | .error _ => none
        | .ok (s0, bs) =>
          let ea := ptrAdd p (64 * i + 40)
          match engCan wid ea 4 0 s0 with
          | .ok s1 _ => issueTurn .collective r s1 t fun s2 id =>
            let s3 := match s2.engWrite wid ea (toLe 4 (65536 + natAt bs 41 1 * 256)) with
              | .ok s3 _ => s3
              | _ => s2
            let ent : CollEntry := {
              id := id, ctx := name.1, table := p, index := i, cid := t.cid, fields := bs, readiedAt := s3.timeNs }
            let s4 : State := { s3 with
              colls := s3.colls ++ [ent], collAcc := bumpSeq s3.collAcc (t.cid, p, i) }
            fin (if ent.ok s.cardId then s4 else s4.endEntry ent 3 0x7b#8)
          | _ => none
  | .collWait d a b => some fun r s t =>
      let e := s.env r t.cid
      let x := s.thread t
      let name := ((s.crewLaunch t.cid).ctx, e.read64 x a, (e.readB x b).toNat)
      let v := ((s.collDone.find? fun y => y.1 == name).map (·.2)).getD 2
      if x.helper then givesWord d 0 r s t
      else if ¬ s.hasTile name ∨ s.inProgress name then none
      else givesWord d (BitVec.ofNat 32 v) r (if v = 0 then s.acquired (s.crewCol t.cid) 5 else s) t
  | .ropeArrive d a b => some fun r s t =>
      let e := s.env r t.cid
      let x := s.thread t
      let n := (e.readB x b).toNat
      let rp := s.rope n
      let time := e.read64 x a
      let k := (rp.frameOf (t64ToNs time)).getD 0
      if x.helper then givesWord d 0 r (s.commitAt r t) t
      else if 3 < n then none
      else match s.arriveStatus rp time with
        | 0 => (issueTurn .stream r s t fun s1 id =>
            { s1.setRope n { rp with
                own := (k, true, t.cid, id) :: rp.own, arrivals := (k, rp.self) :: rp.arrivals } with
              outbox := s1.outbox ++ [.arrival n k (((rp.required k).filter fun m => m != rp.self).map fun m =>
                (m, s.carrier m))] }).bind fun s2 => givesWord d 0 r s2 t
        | 1 => (issued r s t).bind fun s1 =>
            givesWord d 1 r (s1.setRope n { rp with own := (k, false, 0, 0) :: rp.own }) t
        | v => (issued r s t).bind fun s1 => givesWord d (BitVec.ofNat 32 v) r s1 t
  | .ropeStatus d a b => some fun r s t =>
      let e := s.env r t.cid
      let x := s.thread t
      let n := (e.readB x b).toNat
      if x.helper then some (tookPair r d 0 s t)
      else if 3 < n then none
      else match s.ropeStatus (s.rope n) (e.read64 x a) with
        | some v => some (tookPair r d v s t)
        | none => some (tookPair r d (Config.freeDWord 8 s.freeCtr) { s with freeCtr := s.freeCtr + 1 } t)
  | .srd d a b => some (afterPops (a :: bCodes b) fun r s t =>
      let e := s.env r t.cid
      let sel := (e.read32 (s.thread t) a).toNat
      let k := (e.readB (s.thread t) b).toNat
      let land (x : State) : State :=
        if k = 0 ∧ (s.thread t).helper = false then x.acquired (x.crewCol t.cid) 4 else x
      if 512 ≤ sel ∨ 7 < k then none
      else match s.srdValue (sel / 256 % 2 == 1) (sel % 256) k with
        | some v => some (tookPair r d v (land s) t)
        | none => some (tookPair r d (Config.freeDWord 7 s.freeCtr) (land { s with freeCtr := s.freeCtr + 1 }) t))
  | _ => none

/-! ## Uniform words (R148 to R168) -/

/-- What a uniform word leaves: the result in d, if it has one, and the latch of every gathered member, or in the
sequencer's stream the next word after `n` extension words (R23, R45, R148). -/
def uDone (s : State) (a : UAgent) (d : Option UReg) (x v : DWord) (n : Nat) : State :=
  let put (g : Vector DWord 256) : Vector DWord 256 := match d with
    | some d => g.setIfInBounds d.toNat x
    | none => g
  match a with
  | .crew r cid =>
    { s.updCrew cid fun c => { c with g := put c.g } with
      threads := s.threads.map fun t =>
        if r.members.contains t.ref then { t with b := t.b.setIfInBounds (r.pos % 8) (.uniform v) } else t
      runs := s.runs.map fun y => if y.key = r.key then y.advance else y }
  | .seq c => s.updCol c fun y => { y with seqr := { y.seqr with
      g := put y.seqr.g, pc := y.seqr.pc + BitVec.ofNat 64 (4 + 4 * n), parked := none, refaultCnt := 0
      refaultUnit := none } }

/-- A taken transfer: the run ends at the target for every gathered member, or the sequencer goes there (R153). -/
def uGone (s : State) (a : UAgent) (target v : DWord) : State :=
  match a with
  | .crew r _ =>
    { s with
      threads := s.threads.map fun t => if r.members.contains t.ref then
        { t with jump := some target, b := t.b.setIfInBounds (r.pos % 8) (.uniform v) } else t
      runs := s.runs.map fun y => if y.key = r.key then y.advance else y }
  | .seq c => s.updCol c fun y => { y with seqr := { y.seqr with pc := target } }

/-- A uniform word with one result: d, mod[3], the extension words, the result (R45, R148). -/
abbrev UOp := UReg × Bool × Nat × (State → UAgent → DWord)

/-- A result from g[d] and b, and from g[d] and sext(imm13). -/
def uOf (d : UReg) (b : USrc) (lo : Bool) (f : DWord → DWord → DWord) : Option UOp :=
  some (d, lo, b.ext, fun s a => f (s.ug a d) (s.uVal a b))
def uOfI (d : UReg) (i : BitVec 13) (f : DWord → DWord → DWord) : Option UOp :=
  some (d, false, 0, fun s a => f (s.ug a d) (i.signExtend 64))

/-- The functions of R150 and R151. -/
def uAdd (x y : DWord) : DWord := BitVec.ofNat 64 (x.toNat + y.toNat)
def uSub (x y : DWord) : DWord := BitVec.ofInt 64 (x.toNat - y.toNat)
def uMul (x y : DWord) : DWord := BitVec.ofNat 64 (x.toNat * y.toNat)
def uMulHiS (x y : DWord) : DWord := BitVec.ofInt 64 (x.toInt * y.toInt / 2 ^ 64)
def uMulHiU (x y : DWord) : DWord := BitVec.ofNat 64 (x.toNat * y.toNat / 2 ^ 64)
def uShl (x y : DWord) : DWord :=
  if y.toNat % 256 < 64 then BitVec.ofNat 64 (x.toNat * 2 ^ (y.toNat % 256)) else 0
def uShr (x y : DWord) : DWord :=
  if y.toNat % 256 < 64 then BitVec.ofNat 64 (x.toNat / 2 ^ (y.toNat % 256)) else 0
def uSar (x y : DWord) : DWord :=
  if y.toNat % 256 < 64 then BitVec.ofInt 64 (x.toInt / 2 ^ (y.toNat % 256))
  else if x.msb then 0xffffffffffffffff#64 else 0
def uRot (x y : DWord) : DWord := (x <<< (y.toNat % 64)) ||| (x >>> (64 - y.toNat % 64))
def uLen (y : DWord) : Nat := min (y.toNat / 256 % 128) 64
def uBfeU (x y : DWord) : DWord := BitVec.ofNat 64 (x.toNat / 2 ^ (y.toNat % 64) % 2 ^ uLen y)
def uBfeS (x y : DWord) : DWord :=
  if uLen y = 0 then 0
  else BitVec.ofInt 64 (signedOf (uLen y) (x.toInt / 2 ^ (y.toNat % 64) % 2 ^ uLen y).toNat)
def uBfi (x y : DWord) : DWord :=
  let m : DWord := BitVec.ofNat 64 (2 ^ min (y.toNat / 256 % 64) 32 - 1) <<< (y.toNat % 64)
  (x &&& ~~~m) ||| ((BitVec.ofNat 64 (y.toNat / 2 ^ 32) <<< (y.toNat % 64)) &&& m)

/-- The integer words, comparisons and moves of R150 and R151, and rdtime (R160). -/
def uniformOf : Instr → Option UOp
  | .uniformAdd d b lo => uOf d b lo uAdd
  | .uniformAddImm d i => uOfI d i uAdd
  | .uniformSub d b lo => uOf d b lo uSub
  | .uniformSubImm d i => uOfI d i uSub
  | .uniformMulLo d b lo => uOf d b lo uMul
  | .uniformMulLoImm d i => uOfI d i uMul
  | .uniformMulHiI64 d b lo => uOf d b lo uMulHiS
  | .uniformMulHiI64Imm d i => uOfI d i uMulHiS
  | .uniformMulHiN64 d b lo => uOf d b lo uMulHiU
  | .uniformMulHiN64Imm d i => uOfI d i uMulHiU
  | .uniformShl d b lo => uOf d b lo uShl
  | .uniformShlImm d i => uOfI d i uShl
  | .uniformShrN d b lo => uOf d b lo uShr
  | .uniformShrNImm d i => uOfI d i uShr
  | .uniformShrI d b lo => uOf d b lo uSar
  | .uniformShrIImm d i => uOfI d i uSar
  | .uniformRot d b lo => uOf d b lo uRot
  | .uniformRotImm d i => uOfI d i uRot
  | .uniformAnd d b lo => uOf d b lo (· &&& ·)
  | .uniformAndImm d i => uOfI d i (· &&& ·)
  | .uniformOr d b lo => uOf d b lo (· ||| ·)
  | .uniformOrImm d i => uOfI d i (· ||| ·)
  | .uniformXor d b lo => uOf d b lo (· ^^^ ·)
  | .uniformXorImm d i => uOfI d i (· ^^^ ·)
  | .uniformAndn d b lo => uOf d b lo (fun x y => x &&& ~~~y)
  | .uniformAndnImm d i => uOfI d i (fun x y => x &&& ~~~y)
  | .uniformMinI64 d b lo => uOf d b lo (fun x y => if x.toInt ≤ y.toInt then x else y)
  | .uniformMaxI64 d b lo => uOf d b lo (fun x y => if x.toInt ≤ y.toInt then y else x)
  | .uniformMinN64 d b lo => uOf d b lo (fun x y => if x.toNat ≤ y.toNat then x else y)
  | .uniformMaxN64 d b lo => uOf d b lo (fun x y => if x.toNat ≤ y.toNat then y else x)
  | .uniformBfeN64 d b lo => uOf d b lo uBfeU
  | .uniformBfeI64 d b lo => uOf d b lo uBfeS
  | .uniformBfi d b lo => uOf d b lo uBfi
  | .uniformClz d b lo => uOf d b lo (fun _ y => BitVec.ofNat 64 (if y = 0 then 64 else 63 - y.toNat.log2))
  | .uniformPopc d b lo => uOf d b lo (fun _ y => BitVec.ofNat 64 ((List.range 64).filter y.getLsbD).length)
  | .uniformBrev d b lo => uOf d b lo (fun _ y => y.reverse)
  | .uniformMov d b lo => uOf d b lo (fun _ y => y)
  | .setEq d b lo => uOf d b lo fun x y => if x = y then 1 else 0
  | .setNe d b lo => uOf d b lo fun x y => if x ≠ y then 1 else 0
  | .setLtI64 d b lo => uOf d b lo fun x y => if x.toInt < y.toInt then 1 else 0
  | .setLeI64 d b lo => uOf d b lo fun x y => if x.toInt ≤ y.toInt then 1 else 0
  | .setGtI64 d b lo => uOf d b lo fun x y => if y.toInt < x.toInt then 1 else 0
  | .setGeI64 d b lo => uOf d b lo fun x y => if y.toInt ≤ x.toInt then 1 else 0
  | .setLtN64 d b lo => uOf d b lo fun x y => if x.toNat < y.toNat then 1 else 0
  | .setLeN64 d b lo => uOf d b lo fun x y => if x.toNat ≤ y.toNat then 1 else 0
  | .setGtN64 d b lo => uOf d b lo fun x y => if y.toNat < x.toNat then 1 else 0
  | .setGeN64 d b lo => uOf d b lo fun x y => if y.toNat ≤ x.toNat then 1 else 0
  | .uniformMovi d i => uOfI d i fun _ y => y
  | .uniformMovl d v lo => some (d, lo, 2, fun _ _ => v)
  | .rdtime d lo => some (d, lo, 0, fun s _ => s.time)
  | _ => none

/-- The target of a relative uniform transfer (R152). -/
def uTo (s : State) (a : UAgent) (o : BitVec 13) : DWord :=
  BitVec.ofInt 64 ((s.uAddr a).toNat + 4 * o.toInt)

/-- bz, bnz and br: the offset and when the branch is taken (R152). -/
def uBranchOf : Instr → Option (BitVec 13 × (State → UAgent → Bool))
  | .bz g o => some (o, fun s a => s.ug a g == 0)
  | .bnz g o => some (o, fun s a => s.ug a g != 0)
  | .br o => some (o, fun _ _ => true)
  | _ => none

/-- A uniform access that passes its checks: the state with its page cached, the key, where it goes (R154, R155). -/
def uReach (s : State) (a : UAgent) (p : DWord) (size : Nat) (kind : AccKind) : Option (State × Nat × Dest) :=
  let ea := s.actEa (s.uWid a) p
  match s.memCheck (s.uWid a) ea size kind with
  | .error _ => none
  | .ok d =>
    if (kind ≠ .store ∧ s.sharedWait (s.uWid a) ea) ∨ s.poolDown d then none
    else match s.locate d (decide (kind ≠ .load)) with
      | .at s1 k => some (s1, k, d)
      | .pageFault .. => none

/-- Uniform loads: size, extension, how they read, d, b, mod[3] (R154). -/
def uLoadOf : Instr → Option (Nat × (Nat → DWord) × ReadKind × UReg × USrc × Bool)
  | .uniformLd z d b lo =>
    let f (x : Nat) : DWord := match z.toNat with
      | 4 => BitVec.ofInt 64 (signedOf 8 (x % 2 ^ 8))
      | 5 => BitVec.ofInt 64 (signedOf 16 (x % 2 ^ 16))
      | 6 => BitVec.ofInt 64 (signedOf 32 (x % 2 ^ 32))
      | _ => BitVec.ofNat 64 x
    some (if z = 7#3 then 8 else 2 ^ (z.toNat % 4), f, {}, d, b, lo)
  | .uniformLdAcqDev d b lo => some (8, BitVec.ofNat 64, { acquire := 4 }, d, b, lo)
  | _ => none

/-- What a uniform load comes after, once it has reached its bytes: the members' regions commit, and what it must see is
performed, which no seal holds back (R155, R183, R291). -/
def uReads (s : State) (a : UAgent) (kind : ReadKind) (k size : Nat) : Option State :=
  (s.uCommitHere a).settleRead (s.uCol a) (some a.ref) (decide (3 ≤ kind.acquire)) k size

/-- Uniform stores: whether a release, size, d, b (R154). -/
def uStoreOf : Instr → Option (Bool × Nat × UReg × USrc)
  | .uniformSt z d b => some (false, 2 ^ (z.toNat % 4), d, b)
  | .uniformStRelDev d b => some (true, 8, d, b)
  | _ => none

/-- A uniform store of some bytes that reaches its key: the members' regions commit, and it is released, or performed in
scratchpad, unless what goes before it waits for a seal (R155, R291); its traps are every member's (R403). -/
def uStored (s : State) (a : UAgent) (rel : Bool) (ea : DWord) (k : Nat) (dst : Dest) (bs : List Byte) : Option State :=
  let h : HeldStore := {
    tid := a.ref.tid, key := k, op := .write bs, ea := ea, word := a.word, pc := s.uAddr a
    epoch := (s.thread a.ref).keepEpoch, also := a.others }
  let s1 := s.uCommitHere a
  (if inGlobal dst then some (s1.releaseAs (s1.uWid a) a.ref.cid (s1.uCrew a) h rel) else s1.uScratch a h rel).map
    fun s2 => s2.uCommit a

/-- A record that a uniform word reads, after the members' regions commit and what goes before is performed at device
scope (R155, R163). -/
def uRead (s : State) (a : UAgent) (p : DWord) : Option (State × Record) :=
  if ptrOff p % 32 ≠ 0 ∨ s.sharedWait (s.uWid a) p ∨ ((s.uCommitHere a).objDown (s.uWid a) p 32).isSome then none
  else ((s.uCommitHere a).performed (s.uCol a) a.ref 4).bind fun s1 =>
    match s1.readObj (s.uWid a) p 32 with
    | .ok s2 bs => some (s2, .parse bs p (s.wg (s.uWid a)).lid)
    | _ => none

/-- A wait.time that is over: what the sequencer was waiting for is forgotten; a run forgets it with its word (R161). -/
def waited (s : State) : UAgent → State
  | .crew .. => s
  | .seq c => s.updCol c fun x => { x with seqr := { x.seqr with waitsFor := none } }

/-- Every gathered member takes a trap (R169). -/
def crewTraps (r : Run) (ti : TrapInfo) : List TRef → State → State
  | [], s => s
  | t :: ts, s => crewTraps r ti ts ((s.leaveRun r.key t).raise t ti)

/-- Every gathered member returns from its trap (R168). -/
def crewReturns : List TRef → State → State
  | [], s => s
  | t :: ts, s => crewReturns ts ((s.commit t).updThread t fun x =>
      { x with jump := some x.trapPc, regionPc := x.trapPc, trapLevel := false })

/-- The state in which a crew's handler is looked up: the pending results of its live members have landed and their open
regions are committed (R169, R170). -/
def settled (s : State) (cid : Nat) : State :=
  (s.liveMembers cid).foldl (fun acc t => acc.commit t.ref)
    ((s.liveMembers cid).foldl (fun acc t => acc.landAll t.ref) s)

/-- Gathered members that end one after the other (R167). -/
def crewEnds (r : Run) : List TRef → State → State
  | [], s => s
  | t :: ts, s => crewEnds r ts ((s.exitThread t).leaveRun r.key t)

/-- The uniform words of a crew run that read a record or wait (R161 to R165): the state that they leave. -/
def crewWordOf (r : Run) (cid : Nat) (s : State) : Instr → Option State
  | .waitCnt c n =>
    let cls := match c.toNat with
      | 0 => EngClass.transfer | 1 => .matrix | 2 => .sampling | 3 => .traversal | 4 => .collective | _ => .stream
    let v := (s.crew cid).count cls
    if v ≤ n.toNat then some (uDone (s.acquired (s.crewCol cid) 4) (.crew r cid) none 0 (BitVec.ofNat 64 v) 0) else none
  | .spawn b =>
    let a : UAgent := .crew r cid
    let c := s.crewCol cid
    if (s.crewLaunch cid).deterministic then none
    else match uRead s a (s.uVal a b) with
      | none => none
      | some (s1, rec_) =>
        if rec_.spawnErr.isSome ∨ (s1.col c).hasRoom = false then none
        else some (uDone ((s1.uCommit a).pushRecord c rec_) a none 0 0 b.ext)
  | .joinDec d b lo =>
    let a : UAgent := .crew r cid
    let p := s.uVal a b
    let ea := ptrAdd p 16
    if (s.crewLaunch cid).deterministic ∨ (s.uSealedOwn a).isSome then none
    else match uReach s a ea 4 (.atomic false) with
      | none => none
      | some (s1, k, dst) =>
        let c := s1.uCol a
        let dec (x : State) : Option State :=
          (x.performAtomic (s1.uWid a) a.ref.cid (s1.uCrew a) a.ref.tid ea dst k joinOp 1 0).map (·.2)
        ((s1.uCommitHere a).performed c a.ref 4).bind fun s0 =>
          let old := leNat (s0.bytes k 4)
          let fin (x : State) : State :=
            uDone (x.uCommit a) a (if lo then none else some d) (BitVec.ofNat 64 (old - 1)) (BitVec.ofNat 64 (old - 1)) b.ext
          if (s1.uUnsealed a).isEmpty = false ∨ (s0.readFailure (s1.uAddr a) a.word ea k 4).isSome ∨ old = 0 then none
          else if 1 < old then (dec s0).map fin
          else (uRead s0 a p).bind fun (s2, rec_) =>
            if rec_.joinErr.isSome ∨ (s2.col (s0.uCol a)).hasRoom = false then none
            else (dec s2).map fun s3 => fin (s3.pushRecord (s0.uCol a) { rec_ with join := 0 })
  | .yield b =>
    let a : UAgent := .crew r cid
    let p := s.uVal a b
    let fin (x : State) (ys : List (Nat × Record)) : State := ((x.uCommit a).updWg (s.uWid a) fun w =>
      { w with yielding := true, yields := w.yields ++ ys }).endCrew r cid
    if p = 0 then some (fin s [])
    else match uRead s a p with
      | none => none
      | some (s1, rec_) => if rec_.yieldErr.isSome then none else some (fin s1 [((s.crew cid).idx, rec_)])
  | .rte =>
    if r.members.all fun t => (s.thread t).trapLevel then some (uDone (crewReturns r.members s) (.crew r cid) none 0 0 0)
    else none
  | .uniformExit => some ((crewEnds r r.members s).exitHelpers cid).settle
  | .trap i => some (crewTraps r ⟨0x0b#8, r.wordAddr + 8, r.wordAddr, i.setWidth 64⟩ r.members s).settle
  | .brk => some (crewTraps r ⟨0x0c#8, r.wordAddr + 8, r.wordAddr, 0⟩ r.members s).settle
  | _ => none

/-- The registers that mts can write (R157); TRAP_PC drops its low bits, ROUND 6 and 7 leave ROUND (R21). -/
def mtsThread (n : Nat) (v : DWord) (t : Thread) : Thread :=
  if t.exited then t
  else if n = 2 then { t with trapPc := v &&& 0xfffffffffffffffc#64 }
  else if n = 3 then { t with trapCause := v.setWidth 8 }
  else if n = 4 then { t with trapAddr := v }
  else if n = 5 then { t with trapData := v }
  else if n = 7 then { t with stochCount := v.setWidth 32 }
  else t
def mtsCrew (n : Nat) (v : DWord) (c : Crew) : Crew :=
  if n = 16 then
    let round := if 6 ≤ v.toNat % 8 then c.mode.toNat % 8 else v.toNat % 8
    { c with mode := BitVec.ofNat 32 (v.toNat / 8 % 4 * 8 + round) }
  else if n = 20 then { c with stochSeed := v }
  else if n = 21 then { c with qntSeed := v }
  else if n = 22 then { c with qntTensor := v.setWidth 32 }
  else if n = 23 then { c with qntBase := v }
  else if n = 24 then { c with tsel := v.setWidth 6 }
  else c

/-! ## Matrix words (R212 to R234) -/

/-- Bytes that a matrix word reads: every piece lies in the allocation and none stops it (R211, R216). -/
def mxGot (s : State) (c : Nat) (ps : List (DWord × Nat)) : Option (State × List Byte) :=
  if ps.any fun p => (s.scratchCheck (s.whoWg (s.seqWid c)) p.1 p.2).isNone then none
  else match mxReads c 0x70 0 ps [] s with
    | .ok s1 bs => some (s1, bs)
    | .stop _ => none

/-- Pieces that a matrix word writes, all of them (R211, R232). -/
def mxPlaced (s : State) (c : Nat) (ps : List (DWord × List Byte)) : Option State :=
  if ps.any fun p => (s.scratchCheck (s.whoWg (s.seqWid c)) p.1 p.2.length).isNone then none
  else match mxCan c ps s with
    | .stop _ => none
    | .ok s1 _ => match mxPut c ps s1 with
      | .ok s2 _ => some s2
      | .stop _ => none

/-- An operand of mma or xload: an operand tile, or a fit descriptor's 16 rows (R212, R215, R216). -/
def mxTile (s : State) (c : Nat) (n : UReg) (adv : Bool) : Option (State × Tile) :=
  if n.toNat < 4 then some (s, (s.col c).seqr.x[n.toNat]?.getD {})
  else if ((s.mxDesc c n).bad 192 adv true).isSome then none
  else (mxGot s c (s.mxDesc c n).pieces).map fun x => (x.1, tileOf x.2)

/-- An operand of mma that is well formed: a tile, or a descriptor that R215 finds no fault with. -/
def mxFit (s : State) (c : Nat) (n : UReg) (adv : Bool) : Bool :=
  decide (n.toNat < 4) || (((s.mxDesc c n).bad 192 adv true).isNone &&
    (s.mxDesc c n).pieces.all fun p => (s.scratchCheck (s.whoWg (s.seqWid c)) p.1 p.2).isSome)

/-- BASE of a descriptor moves by TILE_PITCH, in its offset alone (R217). -/
def mxMoved (s : State) (c : Nat) (n : UReg) (on : Bool) : State :=
  if on then
    let d := s.mxDesc c n
    let o := ((d.base.toNat % 2 ^ 52 : Nat) + d.tilePitch.toInt) % 2 ^ 52
    s.setUg (.seq c) n (BitVec.ofNat 64 (d.base.toNat / 2 ^ 52 * 2 ^ 52 + o.toNat))
  else s

/-- The sequencer changed by a word that is then complete (R210). -/
def seqSet (s : State) (c : Nat) (f : Sequencer → Sequencer) : State :=
  uDone (s.updCol c fun x => { x with seqr := f x.seqr }) (.seq c) none 0 0 0

/-- What a matrix word leaves on its operands' values (R222 to R234). -/
def matrixOf (s : State) (col : Nat) : Instr → Option State
  | .mma f ck z c a b advA advB =>
    let q := (s.col col).seqr
    let m := f.toNat
    if m = 9 ∧ ((q.codebook q.cbA).isNone ∨ (q.codebook q.cbB).isNone) then none
    else if q.outTarget = some c.toNat ∧ q.outliers.any (fun o => decide (mxK m ≤ o.k)) then none
    else
      let same := decide (a = b) && (advA || advB)
      if ¬ mxFit s col b (advB || same) then none
      else (mxTile s col a (advA || same)).bind fun x => (mxTile x.1 col b (advB || same)).map fun y =>
        let s1 := mxMoved (mxMoved y.1 col a advA) col b (advB && !(advA && a == b))
        uDone (s1.mmaTiles col m ck z c x.2 y.2) (.seq col) none 0 0 0
  | .mmo c a =>
    let p := s.ug (.seq col) a
    let w := (s.ug (.seq col) (a + 1)).toNat
    if ¬ scratchPtr p 4 ∨ 64 < w then none
    else (mxGot s col ((List.range w).map fun i => (ptrAdd p (4 * i), 4))).bind fun x =>
      let ws := (List.range w).map fun i => wAt x.2 (4 * i)
      if ws.any fun y => y.toNat / 512 % 8 != 0 then none
      else some (seqSet x.1 col fun q => { q with
        outliers := ws.map fun y => ⟨y.extractLsb' 16 16, y.toNat / 4096 % 16, y.toNat % 512⟩
        outTarget := if w = 0 then none else some c.toNat })
  | .xload a b adv => (mxTile s col b adv).map fun x =>
      seqSet (mxMoved x.1 col b adv) col fun q => { q with x := q.x.setIfInBounds a.toNat x.2 }
  | .xpop a =>
    let st := (s.col col).seqr.staging[a.toNat]?.getD {}
    if st.full ≠ 0xffff#16 then none
    else
      let s1 := s.updCol col fun x => { x with seqr := { x.seqr with
        x := x.seqr.x.setIfInBounds a.toNat st.tile, staging := x.seqr.staging.setIfInBounds a.toNat {} } }
      some (uDone (st.crews.foldl (fun acc cid => acc.dropRows cid 1) s1) (.seq col) none 0 0 0)
  | .cbload c a sa sb =>
    let p := s.ug (.seq col) a
    if ¬ scratchPtr p 32 then none
    else (mxGot s col [(ptrAdd p 0, 16), (ptrAdd p 16, 16)]).map fun x => seqSet x.1 col fun q => { q with
        cb := q.cb.setIfInBounds c.toNat (some x.2)
        cbA := if sa then some c.toNat else q.cbA
        cbB := if sb then some c.toNat else q.cbB }
  | .azero c => some (seqSet s col fun q => { q with a := q.a.setIfInBounds c.toNat {} })
  | .aload c a bf adv =>
    let d := s.mxDesc col a
    let row := if bf then 32 else 64
    if (d.bad row adv false).isSome then none
    else (mxGot s col ((List.range 16).flatMap fun i => rowPieces (d.row i) row)).map fun x =>
      let v (i n : Nat) : Word :=
        if bf then widenBf16 (natAt x.2 (row * i + 2 * n) 2) else wAt x.2 (row * i + 4 * n)
      seqSet (mxMoved x.1 col a adv) col fun q => { q with a := q.a.setIfInBounds c.toNat (.loaded v) }
  | .adrain c a bf clr =>
    let d := s.mxDesc col a
    if (d.bad (if bf then 32 else 64) false false).isSome then none
    else (mxPlaced s col (d.drains ((s.col col).seqr.acc c) bf 0)).map fun s1 =>
      seqSet s1 col fun q => if clr then { q with a := q.a.setIfInBounds c.toNat {} } else q
  | .adrainT c a b bf clr =>
    let d := s.mxDesc col a
    let e := s.mxDesc col b
    let a0 := (s.col col).seqr.acc c
    let a1 := (s.col col).seqr.acc (c + 1)
    if (d.bad (if bf then 32 else 64) false false).isSome ∨ (e.bad 32 false false).isSome ∨ e.badCopy then none
    else (mxPlaced s col (d.drains a0 bf 0 ++ d.drains a1 bf 16 ++ e.copies a0 a1)).map fun s1 =>
      seqSet s1 col fun q => if clr then
        { q with a := (q.a.setIfInBounds c.toNat {}).setIfInBounds (c + 1).toNat {} } else q
  | .adrainQ c a bf clr =>
    let q := (s.col col).seqr
    let old := q.drain[a.toNat]?.getD []
    let ws := (q.acc c).drainWords bf
    if 1024 < old.length + ws.length then none
    else some (seqSet s col fun x => { x with
      a := if clr then x.a.setIfInBounds c.toNat {} else x.a
      drain := x.drain.setIfInBounds a.toNat (old ++ ws) })
  | .ack c a tol =>
    let t : Ex := if tol = 0#2 then .fin false 1 65536 else if tol = 1#2 then .fin false 1 4096
      else if tol = 2#2 then .fin false 1 256 else .zero
    let x := ((s.col col).seqr.acc c).ack t
    some (uDone ((s.setUg (.seq col) a x.1).setUg (.seq col) (a + 1) x.2) (.seq col) none 0 0 0)
  | .afix c a =>
    let x := (s.col col).seqr.acc c
    let g := (s.ug (.seq col) a).toNat
    let r := g % 16
    let n := g / 16 % 16
    some (if g / 256 % 4 = 1 ∧ x.ckValid then
      let others := (List.range 16).filter fun i => i != r
      let v := rnd (.sum false (f32 (x.ckCol[n]?.getD 0) :: others.map fun i => (f32 (x.at i n)).negate))
      seqSet s col fun q => { q with a := q.a.setIfInBounds c.toNat (x.put r n v) }
    else uDone s (.seq col) none 0 0 0)
  | _ => none

/-! ## Curd operations and commands (R320 to R327, R419 to R428) -/

/-- The operation is complete, and its run goes on at index `n` (R419, R421). -/
def curdWent (s : State) (q : Nat) (r : CurdRun) (n : Nat) : State :=
  let s1 := match r.eng with
    | some id => s.dropEng id
    | none => s
  s1.updQueue q fun x => { x with run := some { r with index := n, park := .running, eng := none, cmd := none } }

/-- A register of a queue takes a value. -/
def curdSet (s : State) (q : Nat) (a : BitVec 4) (v : DWord) : State :=
  s.updQueue q fun x => { x with w := x.w.setIfInBounds a.toNat v }

/-- The run is over: a packet run takes its packet off the ring, and STOP stops the queue (R320, R419). -/
def curdOver (s : State) (q : Nat) (r : CurdRun) (stop : Bool) : State :=
  let s1 := match r.eng with
    | some id => s.dropEng id
    | none => s
  { s1.updQueue q fun x => { x with run := none, head := if r.completion then x.head else x.head + 1
                                    stopped := x.stopped || stop } with
    turn := if s.turn = Turn.curd q then .idle else s.turn }

/-- Bytes that an operation or a command reads in its queue's context, no earlier page fault having failed for
good (R349, R419, R424). -/
def curdGot (s : State) (q : Nat) (r : CurdRun) (p : DWord) (n : Nat) (align : Bool) : Option (State × List Byte) :=
  if (r.eng.bind fun id => (s.eng id).failed).isSome then none
  else match s.devRead (s.queue q).ctx p n align with
    | .ok s1 bs => some (s1, bs)
    | _ => none

/-- The operations that write wA from the registers and a constant: wA and its value (R419). -/
def curdValue (s : State) (x : Queue) (r : CurdRun) : Instr → Option (BitVec 4 × DWord)
  | .curdLdi a i => some (a, BitVec.ofNat 64 i.toNat)
  | .curdLdh a i => some (a, BitVec.ofNat 64 ((x.reg a).toNat * 65536 + i.toNat))
  | .curdAddi a i => some (a, BitVec.ofInt 64 ((x.reg a).toNat + i.toInt))
  | .curdMov a b => some (a, x.reg b)
  | .curdAdd a b => some (a, BitVec.ofNat 64 ((x.reg a).toNat + (x.reg b).toNat))
  | .curdSub a b => some (a, BitVec.ofInt 64 ((x.reg a).toNat - (x.reg b).toNat))
  | .curdAnd a b => some (a, x.reg a &&& x.reg b)
  | .curdOr a b => some (a, x.reg a ||| x.reg b)
  | .curdXor a b => some (a, x.reg a ^^^ x.reg b)
  | .curdShl a n => some (a, BitVec.ofNat 64 ((x.reg a).toNat * 2 ^ n.toNat))
  | .curdShr a n => some (a, BitVec.ofNat 64 ((x.reg a).toNat / 2 ^ n.toNat))
  | .curdSlt a b => some (a, if (x.reg a).toNat < (x.reg b).toNat then 1 else 0)
  | .curdTime a => some (a, s.time)
  | .curdPkt a i => if r.completion ∨ i.toNat % 8 ≠ 0 ∨ 120 < i.toNat then none else some (a, dwAt r.packet i.toNat)
  | .lwait a b => match (x.handles.find? fun y => y.1 == (x.reg b).toNat).map (·.2.2) with
    | some (some st) => some (a, st.setWidth 64)
    | _ => none
  | _ => none

/-- The launch that LAUNCH reads when every object is well formed (R422). -/
def launchObjects (s : State) (q : Nat) (r : CurdRun) : Option (State × List BoundField × Roles × Roles) :=
  let rec_ := (s.queue q).record
  let n := (rec_.getD 117 0).toNat
  let read (s : State) (p : DWord) (k : Nat) : Option (State × List Byte) :=
    if k = 0 then some (s, []) else curdGot s q r p k false
  if ¬ recordOk rec_ then none
  else (read s (dwAt rec_ 80) (24 * n)).bind fun x =>
    if ¬ boundsOk x.2 n ∨ ¬ (List.range 3).all (extentOk rec_ (parseBounds x.2 n)) then none
    else (read x.1 (dwAt rec_ 0) 64).bind fun y =>
      (read y.1 (dwAt rec_ 48) (if dwAt rec_ 48 = 0 then 0 else 64)).bind fun z =>
        if ¬ rolesOk y.2 ∨ (dwAt rec_ 48 ≠ 0 ∧ (¬ rolesOk z.2 ∨ y.2.drop 16 ≠ z.2.drop 16)) then none
        else some (z.1, parseBounds x.2 n, Roles.parse y.2, Roles.parse z.2)

/-- What an operation of a queue's program leaves (R419, R421, R422, R424). -/
def curdOf (s : State) (q : Nat) (r : CurdRun) (i : Instr) : Option State :=
  let x := s.queue q
  let next (s : State) : State := curdWent s q r (r.index + 1)
  match i with
  | .curdRec a n => some (next (s.updQueue q fun y =>
      { y with record := setBytes y.record n.toNat (toLe 8 (y.reg a).toNat) }))
  | .curdRecpkt => if r.completion then none else some (next (s.updQueue q fun y =>
      { y with record := bytesAt r.packet 0 128 }))
  | .curdLd a b n =>
    let p := x.reg b + n.signExtend 64
    if ptrOff p % 8 ≠ 0 ∨ (ptrSpace p ≠ 0 ∧ ptrSpace p ≠ 4) then none
    else (curdGot s q r p 8 true).map fun y => next (curdSet y.1 q a (dwAt y.2 0))
  | .curdSt a b n =>
    let p := x.reg b + n.signExtend 64
    if ptrOff p % 8 ≠ 0 ∨ (ptrSpace p ≠ 0 ∧ ptrSpace p ≠ 4) ∨ (r.eng.bind fun id => (s.eng id).failed).isSome then
      none
    else match s.devWrite x.ctx p (toLe 8 (x.reg a).toNat) true with
      | .ok s1 _ => some (next s1)
      | _ => none
  | .semwait a n => if ((s.sem n.toNat).toNat + 2 ^ 64 - (x.reg a).toNat) % 2 ^ 64 < 2 ^ 63 then some (next s) else none
  | .semadd a n => some (next (s.setSem n.toNat (BitVec.ofNat 64 ((s.sem n.toNat).toNat + (x.reg a).toNat))))
  | .semset a n => some (next (s.setSem n.toNat (x.reg a)))
  | .wtime a => if t64ToNs (x.reg a) ≤ t64ToNs s.time then some (next s) else none
  | .curdBz a n => some (curdWent s q r (if (x.reg a).toNat = 0 then r.index + n.toNat else r.index + 1))
  | .curdBnz a n => some (curdWent s q r (if (x.reg a).toNat = 0 then r.index + 1 else r.index + n.toNat))
  | .curdJmp n => some (curdWent s q r (r.index + n.toNat))
  | .curdLoop a n =>
    if (x.reg a).toNat = 0 then some (next s)
    else some (curdWent (curdSet s q a (BitVec.ofNat 64 ((x.reg a).toNat - 1))) q r (r.index - n.toNat))
  | .curdDone => some (curdOver s q r false)
  | .curdStop => some (curdOver s q r true)
  | .curdCmd a b =>
    if ¬ x.admin then none
    else (curdGot s q r (x.reg b) 32 false).bind fun y =>
      let c : Command := {
        op := y.2.getD 0 0, arg := wAt y.2 4, src := dwAt y.2 8, len := dwAt y.2 16, dst := dwAt y.2 24, reg := a }
      if c.op = 0 ∨ 11 < c.op.toNat ∨ natAt y.2 1 3 ≠ 0 then none
      else some (y.1.updQueue q fun z => { z with run := some { r with park := .command, cmd := some c } })
  | .curdLaunch a => (launchObjects s q r).map fun y => y.1.issueLaunch q r a y.2.1 y.2.2.1 y.2.2.2
  | _ => (curdValue s x r i).map fun y => next (curdSet s q y.1 y.2)

/-- A command succeeds: its register takes 0, and the program goes on (R424). -/
def cmdOver (s : State) (q : Nat) (r : CurdRun) (c : Command) : State :=
  { curdWent (curdSet s q c.reg 0) q r (r.index + 1) with turn := .curd q }

/-- Bytes that a command reads; it waits on no page fault (R424). -/
def cmdGot (s : State) (q : Nat) (r : CurdRun) (p : DWord) (n : Nat) : Option (State × List Byte) :=
  if r.eng.any fun id => !s.engFree id then none else curdGot s q r p n false

/-- A signed image of a kind that the front end accepts (R424, R426). -/
def cmdSigned (s : State) (q : Nat) (r : CurdRun) (c : Command) (kind : Nat) : Option (State × Image) :=
  (cmdGot s q r c.src 3792).bind fun h =>
    let body := if natAt h.2 12 4 = 0 then some (h.1, []) else cmdGot h.1 q r (ptrAdd c.src 3792) (natAt h.2 12 4)
    body.bind fun b =>
      if envelopeBad h.2 kind ∨ ¬ imageOk h.2 b.2 then none else some (b.1, Image.parse h.2 b.2)

/-- A command's queue, its OP, and what it leaves when it succeeds, but for its result (R425 to R428). -/
def commandOf (s : State) (r : CurdRun) (c : Command) : Instr → Option (Nat × Nat × Option State)
  | .queueInstall q => some (q, 1, if 256 ≤ c.arg.toNat then none
      else (cmdGot s q r c.src 64).bind fun x =>
        let y := x.1.queue c.arg.toNat
        if ¬ queueDescOk x.2 ∨ y.head ≠ y.tail ∨ y.run.isSome then none
        else some (x.1.updQueue c.arg.toNat fun z => z.install x.2))
  | .queueRestart q => some (q, 2, if 256 ≤ c.arg.toNat ∨ ¬ (s.queue c.arg.toNat).stopped then none
      else some (s.updQueue c.arg.toNat fun z => { z with stopped := false }))
  | .contextInstall q => some (q, 3, if 256 ≤ c.arg.toNat then none
      else (cmdGot s q r c.src 288).bind fun x =>
        if ¬ contextDescOk x.2 ∨ x.1.launches.any fun l => l.ctx == c.arg.toNat then none
        else some (x.1.putContext c.arg.toNat x.2))
  | .boundsPublish q => some (q, 4, (s.ctx? c.arg.toNat).map fun x =>
      s.updCtx x.num fun y => { y with bounds := s.readBounds y.boundsAddr })
  | .decodeInstall q =>
    let n := c.arg.toNat / 256 % 256
    let k := c.arg.toNat % 16
    some (q, 5, if k = 0 ∨ 65536 ≤ c.arg.toNat ∨ c.arg.toNat / 16 % 16 ≠ 0 ∨ (s.ctx? n).isNone then none
      else (cmdGot s q r c.src 4104).bind fun x =>
        if ¬ tableImageOk x.2 ∨ x.1.launches.any fun l => l.ctx == n && l.decodeNum == k then none
        else
          let t : DecodeTable := {
            num := k, lane := (tableEntries x.2 8).map entryTarget
            uniform := (tableEntries x.2 2056).map entryTarget, digest := wAt (sha3 x.2) 0 }
          some (x.1.updCtx n fun y => { y with tables := t :: y.tables.filter fun z => z.num != k }))
  | .curdInstall q => some (q, 6, if 256 ≤ c.arg.toNat then none
      else (cmdSigned s q r c 2).bind fun x => (curdParse c.arg.toNat x.2).bind fun p =>
        if x.1.queues.toList.any fun y => y.program == c.arg.toNat && y.run.isSome then none
        else some { x.1 with programs := p :: x.1.programs.filter fun y => y.num != c.arg.toNat })
  | .streamInstall q =>
    let tx := c.arg.toNat / 256 % 2 == 1
    let n := c.arg.toNat % 256
    let rest (s : State) : List Stream := s.streams.filter fun y => !(y.transmit == tx && y.num == n)
    some (q, 7, if 512 ≤ c.arg.toNat then none
      else if c.len = 0 then some { s with streams := rest s }
      else (cmdGot s q r c.src 128).bind fun x =>
        let y : Stream := {
          num := n, transmit := tx, desc := x.2, ctx := (x.1.queue q).ctx, txSeq := Config.freeWord 19 x.1.freeCtr }
        if x.1.streamOk y then some { x.1 with
          streams := rest x.1 ++ [y], outbox := x.1.outbox ++ y.joins, freeCtr := x.1.freeCtr + 1 } else none)
  | .tileInstall q =>
    some (q, 8, if 4096 < c.len.toNat ∨ ptrSpace c.src ≠ 0 ∨ ptrOff c.src % 64 ≠ 0 then none
      else
        let read : Option State :=
          if c.len = 0 then some s else (cmdGot s q r c.src (64 * c.len.toNat)).map fun x => x.1
        read.bind fun s1 =>
          let ctx := (s1.queue q).ctx
          let rest := s1.tiles.filter fun t => !(t.ctx == ctx && t.addr == c.src)
          if s1.colls.any fun e => e.ctx == ctx && e.table == c.src then none
          else some { s1 with tiles := if c.len = 0 then rest else rest ++ [⟨ctx, c.src, c.len.toNat⟩] })
  | .imageStage q =>
    let n := c.arg.toNat
    some (q, 9, if 4 < n then none
      else (cmdSigned s q r c (if n = 0 then 1 else 3)).map fun x =>
        if n = 0 then { x.1 with
          banks := x.1.banks.setIfInBounds (1 - x.1.activeBank) x.2, staged := some x.2 }
        else { x.1 with linkStaged := x.1.linkStaged.setIfInBounds (n - 1) (some x.2) })
  | .handover q => some (q, 10, s.staged.bind fun im =>
      let v := ((s.banks[s.activeBank]?).getD {}).version.toNat
      if s.queues.toList.all Queue.quiescent ∧ natAt im.body 0 4 ≤ v ∧
          v ≤ natAt im.body 4 4 then
        some { s with activeBank := 1 - s.activeBank, staged := none }
      else none)
  | .attest q => some (q, 11, (cmdGot s q r c.src 32).bind fun x =>
      match x.1.devWrite (x.1.queue q).ctx c.dst (x.1.attestation x.2) false with
      | .ok s2 _ =>
        if (r.eng.bind fun id => (x.1.eng id).failed).isSome ∨ (r.eng.any fun id => !x.1.engFree id) then none
        else some s2
      | _ => none)
  | _ => none

end Sys2Proof.Safety
end

