-- ==== Sys2Proof/Certificates/Slice0/Obligations.lean ====
section
/-!
DEFINITION. The statements for the provers. What each instruction does is said in the terms of Sys2Proof/Safety.lean.
-/

open Sys2Proof Sys2Proof.Machine Sys2Proof.Safety

/-- R101, R97, R98, R23, R39: sums, products, logic and comparisons complete with the stated result in d and in the
latch of their position; no other state changes but that the run moves on. -/
def Obligations.LaneArithmetic : Prop :=
  ∀ i d val, arith32 i = some (d, val) → noQueue i = true →
    ∀ s r, s.current = some r →
      exec i s = .next (laneDone s r fun t => took32 r.pos d (val (s.env r t.cid) t) t)

/-- R102 to R105, R107, R108: shifts, fields, counts, byte products and moves. -/
def Obligations.LaneShiftsAndFields : Prop :=
  ∀ i d val, shift32 i = some (d, val) → noQueue i = true →
    ∀ s r, s.current = some r →
      exec i s = .next (laneDone s r fun t => took32 r.pos d (val (s.env r t.cid) t) t)

/-- R106, R138, R139: 64-bit sums, address sums and unpacked pixels are written to a pair; pxpack writes the quad d
with the pixel's components put into the pgroup that d held. -/
def Obligations.LanePairs : Prop :=
  (∀ i d val, pair64 i = some (d, val) → noQueue i = true →
      ∀ s r, s.current = some r →
        exec i s = .next (laneDone s r fun t => took64 r.pos d (val (s.env r t.cid) t) t)) ∧
  (∀ f d a b, noQueue (.pxpack f d a b) = true → ∀ s r, s.current = some r →
      exec (.pxpack f d a b) s = .next (laneDone s r fun t =>
        let e := s.env r t.cid
        took128 r.pos d (pxPack f (e.read128 t d) (e.read64 t a) ((e.readB t b).toNat % 4)) t))

/-- R17, R43, R109, R110, R117 to R119, R129: compares and plut write their predicate, p7 excepted; of nop, join and
reorder only reorder's key and the latch change anything. -/
def Obligations.LanePredicatesAndPlain : Prop :=
  (∀ i p val, predOf i = some (p, val) → noQueue i = true →
      ∀ s r, s.current = some r →
        exec i s = .next (laneDone s r fun t => tookPred r.pos p (val (s.env r t.cid) t) t)) ∧
  (∀ i f, plainOf i = some f → noQueue i = true →
      ∀ s r, s.current = some r →
        exec i s = .next (laneDone s r fun t => f (s.env r t.cid) (latched r.pos 0 t)))

/-- R123 to R135, R140, R141, R87: the floating-point words write their result and count their draws. The sign of an
exact zero sum toward minus infinity is log entry 81 (DEDUCED), the counter word of a workgroup without an index log
entry 99 (DESIGN CHOICE). -/
def Obligations.LaneFloat : Prop :=
  ∀ i w, floatOf i = some w → noQueue i = true →
    ∀ s r, s.current = some r →
      exec i s = .next (laneDone s r fun t =>
        counted (s.env r t.cid) w.idx w.n (took32 r.pos w.d (w.val (s.env r t.cid) t) t))

/-- R136, R137, R26: a special function leaves one pending result for d. Within the bounds of R136 the result is the
free value of log entry 10 (DESIGN CHOICE). -/
def Obligations.SpecialFunctions : Prop :=
  ∀ i n d a, specialOf i = some (n, d, a) → noQueue i = true →
    ∀ s r, s.current = some r →
      exec i s = .next (laneDone s r fun t =>
        let e := s.env r t.cid
        let x : Word := BitVec.ofNat 32 (fp32.flush e.daz (e.read32 t a).toNat)
        tookLong r.pos d 1 (.words [BitVec.ofNat 32 (e.out fp32 (special n x).toNat)]) t)

/-- R142 to R147: cross-lane words. The sign of an exact zero sum toward minus infinity is log entry 81 (DEDUCED). -/
def Obligations.CrossLane : Prop :=
  ∀ i c, crossOf i = some c → noQueue i = true →
    ∀ s r, s.current = some r → exec i s = .next (crossDone s r c)

/-- R99, R201: a lane word with queue registers among its operands pops its sources, computes, and pushes its result,
thread by thread. What a helper's pops and pushes do is log entry 80 (DEDUCED), that a thread keeps what it has popped
for its word log entry 93 (DESIGN CHOICE). -/
def Obligations.QueueOperands : Prop :=
  ∀ i srcs f, laneEffect i = some (srcs, f) → i.wf = true → noQueue i = false →
    ∀ s r s', s.current = some r → inTurn (queueEff srcs f r) r.key r.todo s = some s' →
      exec i s = .next (passed s' r)

/-- R143, R201: a cross-lane word with queue registers pops every thread's sources before it computes, and then pushes
its results in ascending order; its draws count, and its elements are used up, as it completes for a thread. What a
helper's pops and pushes do is log entry 80 (DEDUCED), that a thread keeps what it has popped for its word log entry 93,
that all groups are formed before any push log entry 108 (both DESIGN CHOICE). -/
def Obligations.CrossLaneQueues : Prop :=
  ∀ i c, crossQueued i = some c → i.wf = true → noQueue i = false →
    ∀ s r s1 s', s.current = some r → (∀ t ∈ r.todo, (s.thread t).qout = none) →
      poppedAll r (queueCodes (readCodes i)) r.todo s = some s1 →
      inTurn (crossEnded i r) r.key (s1.run r.key).todo
        { s1 with threads := crossThreads s1 r (s1.run r.key).todo c } = some s' →
      exec i s = .next (passed s' r)

/-- R112, R113, R15, R17: bra and call take the threads whose predicate differs from their sense to their target at
the run's end; a taken call writes lr. -/
def Obligations.BranchesTaken : Prop :=
  (∀ p sense o s r, s.current = some r →
      exec (.bra p sense o) s = .next (laneDone s r fun t =>
        if (t.pred p != sense) then { latched r.pos 0 t with jump := some (branchTo r o) } else latched r.pos 0 t)) ∧
  (∀ p sense o s r, s.current = some r →
      exec (.call p sense o) s = .next (laneDone s r fun t =>
        if (t.pred p != sense) then { setLr r (latched r.pos 0 t) with jump := some (branchTo r o) }
        else latched r.pos 0 t))

/-- R113, R114: jmp, call and ret by a register: each thread whose target is word-aligned goes there at the run's end;
one whose target is not traps BAD_TARGET with the target in TRAP_ADDR, and leaves its run. -/
def Obligations.RegisterTransfers : Prop :=
  (∀ i g f, jumpOf i = some (g, f) → ∀ s r s', s.current = some r →
      inTurn (jumpTurn g f r) r.key r.todo s = some s' → exec i s = .next (passed s' r)) ∧
  (∀ i g f, jumpOf i = some (g, f) → ∀ s r, s.current = some r →
      exec i s = .next (jumpAll g f r r.todo false s))

/-- R115, R11: exit ends the threads of the run, and the run with them. When the helpers of a quad end is log entry 80
(DEDUCED). -/
def Obligations.ThreadsExit : Prop :=
  ∀ s r, s.current = some r → r.todo ≠ [] →
    exec .exit s = .next ((endedAll r r.todo s).updRun r.key Run.advance).settle

/-- R173, R174, R176 to R181, R183, R277: loads that pass their checks. What a load sees and when its fill comes are
log entries 17, 18 and 105 (105 DESIGN CHOICE, the others DEDUCED). -/
def Obligations.LoadsComplete : Prop :=
  ∀ i size n f kind d a o, loadOf i = some (size, n, f, kind, d, a, o) → ∀ s r s', s.current = some r →
    inTurn (loadTurn size n f kind d a o r) r.key r.todo s = some s' → exec i s = .next (passed s' r)

/-- R11, R173, R174, R178, R181, R183, R187: stores and reductions that pass their checks. What precedes a scratchpad
store, and is performed, is log entry 17 (DEDUCED). -/
def Obligations.StoresComplete : Prop :=
  ∀ i policy size kind op d a o, storeOf i = some (policy, size, kind, op, d, a, o) → ∀ s r s', s.current = some r →
    inTurn (storeTurn policy size kind op d a o r) r.key r.todo s = some s' → exec i s = .next (passed s' r)

/-- R120, R180, R183, R188 to R193: st.rel at its scope, region, fences, stash words and prefetch. What a release and
a fence perform is log entry 17, the seals of commit points 20, the persistent window 21, stash ranges 30, prefetch
18, helpers 80 (all DEDUCED). -/
def Obligations.ReleasesAndFences : Prop :=
  (∀ e w d a o s r s', s.current = some r → inTurn (releaseTurn e.toNat w d a o r) r.key r.todo s = some s' →
      exec (.stRel e w d a o) s = .next (passed s' r)) ∧
  (∀ i eff, fenceOf i = some eff → ∀ s r s', s.current = some r →
      inTurn (eff r) r.key r.todo s = some s' → exec i s = .next (passed s' r))

/-- R180, R184 to R186: atomics. When an atomic is performed is log entry 17, the seal of its commit point 20, helpers
80 (all DEDUCED). -/
def Obligations.AtomicsComplete : Prop :=
  ∀ i size n host f d a o, atomOf i = some (size, n, host, f, d, a, o) → ∀ s r s', s.current = some r →
    inTurn (atomTurn size n host f d a o r) r.key r.todo s = some s' → exec i s = .next (passed s' r)

/-- R194 to R204: barriers, transaction barriers, queue registers, tickets. The turns of arrivals, and the GEN that a
helper's bar.arrive returns, as its run reached the word, are log entry 28; what helpers' words check and leave out is
80; what a release performs is 17; which clocks a wait is tested at, 29; what qstat gives of a malformed ring, 31; the
order of reservations, 92; what a word on a ring waits for, 40 (all DEDUCED); the order of the checks of the tb words
is log entry 103 (DESIGN CHOICE). -/
def Obligations.SyncWords : Prop :=
  ∀ s i eff, syncOf s i = some eff → ∀ r s', s.current = some r →
    inTurn (eff r) r.key r.todo s = some s' → exec i s = .next (passed s' r)

/-- R240, R241, R244 to R251: transfer commands. The order of the checks, and that a command parks on a full counter
after them, is log entry 39; the destination's range and a cbx before its table is loaded, 23; helpers, 80; a command
taken over already, 71 (all DEDUCED); a channel's first number, 111 (DESIGN CHOICE). -/
def Obligations.TransferCommandsIssue : Prop :=
  ∀ i k d a b, xeOf i = some (k, d, a, b) → ∀ s r s', s.current = some r →
    inTurn (xeTurn k d a b r) r.key r.todo s = some s' → exec i s = .next (passed s' r)

/-- R205, R240, R241, R252 to R266: the other engine words. When each object is read and checked is log entry 39;
contexts that no smp.cfg has passed, 35; the frames of a rope, 25 and 26; helpers, 80; a command taken over already,
71 (all DEDUCED); what srd and rope.status give of no frame or instant, 11 (DESIGN CHOICE). -/
def Obligations.EngineWordsIssue : Prop :=
  ∀ i eff, engineOf i = some eff → ∀ s r s', s.current = some r →
    inTurn (eff r) r.key r.todo s = some s' → exec i s = .next (passed s' r)

/-- R45, R148 to R151, R160: the uniform words with one result. That a latch read by a uniform word is the lowest
gathered member's is log entry 95 (DEDUCED). -/
def Obligations.UniformResults : Prop :=
  ∀ i d lo n f, uniformOf i = some (d, lo, n, f) → ∀ s a, s.agent = some a →
    exec i s = .next (uDone s a (if lo then none else some d) (f s a) (f s a) n)

/-- R152, R153, R169, R171: uniform branches and the call; a jump to a value that is not word-aligned is a crew trap
BAD_TARGET, and in the sequencer's stream a workgroup fault. A uniform source that is a latch is read as log entry 95
says (DEDUCED). -/
def Obligations.UniformTransfers : Prop :=
  (∀ i o taken, uBranchOf i = some (o, taken) → ∀ s a, s.agent = some a →
    exec i s = .next (if taken s a then uGone s a (uTo s a o) 0 else uDone s a none 0 0 0)) ∧
  (∀ g o s a, s.agent = some a →
    let back : DWord := s.uAddr a + (match a with | .crew .. => 8 | .seq _ => 4)
    exec (.uniformCall g o) s = .next (uGone (s.setUg a g back) a (uTo s a o) back)) ∧
  (∀ i b lo, i = .uniformJmp b lo ∨ i = .uniformRet b lo → ∀ s a, s.agent = some a →
    (s.uVal a b).toNat % 4 = 0 → exec i s = .next (uGone s a (s.uVal a b) 0)) ∧
  (∀ i b lo, i = .uniformJmp b lo ∨ i = .uniformRet b lo →
    (∀ s r cid, s.agent = some (.crew r cid) → (s.uVal (.crew r cid) b).toNat % 4 ≠ 0 →
      exec i s = .next (crewTraps r
        ⟨0x0a#8, r.wordAddr, s.uVal (.crew r cid) b, trapData r.word r.pos 0#8⟩ r.members s).settle) ∧
    (∀ s c, s.agent = some (.seq c) → (s.uVal (.seq c) b).toNat % 4 ≠ 0 →
      exec i s = .next (s.seqTrap c 0x0a#8 0#8 (s.uVal (.seq c) b))))

/-- R154, R155, R183, R301: uniform loads and stores that pass their checks, wait for no seal and meet no error. Under
whom a uniform store is released is log entry 90, what a load sees 17 and 18 (all DEDUCED). -/
def Obligations.UniformAccesses : Prop :=
  (∀ i size f kind d b lo, uLoadOf i = some (size, f, kind, d, b, lo) → ∀ s a s1 k dst s2 s3 base, s.agent = some a →
    let ea := s.actEa (s.uWid a) (s.uVal a b)
    let c := s1.uCol a
    uReach s a (s.uVal a b) size .load = some (s1, k, dst) → uReads s1 a kind k size = some s2 →
    (s2.acquired c kind.acquire).readBase c a.ref.cid (s2.uWid a) (s2.uAddr a) a.word kind dst ea k size = .ok s3 base →
    let v := f (leNat (s3.seen (some a.ref) (s3.uWid a) ea k base))
    let s4 := if 3 ≤ kind.acquire then s3.noteRead c a.ref k size else s3
    exec i s = .next (uDone (s4.uCommit a) a (if lo then none else some d) v v b.ext)) ∧
  (∀ i rel size d b, uStoreOf i = some (rel, size, d, b) → ∀ s a s1 k dst s2, s.agent = some a →
    s.uSealedOwn a = none → uReach s a (s.uVal a b) size .store = some (s1, k, dst) → s1.uUnsealed a = [] →
    uStored s1 a rel (s.actEa (s.uWid a) (s.uVal a b)) k dst (toLe size (s.ug a d).toNat) = some s2 →
    exec i s = .next (uDone s2 a none 0 0 b.ext))

/-- R156 to R159, R161: system registers, and wait.time: it ends at once when its time is past, it waits when it is to
come, and its latch takes the TIME of the clock edge that ended its wait. That mts with mod[3] writes no system
register, its latch taking 0, is log entry 34 (DEDUCED). -/
def Obligations.SystemRegisters : Prop :=
  (∀ d n lo s a v, s.agent = some a → s.readSys a n.toNat = some v →
    exec (.mfs d n lo) s = .next (uDone s a (if lo then none else some d) v v 0)) ∧
  (∀ n b lo s c v, s.agent = some (.seq c) → s.readSys (.seq c) n.toNat = some v →
    exec (.mts n b lo) s = .next (uDone s (.seq c) none 0 0 b.ext)) ∧
  (∀ n b lo s r cid v, s.agent = some (.crew r cid) → s.readSys (.crew r cid) n.toNat = some v →
    let x := s.uVal (.crew r cid) b
    exec (.mts n b lo) s = .next (uDone (if lo then s
      else if n.toNat ≤ 8 then s.updThread ⟨cid, (s.crew cid).tsel.toNat⟩ (mtsThread n.toNat x)
      else s.updCrew cid (mtsCrew n.toNat x)) (.crew r cid) none 0 0 b.ext)) ∧
  (∀ b lo s a, s.agent = some a → s.uWaitsFor a = none →
    (t64ToNs (s.uVal a b) ≤ t64ToNs s.time → exec (.waitTime b lo) s = .next (uDone s a none 0 s.time b.ext)) ∧
    (t64ToNs s.time < t64ToNs (s.uVal a b) → exec (.waitTime b lo) s =
      .next ((s.uSetWaits a (some (t64ToNs (s.uVal a b), none))).uPark a .time))) ∧
  (∀ b lo s a at_ v, s.agent = some a → s.uWaitsFor a = some (at_, some v) →
    exec (.waitTime b lo) s = .next (uDone (waited s a) a none 0 v b.ext))

/-- R161 to R168: the words of a crew run. What the words that read records wait for is log entry 40, what JOIN holds
after a trap 32, yielded records 70, the seals of commit points 20 (all DEDUCED); the lowest subcode of SPAWN_RECORD
107 (DESIGN CHOICE). -/
def Obligations.CrewWords : Prop :=
  ∀ i s r cid t, s.agent = some (.crew r cid) → crewWordOf r cid s i = some t → exec i s = .next t

/-- R47, R156, R159, R163 to R168, R171: what the sequencer's stream cannot do faults its workgroup; exit ends the
program. -/
def Obligations.SequencerWords : Prop :=
  (∀ i s c, s.agent = some (.seq c) →
    i = .rte ∨ (∃ b, i = .spawn b ∨ i = .yield b) ∨ (∃ d b lo, i = .joinDec d b lo) ∨ (∃ k n, i = .waitCnt k n) →
    exec i s = .next (s.seqTrap c 0x01#8 2#8 (s.col c).seqr.pc)) ∧
  (∀ d n lo b s c, s.agent = some (.seq c) → ¬ (32 ≤ n.toNat ∧ n.toNat ≤ 36) → n.toNat ≠ 48 → n.toNat ≠ 49 →
    exec (.mfs d n lo) s = .next (s.seqTrap c 0x0d#8 n (s.col c).seqr.pc) ∧
    exec (.mts n b lo) s = .next (s.seqTrap c 0x0d#8 n (s.col c).seqr.pc)) ∧
  (∀ s c, s.agent = some (.seq c) → exec .uniformExit s =
    .next (s.updCol c fun x => { x with seqr := { x.seqr with holder := none, running := false } }))

/-- R212 to R234: the words of the tile sequencer, on operands that they accept. The order of the subcodes and the
advance of a pair are log entry 41, checksums 42, operands in the span's scratchpad 43, a list of no outliers 45 (all
DEDUCED); the order of the causes of an mma is log entry 104 (DESIGN CHOICE). -/
def Obligations.MatrixWords : Prop :=
  ∀ i s c t, s.turn = .seq c → matrixOf s c i = some t → exec i s = .next t

/-- R215, R222 to R225, R231 to R233, R210: a malformed descriptor, pointer or codebook faults the workgroup. That the
lowest subcode whose condition holds is the one, that it stands in DETAIL, which is 0 for a cause without subcodes, and
that ADDR is BASE are log entry 41, and that mmo raises MX_OUTLIER alone is log entry 45 (both DEDUCED). -/
def Obligations.MatrixRefusals : Prop :=
  (∀ s c a n adv sub, s.turn = .seq c → 4 ≤ n.toNat → (s.mxDesc c n).bad 192 adv true = some sub →
    exec (.xload a n adv) s = .next (s.seqTrap c 0x70#8 sub (s.ug (.seq c) n))) ∧
  (∀ s c d a bf adv sub, s.turn = .seq c → (s.mxDesc c a).bad (if bf then 32 else 64) adv false = some sub →
    exec (.aload d a bf adv) s = .next (s.seqTrap c 0x70#8 sub (s.ug (.seq c) a))) ∧
  (∀ s c d a sa sb, s.turn = .seq c → ptrOff (s.ug (.seq c) a) % 32 ≠ 0 →
    exec (.cbload d a sa sb) s = .next (s.seqTrap c 0x70#8 1#8 (s.ug (.seq c) a))) ∧
  (∀ s c d a, s.turn = .seq c → 64 < (s.ug (.seq c) (a + 1)).toNat →
    exec (.mmo d a) s = .next (s.seqTrap c 0x73#8 0#8 (s.ug (.seq c) a))) ∧
  (∀ (s : State) c cause sub addr wid, (s.col c).seqr.holder = some wid → (s.wg wid).fault = none →
    (∃ w ∈ s.wgs, w.wid = wid) → ∃ f, ((s.seqTrap c cause sub addr).wg wid).fault = some f ∧ f.cause = cause ∧
      f.detail = (if 0x40 ≤ cause.toNat ∧ cause.toNat ≤ 0x48 ∨ cause = 0x73 then 0 else sub) ∧
      f.pc = (s.col c).seqr.pc ∧ f.addr = addr)

/-- R419, R421, R422, R424: the operations of a queue's program on operands that they accept. The checks of LD, ST and
of a command block beyond R419 and R424 are log entry 56, STOP in a completion run 55, launch records 58 (all
DEDUCED). -/
def Obligations.CurdWords : Prop :=
  ∀ i s q r t, s.turn = .curd q → (s.queue q).run = some r → curdOf s q r i = some t → exec i s = .next t

/-- R424 to R428: a command that passes its checks takes effect, and its register takes 0. What installs keep and
refuse beyond R425 and R426 is log entry 57, the device's reads 56, a hand-over 85 (all DEDUCED); the digest and the
signature of an image are computed as log entry 13 says (PRESUMED); the attestation's signature and the fused values
are log entry 12, the joins of a stream 110 (both DESIGN CHOICE). -/
def Obligations.CommandsComplete : Prop :=
  ∀ i s q r c n t, (s.queue q).run = some r → r.park = .command → r.cmd = some c → c.op.toNat = n →
    commandOf s r c i = some (q, n, some t) → exec i s = .next (cmdOver t q r c)

/-- R419, R423, R424: what a program may not do is a Curd error, under the code of its kind. The detail of a
misaligned LD or ST is log entry 56 (DEDUCED). -/
def Obligations.CurdErrors : Prop :=
  ∀ s q r, s.turn = .curd q → (s.queue q).run = some r →
    (∀ a b, (s.queue q).admin = false → exec (.curdCmd a b) s = .next (s.curdError q r 4 0)) ∧
    (∀ a b, ((s.queue q).handles.find? fun y => y.1 == ((s.queue q).reg b).toNat) = none →
      exec (.lwait a b) s = .next (s.curdError q r 5 0)) ∧
    (∀ a b n, ((s.queue q).reg b + n.signExtend 64).toNat % 8 ≠ 0 →
      exec (.curdLd a b n) s = .next (s.curdError q r 2 0x40#8) ∧
      exec (.curdSt a b n) s = .next (s.curdError q r 2 0x40#8)) ∧
    (∀ a, recordOk (s.queue q).record = false → exec (.curdLaunch a) s = .next (s.curdError q r 3 0)) ∧
    (∀ t, r.park = .running → r.budget = 0 → t = s.curdError q r 1 0 → exec (.curdBudgetExhausted q) s = .next t) ∧
    (∀ err detail, ((s.curdError q r err detail).queue q).stopped = true ∧
      ((s.curdError q r err detail).queue q).run = none)

/-- R320, R419, R421, R427: while no hand-over is in progress, a packet is taken from the ring, ENTRY_DONE runs for a
completed launch, and a parked run whose condition holds goes on. Which queue is served when is timing (log entry 1);
what a completion run's packet registers hold is log entry 11 (both DESIGN CHOICE). -/
def Obligations.CurdRuns : Prop :=
  (∀ s q s1 bs, s.canTake (s.queue q) = true → s.nextServed q = true → s.curdIdle = true →
    { s with lastServed := q }.devRead (s.queue q).ctx (ptrAdd (s.queue q).ring (128 * ((s.queue q).head.toNat % (s.queue q).slots))) 128 true
      = .ok s1 bs →
    ∃ t, exec (.curdPacket q) s = .next t ∧ t.turn = .curd q ∧ t.lastServed = q ∧
      (t.queue q).run = some { index := (s.program (s.queue q).program).entryPkt, packet := bs }) ∧
  (∀ s q h st rest e, (s.queue q).completions = (h, st) :: rest → q < 256 →
    (s.program (s.queue q).program).entryDone = some e → (s.queue q).installed = true →
    (s.queue q).stopped = false → (s.queue q).run = none → s.handing = false → s.curdIdle = true →
    ∃ t, exec (.curdCompletionRun q) s = .next t ∧ t.turn = .curd q ∧ (t.queue q).completions = rest ∧
      (t.queue q).run = some { index := e, completion := true } ∧
      (t.queue q).reg 14#4 = BitVec.ofNat 64 h ∧ (t.queue q).reg 15#4 = st.setWidth 64) ∧
  (∀ s q r, (s.queue q).run = some r → (s.queue q).errWait = [] → s.handing = false →
      (∀ n v, r.park = .sem n v → serialGe (s.sem n) v = true →
        exec (.curdResume q) s = .next { curdWent s q r (r.index + 1) with turn := .curd q }) ∧
      (∀ v, r.park = .time v → t64ToNs v ≤ t64ToNs s.time →
        exec (.curdResume q) s = .next { curdWent s q r (r.index + 1) with turn := .curd q }) ∧
      (∀ h, r.park = .launch h → s.launchBound (s.queue q) h = true →
        exec (.curdResume q) s = .next { curdWent s q r (r.index + 1) with turn := .curd q }))

/-- R321, R322, R324, R326, R422, R427: a bound field read, a launch that becomes eligible, a launch that completes:
its status word is fixed as it completes, DONE_AT is written and DONE_SEM follows; while a hand-over is in progress
the completion is held, after those that are held already. When the status is fixed and in which order held
completions are delivered are log entries 59 and 85, what a bound field refuses 58 (all DEDUCED). -/
def Obligations.LaunchesProceed : Prop :=
  (∀ s lid f fs s1 bs, (s.launch lid).bounds = f :: fs → (s.launch lid).phase = .binding →
    serialGe (s.sem f.sem) f.target = true → s.engFree lid = true → (s.eng lid).failed = none →
    s.devRead (s.launch lid).ctx f.ptr 8 true = .ok s1 bs →
    exec (.boundFieldResolve lid) s = .next (s1.bindValue (s.launch lid) f (dwAt bs 0))) ∧
  (∀ s lid, (s.launch lid).phase = .queued → (s.launch lid).refused = none → s.attached (s.launch lid) = true →
    t64ToNs (s.launch lid).notBefore ≤ s.timeNs →
    exec (.launchEligible lid) s = .next (s.updLaunch lid fun x =>
      { x with phase := .eligible, eligibleAt := s.ticks })) ∧
  (∀ s lid s2 bs, (∃ x ∈ s.launches, x.lid = lid) → s.launchOver (s.launch lid) = true →
    s.recordWaits (s.launch lid) = false →
    let l := s.launch lid
    let s0 := l.cores.foldl (fun acc c => acc.drain c) s
    let st := l.status.getD (s0.statusWord l)
    let s1 := s0.updLaunch l.lid fun x => { x with status := some st }
    (s.handing = false → s.doneHeld = [] ∨ s.doneHeld.head? = some lid →
      s1.engFree lid = true → (s1.eng lid).failed = none → l.doneAt ≠ 0 →
      s1.devWrite l.ctx l.doneAt (toLe 8 st.toNat) true = .ok s2 bs →
      exec (.launchCompletion lid) s = .next (s2.signalDone l st)) ∧
    (s.handing = true → lid ∉ s.doneHeld →
      exec (.launchCompletion lid) s = .next { s1 with doneHeld := s.doneHeld ++ [lid] }))

/-- R332, R379, R382 to R391: the PTP clock steps, a sync message is counted; packets received and sent on every path
of their stream, frames settled once 100,000,000 ns have passed since FIRST, the choice of a transmit instant. That
PTP_STEP leaves no time before the epoch and that a sync message counts whatever ENABLE says are log entry 27; that
the instants which a step makes due again are chosen again, and that of several frames the oldest that may leave is
sent first, are log entry 50; the rope's frames that a step brings back, log entry 25; the frame count of a cadence of
any rate, log entry 26 (all DEDUCED). Which path and which frame a packet goes to are log entries 47 and 48 (both
DEDUCED). -/
def Obligations.TimeAndStreamEvents : Prop :=
  (∀ p v s, s.barLive p = true → let now := ((s.timeNs : Int) + v.toInt).toNat
    exec (.ptpStep ⟨p, v⟩) s = .next { s.unstage p with
      timeNs := now, ptpGood := 0
      streams := s.streams.map fun x => { x with lastIk := x.lastIk.map fun t => min t (now + 1999) }
      ropes := s.ropes.map fun r => { r with next := min r.next (r.frameAfter now) }
      periodAt := s.periodAt.map fun t => min (now - 1) t }) ∧
  (∀ off s, exec (.ptpSync off) s = .next { s with
    ptpOffset := if off < -2147483648 then -2147483648 else if 2147483647 < off then 2147483647 else off
    ptpGood := if -250 ≤ off ∧ off ≤ 250 then s.ptpGood + 1 else 0 }) ∧
  (∀ sub p s, p.sumOk = true → exec (.streamPacket sub p) s = .next
    ((s.streams.filter fun x => !x.transmit).foldl (fun acc x => match x.pathOf sub p, acc.stream? false x.num with
      | some isB, some y => if y.kind = 2 then acc.bytePacket y p else acc.videoPacket y isB p
      | _, _ => acc) s)) ∧
  (∀ n s x, s.stream? false n = some x → exec (.frameSettleTimeout n) s = .next
    ((x.frames.filter fun f => decide (f.first + 100000000 ≤ s.timeNs)).foldl
      (fun acc f => acc.settleFrame n f.number) s)) ∧
  (∀ n s x k, s.stream? true n = some x →
    instantAt (s.cadence x).1 (s.cadence x).2 (s.timeNs + 2000) = some k →
    let ik := instantOf (s.cadence x).1 (s.cadence x).2 k
    (∀ t, x.lastIk = some t → t < ik) → (x.rope < 4 → ((s.rope x.rope).presents k).isSome = true) →
    ∃ t y, exec (.transmitChoice n) s = .next t ∧ t.stream? true n = some y ∧ y.instant = some k ∧
      y.instantNs = some ik ∧ y.lastIk = some ik) ∧
  (∀ n s x hs h ts, s.stream? true n = some x → x.sends = hs ++ h :: ts →
    (∀ e ∈ hs, e.sent = 0 ∧ s.timeNs < e.ik + x.offsetNs) → (h.sent ≠ 0 ∨ h.ik + x.offsetNs ≤ s.timeNs) →
    let line := h.sent / x.perLine
    let off := h.sent % x.perLine * x.payload
    let pkt : TxPacket := {
      stream := n, instant := h.instant, pathB := false, subport := 0, dst := [], src := [], port := 0
      pt := natAt x.desc 15 1, ssrc := BitVec.ofNat 32 (natAt x.desc 44 4), seq := x.txSeq
      rtp := BitVec.ofNat 32 (h.ik * 9 / 100000), marker := decide (x.perLine * x.height ≤ h.sent + 1), row := line
      offset := off / (pgroup x.format).2 * (pgroup x.format).1
      data := s.txBytes x.ctx (ptrAdd h.buf (line * x.pitch + off)) (min x.payload (x.lineBytes - off)) }
    ∃ t, exec (.transmitPacket n) s = .next t ∧ t.outbox = s.outbox ++ x.copies pkt)

/-- R393 to R397: another member's arrival message by its decision point, the decision of the next frame, a heartbeat,
a readmission. That frames are decided one after another and the second next frame of a REJOIN rest on log entry 25
(DEDUCED). -/
def Obligations.RopeEvents : Prop :=
  (∀ n m k s, (s.rope n).active = true → (s.rope n).others.contains m = true → (s.rope n).isDecided k = false →
    s.timeNs ≤ (s.rope n).instant k - 2000 →
    exec (.ropeArrivalMessage n m k) s = .next (s.setRope n ((s.rope n).noteArrived m k)) ∧
    ((s.rope n).noteArrived m k).arrivals = (k, m) :: (s.rope n).arrivals) ∧
  (∀ n k s, (s.rope n).active = true → (s.rope n).instant k - 2000 ≤ s.timeNs →
    k = (s.rope n).due →
    exec (.ropeDecision n k) s = .next
      (((s.rope n).own.filter fun o => o.1 == k && o.2.1).foldl (fun acc o => acc.completeOp o.2.2.1 o.2.2.2)
        (s.setRope n ((s.rope n).decide_ k))) ∧
    (((s.rope n).decide_ k).decided.head?.map fun d => d.presented) =
      some (((s.rope n).required k).all fun m => (s.rope n).arrivals.contains (k, m))) ∧
  (∀ n m lat s, (s.rope n).active = true → (s.rope n).others.contains m = true → n < 4 →
    ∃ t, exec (.ropeHeartbeat n m lat) s = .next t ∧ (t.rope n).lats.head? = some (m, lat)) ∧
  (∀ p n j s, s.barLive p = true → n < 4 → (s.rope n).frameAt s.timeNs = some j →
    ((s.rope n).expelled.any fun e => e.member == (s.rope n).self && e.back.isNone) = true →
    ∃ t, exec (.rejoin ⟨p, n⟩) s = .next t ∧ (t.rope n).consecOf (s.rope n).self = 0 ∧
      (t.rope n).expelled = (s.rope n).expelled.map fun e =>
        if e.member = (s.rope n).self ∧ e.back = none then { e with back := some (j + 2) } else e)

/-- R197, R248 to R250, R252: a phase completes, a transfer command writes and completes, a table is held. The order
of a command's bytes is log entry 22, what ends it 24, the clock at which a phase completes 29 (all DEDUCED). -/
def Obligations.TransferEvents : Prop :=
  (∀ c off s, s.tbs.contains (mkKey (regScratch c) off) = true → (s.tb (mkKey (regScratch c) off)).pending = 0 →
    (s.tb (mkKey (regScratch c) off)).sectors = 0 → (s.col c).awake = true →
    let k := mkKey (regScratch c) off
    let o := s.tb k
    let dl := s.deadlineAt c off
    exec (.tbPhaseCompletion c off) s = .next ((({ s with tbDue := s.tbDue.filter fun x => x.1 != k } : State).setTb k { o with
      phase := (o.phase + 1) % 16, pending := o.reload, doneNs := s.timeNs % 2 ^ 48
      late := decide (dl ≠ 0 ∧ dl < s.timeNs) }).landArrivals k)) ∧
  (∀ wid ch s c cs, (s.chan wid ch).cmds = c :: cs → s.engFree c.id = true → c.failed = none → c.lut = none →
    (s.eng c.id).failed = none → c.tableBad = false →
    exec (.transferSectorWrite wid ch) s = .next (xeRun wid ch c (c.desc.count - c.pos) c.pos s)) ∧
  (∀ wid ch s c cs s0 bs, (s.chan wid ch).cmds = c :: cs → c.lut = none → c.desc.count ≤ c.pos ∨ c.failed.isSome = true →
    s.engFree c.id = true → (s.eng c.id).failed = none →
    let due := (c.sectorsFrom 0).filter fun x => !c.posted.contains x
    sidesCan wid (c.sides !due.isEmpty) s = .ok s0 bs →
    let s1 := s.postSectors wid c due.length
    let s2 := s1.putChan wid c (chanRecord c)
    exec (.transferCompletion wid ch) s = .next
      (((s2.updChan wid ch fun x => { x with wptr := c.wend, cmds := cs }).completeOp c.cid c.id).dropEng c.id)) ∧
  (∀ wid slot s l ls s1 bs, (s.lutSlot wid slot).loads = l :: ls → s.engFree l.id = true →
    (s.eng l.id).failed = none → s.engRead wid l.ptr (16 * l.vlen) = .ok s1 bs →
    exec (.xeLutHeld wid slot) s = .next ((((s1.updLut wid slot fun x =>
      { x with loads := ls, table := some bs, vlen := l.vlen }).giveTable wid l.id (some bs)).completeOp l.cid
        l.id).dropEng l.id))

/-- R242, R255 to R257, R349: once the unit can write its context's fields, a push that has read its logits ends, and
a draw is evaluated and lands. How a draw is rounded is log entry 36, whose context a word names 35 (both DEDUCED);
its result where no value is stated is log entry 11 (DESIGN CHOICE). -/
def Obligations.SamplingEvents : Prop :=
  (∀ id s c cid a addr s1 bs, s.smpOf id = some c → SmpCtx.nextPush c.full c.work = some (.push id cid a addr) →
    s.engFree id = true → (s.eng id).failed = none → (∀ x ∈ c.lost, x.1 ≠ id) →
    (c.cfg.total - c.logits.length = 0 ∨ ptrOff addr % 4 = 0) →
    s.engRead a.wid addr (4 * (c.cfg.total - c.logits.length)) = .ok s1 bs →
    s1.smpCan a = .ok →
    exec (.smpPushCompletion id) s = .next (s1.endPush c id cid a addr
      ((List.range (bs.length / 4)).map fun i => wAt bs (4 * i)) false)) ∧
  (∀ id s c t a s1 ctx s2 w, s.smpOf id = some c → c.nextDraw = some (id, t, a) → s.engFree id = true →
    (s.eng id).failed = none → (∀ x ∈ c.lost, x.1 ≠ id) → c.failed = false →
    s.engRead a.wid a.ptr 20 = .ok s1 ctx → s1.evalDraw a.wid c ctx = .ok s2 w → s2.smpCan a = .ok →
    exec (.smpDrawEvaluate id) s = .next (s2.endDraw c id t a w))

/-- R258 to R262, R356: a ray is traced against its scene; its records are delivered in order. What a walk finds
malformed, and the culling of the closest hit, is log entry 38, when a record leaves its queue 37 (both DEDUCED). -/
def Obligations.TraversalEvents : Prop :=
  (∀ c ray s y g s1 hits, (s.rays.find? fun y => y.id == ray && s.crewCol y.cid == c) = some y →
    y.phase = .traced → (s.col c).gated = false → (s.col c).powered = true → s.engFree ray = true →
    rayGeo y.regs = some g → (s.eng ray).failed = none →
    s.sceneHits (s.crew y.cid).wid y.scene g = .ok s1 hits →
    exec (.rayTraversal c ray) s = .next ((s1.updRay ray fun z => { z with
      phase := .sending, cands := (rayResult y g hits).1, final := (rayResult y g hits).2 }).dropEng ray)) ∧
  (∀ c ray s y, (s.rays.find? fun y => y.id == ray && s.crewCol y.cid == c) = some y →
    y.phase = .sending → (s.col c).gated = false → (s.col c).powered = true → s.firstRay y = true →
    (∀ w ws, y.cands = w :: ws → (s.wg (s.crew y.cid).wid).fault = none →
      exec (.hitRecord c ray) s = .next ((s.updRay ray fun z =>
        { z with phase := .waiting, cands := ws, offered := some w }).putRecord y w false)) ∧
    (y.cands = [] → exec (.hitRecord c ray) s = .next
      (((s.updRay ray fun z => { z with phase := .done }).putRecord y (y.accepted.getD y.final) true).completeOp
        y.cid ray)))

/-- R400 to R412: messages, completions and losses of collectives; link processors; the state of a link, its retries,
and the accesses of peer cards. When LOCAL is read and what ends an entry is log entry 52, the signs of life of a
member 82, what a peer's access reaches 54 (all DEDUCED); the cause for which a link processor stops is free, log
entries 11 (DESIGN CHOICE) and 53 (DEDUCED). -/
def Obligations.CollectiveAndLinkEvents : Prop :=
  (∀ e card data s x, s.coll e = some x → card ≠ s.cardId → x.members.contains card = true →
    (x.heard.any fun h => h.1 == card) = false →
    exec (.collMessage e card x.epoch data) s = .next { s with colls := s.colls.map fun y =>
      if y.id = e then { y with heard := y.heard ++ [(card, data)] } else y }) ∧
  (∀ e s x s1 mine, s.coll e = some x → s.engFree e = true → (s.eng e).failed = none → x.ending = none →
    x.mine = none → tilePtrErr x.local_ = none → tilePtrErr x.result = none →
    s.engRead (s.crew x.cid).wid x.local_ x.bytes = .ok s1 mine →
    (∃ k ∈ x.members, k ≠ s.cardId ∧ (x.heard.any fun h => h.1 == k) = false) →
    exec (.collEntryCompletion e) s = .next { s1.engPast e with
      colls := (s1.engPast e).colls.map fun y => if y.id = e then { y with mine := some mine } else y
      outbox := (s1.engPast e).outbox ++
        [.collData (x.members.filter fun k => k != s.cardId) x.epoch (dwAt x.fields 16) mine] }) ∧
  (∀ e s x mine s2 bs, s.coll e = some x → s.engFree e = true → (s.eng e).failed = none → x.ending = none →
    (∀ k ∈ x.members, k = s.cardId ∨ (x.heard.any fun h => h.1 == k) = true) → x.mine = some mine →
    writePieces (s.crew x.cid).wid x.result (x.results ((s.cardId, mine) :: x.heard)) s = .ok s2 bs →
    exec (.collEntryCompletion e) s = .next ((s2.engPast e).endEntry x 0 0)) ∧
  (∀ card s, exec (.collHeartbeat card) s =
    .next { s with beats := (card, s.timeNs) :: s.beats.filter fun b => b.1 != card }) ∧
  (∀ e card s x, s.coll e = some x → s.lostMember x card = true → x.ending = none →
    exec (.partnerLost e card) s = .next ((s.engQuit e).endEntry x 1 0)) ∧
  (∀ n s, n < 4 → ∃ t, exec (.linkProcessorStop n) s = .next t ∧ t.linkStopped[n]? = some true ∧
    ∀ x ∈ t.colls, x.ending.isSome = true) ∧
  (∀ n i s, n < 4 → s.linkStaged[n]? = some (some i) → s.colls = [] →
    exec (.linkProcessorImageStart n) s = .next { s with
      linkImages := s.linkImages.setIfInBounds n i, linkStaged := s.linkStaged.setIfInBounds n none
      linkStopped := s.linkStopped.setIfInBounds n false }) ∧
  (∀ port up lanes s, exec (.linkStateChange port up lanes) s = .next { s with
    links := s.links.setIfInBounds port
      { s.links[port]?.getD {} with up := up, lanes := if up then (if lanes.toNat ≤ 8 then lanes else 8) else 0 } }) ∧
  (∀ port s, exec (.flitRetry port) s = .next { s with
    links := s.links.setIfInBounds port { s.links[port]?.getD {} with
      retries := BitVec.ofNat 8 (min 255 ((s.links[port]?.getD {}).retries.toNat + 1)) } }) ∧
  (∀ card addr a s, (s.inwins.toList.find? fun w => w.admits card addr a) = none →
    exec (.peerInboundAccess card addr a) s = .next { s with outbox := s.outbox ++ [.refused card] }) ∧
  (∀ card addr a s w, (s.inwins.toList.find? fun w => w.admits card addr a) = some w →
    addr + peerSize a ≤ w.region.2 →
    exec (.peerInboundAccess card addr a) s = .next (s.peerDo card (mkKey w.region.1 addr) a))

/-- R6, R7, R417: a write of a whole register, and of the two halves of one; R320, R351, R361, R414, R415: what the
registers of queues, semaphores, the fault queue and gating take. Each write by a port that is no lower half discards
the half that the port has staged (R417; log entry 64, DEDUCED). R413: BAR2. A byte that BAR2 reads in a code word
with an uncorrectable error is of no stated value (log entry 11), and what the card answers stands in `outbox` (log
entry 86, both DESIGN CHOICE). -/
def Obligations.HostRegisters : Prop :=
  (∀ p off size v (s : State) r, s.barLive p = true → bar0Acc off size = .whole r →
    exec (.registerWrite p off size v) s = .next ((s.unstage p).regPut p r v)) ∧
  (∀ p off v w (s : State) r, s.barLive p = true → bar0Acc off 4 = .lower r → bar0Acc (off + 4) 4 = .upper r →
    exec (.bar0LowerHalfWrite p off w) s = .next (s.stage p off w) ∧
    exec (.registerWrite p (off + 4) 4 v) (s.stage p off w) =
      .next ((s.unstage p).regPut p r ((v.setWidth 32 : Word) ++ w))) ∧
  (∀ p n v (s : State), s.barLive p = true → n < 64 → ∃ t, exec (.semValue n ⟨p, v⟩) s = .next t ∧
    t = { s.unstage p with sems := t.sems } ∧ t.sem n = v ∧ ∀ m, m ≠ n → t.sem m = s.sem m) ∧
  (∀ p n v (s : State), s.barLive p = true → n < 64 → ∃ t, exec (.semAdd n ⟨p, v⟩) s = .next t ∧
    t = { s.unstage p with sems := t.sems } ∧ t.sem n = s.sem n + v ∧ ∀ m, m ≠ n → t.sem m = s.sem m) ∧
  (∀ p n (s : State), s.barLive p = true → n < 64 → ∃ t, exec (.semClaim p n) s = .next t ∧
    t.outbox = s.outbox ++ [.hostRead p (bar0 (0x2010 + 0x20 * n)) (toLe 8 (s.sem n).toNat)] ∧
    t.sem n = (if s.sem n = 0 then (if p = .a then 1#64 else 2#64) else s.sem n) ∧
    ∀ m, m ≠ n → t.sem m = s.sem m) ∧
  (∀ p q v (s : State), s.barLive p = true → q < 256 → let x := s.queue q
    (s.ownerOk p x = true ∧ x.tail.toNat ≤ v.toNat ∧ v.toNat ≤ x.head.toNat + x.slots →
      exec (.qTail p q v) s = .next ((s.unstage p).updQueue q fun y => { y with tail := v })) ∧
    (¬ (s.ownerOk p x = true ∧ x.tail.toNat ≤ v.toNat ∧ v.toNat ≤ x.head.toNat + x.slots) →
      exec (.qTail p q v) s = .next ((s.unstage p).updQueue q fun y => { y with tailErr := true }))) ∧
  (∀ p v (s : State), s.barLive p = true →
    (s.fqHead ≤ v.toNat ∧ v.toNat ≤ s.fqTail →
      exec (.fqHead ⟨p, v⟩) s = .next ({ s.unstage p with fqHead := v.toNat }.retryQueue)) ∧
    (¬ (s.fqHead ≤ v.toNat ∧ v.toNat ≤ s.fqTail) → exec (.fqHead ⟨p, v⟩) s = .next (s.unstage p).retryQueue) ∧
    exec (.fqBase ⟨p, v⟩) s = .next ({ s.unstage p with fqBase := v - v % 64 }.retryQueue)) ∧
  (∀ p (v : Word) s, s.barLive p = true →
    exec (.fqSize ⟨p, v⟩) s = .next ({ s.unstage p with fqLog2 := v.toNat % 32 }.retryQueue)) ∧
  (∀ p c v (s : State), s.barLive p = true → c < 96 → ∃ t, exec (.colGateReq c ⟨p, v⟩) s = .next t ∧
    t = (s.unstage p).updCol c (fun _ => t.col c) ∧ (t.col c).gateReq = v.getLsbD 0 ∧
    (t.col c).lost = ((s.col c).lost && !v.getLsbD 30) ∧
    (v.getLsbD 0 = true → (s.col c).gated = false → (∀ y, (s.col c).sealing = some y → y.reason ≠ 1#8) →
      (t.col c).sealReqs.contains 1#8 = true) ∧
    (v.getLsbD 0 = false → (t.col c).sealReqs = (s.col c).sealReqs)) ∧
  (∀ p addr data size (s : State), s.barLive p = true →
    (∃ t, exec (.hostBar2Access p true addr size data) s = .next t ∧
      (MemoryOk s → (∀ w ∈ s.wgs, w.stash = []) →
        t = { s with mem := t.mem, dcache := t.dcache, weak := t.weak, dramCe := t.dramCe, lags := t.lags,
                     peerLines := t.peerLines } ∧ ∀ k, t.byte k =
        if keyRegion k = regDram ∧ addr ≤ keyOff k ∧ keyOff k < dramSize ∧ keyOff k < addr + data.length
        then data.getD (keyOff k - addr) 0 else s.byte k)) ∧
    ∃ t bs, exec (.hostBar2Access p false addr size data) s = .next t ∧
      t.outbox = s.outbox ++ [.hostRead p addr bs] ∧ t.mem = s.mem ∧ bs.length = size ∧
      ∀ i, i < size → (dramSize ≤ addr + i → bs.getD i 0 = 0xff) ∧
        (addr + i < dramSize → codeWord (mkKey regDram (addr + i)) ∉ s.bad →
          bs.getD i 0 = s.byte (mkKey regDram (addr + i))))

/-- R276, R285, R352, R353: the page commands: a PUBLISH of a later generation of any context removes the range's
translations and what caches and stashes found by them; a REPLAY of an unknown entry is reported, one whose generation
has been reached closes its entry, another is held, and goes stale. POOL_SPLIT takes a target from 0 to 8 while it is
not busy; the split completes when no transfer command writes the ways that change role, and those bytes then read as
zero. PUBLISH for every context, the range of a publication and GO while BUSY stands are log entry 63; stash copies
under a publication, 30; bytes of the ways that change role, 65 (all DEDUCED). -/
def Obligations.PageCommandsAndSplit : Prop :=
  (∀ p (s : State), s.barLive p = true → fieldNat (s.pg p).r0 15 8 = 1 → (s.pg p).busy = false →
    let x := s.pg p
    let n := fieldNat x.r0 7 0
    let g : Word := bits x.r0 63 32
    let lo := fieldNat x.r1 59 0
    let hi := fieldNat x.r2 59 0
    (g ≠ s.genOf n → (g - s.genOf n).toNat < 2 ^ 31 →
      exec (.publish p) s = .next (((({ s.unstage p with
        tlb := s.tlb.filter fun t => !(t.ctx == n && t.overlaps lo hi)
        columns := s.columns.map (Column.forget n lo hi) } : State).setGen n g).remapStash fun y =>
          iaIn n lo hi y.ia).runHeld)) ∧
    (g = s.genOf n ∨ 2 ^ 31 ≤ (g - s.genOf n).toNat →
      exec (.publish p) s = .next ((s.unstage p).updPg p fun y => { y with err := true }))) ∧
  (∀ p (s : State), s.barLive p = true → fieldNat (s.pg p).r0 15 8 = 2 → (s.pg p).busy = false →
    let x := s.pg p
    let id := fieldNat x.r1 31 0
    let g : Word := bits x.r0 63 32
    ((s.pending.any fun e => e.id == id) = false →
      exec (.replay p) s = .next (((s.unstage p).replayReport 0x4a id).updPg p fun y => { y with err := true })) ∧
    (∀ e, s.pending.find? (fun e => e.id == id) = some e →
      ((s.genOf e.ctx - g).toNat < 2 ^ 31 →
        ∃ t, exec (.replay p) s = .next t ∧
          t = ((s.unstage p).closeEntry e (x.r1.getLsbD 32)).updPg p fun y => y) ∧
      (2 ^ 31 ≤ (s.genOf e.ctx - g).toNat → (s.held.filter fun h => h.pair == e.unit % 8).length < 64 →
        ∃ t, exec (.replay p) s = .next t ∧
          t.held = s.held ++ [⟨id, g, x.r1.getLsbD 32, s.timeNs, e.unit % 8⟩] ∧ t.pending = s.pending) ∧
      (2 ^ 31 ≤ (s.genOf e.ctx - g).toNat → 64 ≤ (s.held.filter fun h => h.pair == e.unit % 8).length →
        ∃ t, exec (.replay p) s = .next t ∧ t.held = s.held ∧ t.pending = s.pending ∧
          (t.pg p).busy = true ∧ (t.pg p).pending = some (id, g, x.r1.getLsbD 32)))) ∧
  (∀ id h (s : State), s.held.find? (fun h => h.id == id && decide (h.since + 1000000 ≤ s.timeNs)) = some h →
    exec (.replayStale id) s = .next
      (((({ s with held := s.held.erase h }.replayReport 0x4c h.id).admitPending .a)).admitPending .b)) ∧
  (∀ p c v (s : State), s.barLive p = true → c < 96 →
    ((s.col c).poolBusy = false → v.toNat % 16 ≤ 8 → ∃ t, exec (.poolSplit c ⟨p, v⟩) s = .next t ∧
      t = (s.unstage p).updCol c (fun _ => t.col c) ∧ (t.col c).poolTarget = v.toNat % 16 ∧
      (t.col c).poolCurrent = (s.col c).poolCurrent ∧
      (t.col c).poolBusy = decide (v.toNat % 16 ≠ (s.col c).poolCurrent)) ∧
    ((s.col c).poolBusy = true ∨ 8 < v.toNat % 16 → exec (.poolSplit c ⟨p, v⟩) s = .next (s.unstage p))) ∧
  (∀ c (s : State), c < 96 → (s.col c).poolBusy = true →
    let lo := min (s.col c).poolCurrent (s.col c).poolTarget * 524288
    let hi := max (s.col c).poolCurrent (s.col c).poolTarget * 524288
    s.transferInto c lo hi = false → ∃ t, exec (.poolSplitComplete c) s = .next t ∧
      t = { s.updCol c (fun _ => t.col c) with mem := t.mem, dcache := t.dcache } ∧
      (t.col c).poolCurrent = (s.col c).poolTarget ∧ (t.col c).poolBusy = false ∧
      ∀ k, memGet t.mem k = if keyRegion k = regScratch c ∧ lo ≤ keyOff k ∧ keyOff k < hi then 0 else memGet s.mem k)

/-- R165, R288 to R291, R361, R363, R364: dirty blocks are written behind, into the column's shadow buffer while a
seal is in progress; a seal is captured and becomes valid, with it the commit points that it holds and the yielded
records that wait for it, once the core's stores before them are performed; a gating seal powers the column down, and
it comes back; a core loses its power and is recovered: a restored thread stands at its sealed REGION_PC, or at the
commit point that the seal holds, with its sealed registers. What a seal holds and when it may be captured are log
entries 78 and 87, which blocks count as dirty 98, yielded records 70, gating 72, what a loss of power takes 46, and
what a recovery puts back 71 (98 DESIGN CHOICE, the others DEDUCED). -/
def Obligations.CoreRecoveryEvents : Prop :=
  (∀ c (s : State),
    ((s.col c).powered = true → (s.col c).gated = false →
      let w : ShadowWrite := ⟨(s.col c).dirty (s.sealBody c), s.sealBody c⟩
      ((s.col c).sealing = none →
        exec (.shadowWriteBehind c) s = .next (s.updCol c fun x => { x with shadow := w :: x.shadow })) ∧
      ((s.col c).sealing.isSome = true →
        exec (.shadowWriteBehind c) s = .next (s.updCol c fun x => { x with shadowBuf := w :: x.shadowBuf }))) ∧
    ((s.col c).powered = false ∨ (s.col c).gated = true → exec (.shadowWriteBehind c) s = .next s)) ∧
  (∀ c reason (s : State), c < 96 → (s.col c).acts = true → (s.col c).sealing = none → s.sealWanted c reason = true →
    (∀ r ∈ s.runs, r.key.col = c → ∃ w, r.parked = some w ∧ w ≠ .miss) →
    ∃ t y, exec (.sealCapture c reason) s = .next t ∧ t = s.updCol c (fun _ => t.col c) ∧
      (t.col c).sealing = some y ∧ y.reason = reason ∧ y.core = c ∧ y.time = s.time ∧ y.valid = false ∧
      y.sqNext = (s.col c).nextSeq ∧ y.body = s.sealBody c ∧
      (∀ z, (s.col c).seals.find? (fun z => z.valid) = some z → y.seq = z.seq + 1 ∧ y.mslot = 1 - z.mslot ∧
        y.slots = z.slots ^^^ (s.col c).dirty (s.sealBody c)) ∧
      (t.col c).sealReqs.contains reason = false ∧ (t.col c).stopIssue = decide (reason = 1#8)) ∧
  (∀ c (s : State) y, c < 96 → (s.col c).sealing = some y →
    let s1 := if (s.col c).yielded.isEmpty then s else s.drain c
    ∃ t, exec (.sealValid c) s = .next t ∧
    t = { s1.updCol c (fun _ => t.col c) with threads := s1.threads.map (Thread.sealed y) } ∧
    (t.col c).sealing = none ∧ (t.col c).seals.head? = some { y with valid := true } ∧
    (t.col c).shadow = (s1.col c).shadowBuf ∧
    ((∀ e ∈ (s1.col c).pendingStores, e.hold = true) →
      (s1.col c).deque.length + (s1.col c).yielded.length ≤ 33024 →
      ∀ v ∈ (s1.col c).yielded, v.1 ≤ y.seq → v.2 ∈ (t.col c).deque) ∧
    (y.reason = 1#8 → (s.col c).gateReq = true → (t.col c).gated = true) ∧
    (y.reason = 1#8 → (s.col c).gateReq = false → (t.col c).stopIssue = false)) ∧
  (∀ c (s : State), c < 96 → (s.col c).gated = true → (s.col c).gateReq = false → (s.col c).powered = true →
    exec (.colGatePowerUp c) s = .next
      ((s.updCol c fun y => { y with gated := false, stopIssue := false }).applyHeld c)) ∧
  (∀ c (s : State), c < 96 → (s.col c).powered = true → ∃ t, exec (.columnSupplyFailure c) s = .next t ∧
    (t.col c).powered = false ∧ (t.col c).lost = true ∧ (t.col c).sealing = none ∧ (t.col c).released = [] ∧
    (t.col c).icache = [] ∧ (t.col c).l1 = [] ∧ (t.col c).misses = [] ∧ (t.col c).banked = (s.col c).banked ∧
    (t.col c).seals = (s.col c).seals ∧ t.mem = s.mem ∧
    t.runs = s.runs.filter fun r => r.key.col != c) ∧
  (∀ c (s : State), c < 96 → (s.col c).powered = false → (s.col c).best = none →
    exec (.coreRecovery c) s = .next ((((((s.colWgs c).filter fun w => !w.faulted).foldl
      (fun (acc : State) w => acc.restartWg w)
      ({ s with mem := s.mem.filter fun p => keyRegion p.1 != regScratch c }.updCol c
        fun y => { y with seqr := {} })).updCol c Column.resume).applyHeld c).recoveryReport c 0).settle) ∧
  (∀ c (s : State) y, c < 96 → (s.col c).powered = false → (s.col c).best = some y →
    let ws := s.restored c y.body
    let s1 := s.restoreFrom c y ws (s.col c).lastApplied
    let s2 := (((s.colWgs c).filter fun w => !w.faulted).filter fun w => !ws.any fun v => v.wid == w.wid).foldl
      (fun (acc : State) w => acc.placeAgain w) s1
    exec (.coreRecovery c) s =
      .next (((s2.updCol c Column.resume).applyHeld c).recoveryReport c y.seq).settle) ∧
  (∀ c (s : State) y, c < 96 → (s.col c).powered = true → (s.col c).gated = false → (s.col c).best = some y →
    s.phase = .live → s.colWgs c = [] →
    let s0 := { s with launches := s.launches ++
      y.body.launches.filter fun (l : Launch) => !s.launches.any fun k => k.lid == l.lid }
    exec (.firmwareCoreRestore c) s =
      .next ((((s0.restoreFrom c y y.body.wgs 0).updCol c Column.resume).recoveryReport c y.seq).settle)) ∧
  (∀ (s : State) c clock (t : Thread), let x := s.restoreThread c clock t
      (t.sealing = none → x.pc = t.regionPc ∧ x.raised = none) ∧
      (∀ y, t.sealing = some y → y.pc ≠ trapSeal → x.pc = y.pc ∧ x.raised = none ∧
        x.sealing = some { y with valid := true }) ∧
      (∀ y, t.sealing = some y → y.pc = trapSeal → x.pc = t.regionPc ∧ x.raised = t.raised) ∧
      x.regionPc = t.regionPc ∧ x.v = t.v ∧ x.p = t.p ∧ x.q = t.q ∧
      x.trapPc = t.trapPc ∧ x.trapCause = t.trapCause ∧ x.trapLevel = t.trapLevel ∧ x.wait = .ready ∧
      x.jump = none ∧ x.exited = t.exited ∧ x.stochCount = t.stochCount)

/-- The events of the memory and of its checks, in every state: R291, R299, R361, R363: STORE_APPLIED performs the
oldest store of a core that may be performed: the first of those that the service layer has taken over, or else the
oldest released one, which enters LAST_APPLIED; while a core is gated or without power, or its oldest store waits for
a seal, nothing happens. R190, R292, R318: KEEP_SCOPE_DURABLE makes durable, whole, the oldest write to the persistent
window that may become durable: one with no earlier write to its sector, and whose thread has no earlier write before
a persist fence that is not durable; with none there is nothing to do. That the oldest such write comes first is the
model's order (log entry 21). R294, R295, R358: the patrol scrubber reads a 32-byte code word of G7 DRAM: an
uncorrectable error is logged with the sector's IA, a single-bit error is corrected and counted in the register of the
word's controller, and a word without an error stays. R293: a pattern run on a vertical bus, one of eight and the
spare: one that passes ends a series of failures; a second failure in a row retires the bus; a second retired bus
withdraws the column, and a record tells the host. When a store reaches its home is log entry 17, the pattern runs of
a bus are 77 (both DEDUCED); where a soft error lies, and the IA of a sector that no translation reaches, are log
entry 67 (DESIGN CHOICE). -/
def Obligations.MemoryEventsComplete : Prop :=
  (∀ c (s : State),
      (∀ r rs, (s.col c).banked = r :: rs →
        exec (.storeApplied c) s = .next ((s.updCol c fun x => { x with banked := rs }).performOne c r)) ∧
      (∀ r rs, (s.col c).banked = [] → (s.col c).released = r :: rs → (s.col c).powered = true →
        (s.col c).gated = false → r.hold = false →
        exec (.storeApplied c) s = .next ((s.updCol c fun x =>
          { x with released := rs, lastApplied := max x.lastApplied r.seq }).performOne c r)) ∧
      ((s.col c).banked = [] → ((s.col c).powered = false ∨ (s.col c).gated = true ∨
          ∀ r, (s.col c).released.head? = some r → r.hold = true) →
        exec (.storeApplied c) s = .next s)) ∧
  ((∀ (s : State) i w, s.keepQ[i]? = some w →
      (s.mayDurable i w = true ↔ (∀ v ∈ s.keepQ.take i, v.key / 16 ≠ w.key / 16) ∧
        ∀ t, w.by_ = some t → s.keepPending t w.epoch = false)) ∧
    (∀ (s : State) i w, s.keepQ[i]? = some w → s.mayDurable i w = true →
      (∀ j v, j < i → s.keepQ[j]? = some v → s.mayDurable j v = false) →
      exec .keepScopeDurable s = .next { s with
        keep := memSetBytes s.keep w.key w.data, keepQ := s.keepQ.take i ++ s.keepQ.drop (i + 1)
        keepDone := s.keepDone + 1 }) ∧
    (∀ (s : State), (∀ j v, s.keepQ[j]? = some v → s.mayDurable j v = false) → exec .keepScopeDurable s = .next s)) ∧
  (∀ a (s : State), a < dramSize →
      let k := mkKey regDram (a / 32 * 32)
      let i := a / 32 * 32 / 1920 % 16
      (k ∈ s.bad → exec (.patrolScrub a) s = .next ({ s with freeCtr := s.freeCtr + 1 }.writeRecord
        { cause := 0x4e, kind := 3, addr := s.sectorIa (mkKey regDram (a / 16 * 16)), time := s.time })) ∧
      (k ∉ s.bad → k ∈ s.weak → exec (.patrolScrub a) s = .next { s with
        weak := s.weak.filter fun w => w != k
        dramCe := s.dramCe.setIfInBounds i (satInc (s.dramCe[i]?.getD 0)) }) ∧
      (k ∉ s.bad → k ∉ s.weak → exec (.patrolScrub a) s = .next s)) ∧
  (∀ c bus (s : State), c < 96 → bus < 9 →
      let b : BitVec 9 := 1#9 <<< bus
      let x := s.col c
      exec (.verticalBusTest c bus true) s = .next (s.updCol c fun y => { y with lastFail := y.lastFail &&& ~~~b }) ∧
      (x.lastFail.getLsbD bus = false → exec (.verticalBusTest c bus false) s =
        .next (s.updCol c fun y => { y with lastFail := y.lastFail ||| b })) ∧
      (x.lastFail.getLsbD bus = true → x.retired.getLsbD bus = true →
        exec (.verticalBusTest c bus false) s = .next s) ∧
      (x.lastFail.getLsbD bus = true → x.retired.getLsbD bus = false → (x.retired = 0 ∨ x.withdrawn = true) →
        exec (.verticalBusTest c bus false) s = .next (s.updCol c fun y =>
          { y with lastFail := y.lastFail &&& ~~~b, retired := y.retired ||| b })) ∧
      (x.lastFail.getLsbD bus = true → x.retired.getLsbD bus = false → x.retired ≠ 0 → x.withdrawn = false →
        exec (.verticalBusTest c bus false) s = .next ((s.updCol c fun y =>
          { y with withdrawn := true, lastFail := y.lastFail &&& ~~~b, retired := y.retired ||| b }).writeRecord
            { cause := 0xb8, kind := 3, who := whoWord 0 c 0 0, time := s.time })))

/-- R291, R292, R293, R295: the oldest released store reaches its home, where a plain one writes its bytes; the oldest
write to the persistent window becomes durable; a sector with an error is logged, a vertical bus is retired. The order
of durable writes is log entry 21, the pattern runs of a bus 77, a store's moment 17 (all DEDUCED); where a soft error
lies, and the IA of a sector that no translation reaches, are log entry 67 (DESIGN CHOICE). -/
def Obligations.StoreAndScrubEvents : Prop :=
  (∀ c (s : State) r rs bs, c < 96 → (s.col c).banked = [] → (s.col c).released = r :: rs → (s.col c).awake = true →
    r.hold = false → r.store.op = .write bs → s.peerFails r.store.key bs.length = false →
    s.hostFails r.store.key bs.length = false → (∀ w ∈ s.wgs, w.stash = []) → MemoryOk s →
    ∃ t, exec (.storeApplied c) s = .next t ∧ (t.col c).released = rs ∧
      (t.col c).lastApplied = max (s.col c).lastApplied r.seq ∧
      ∀ k, t.byte k = if r.store.key ≤ k ∧ k < r.store.key + bs.length then bs.getD (k - r.store.key) 0 else s.byte k) ∧
  (∀ (s : State) w rest, s.keepQ = w :: rest → (∀ t, w.by_ = some t → s.keepPending t w.epoch = false) →
    exec .keepScopeDurable s = .next { s with
      keep := memSetBytes s.keep w.key w.data, keepQ := rest, keepDone := s.keepDone + 1 }) ∧
  (∀ a (s : State), a < dramSize → mkKey regDram (a / 32 * 32) ∈ s.bad →
    exec (.patrolScrub a) s = .next ({ s with freeCtr := s.freeCtr + 1 }.writeRecord
      { cause := 0x4e, kind := 3, addr := s.sectorIa (mkKey regDram (a / 16 * 16)), time := s.time })) ∧
  (∀ c bus (s : State), c < 96 → bus < 9 →
    (∃ t, exec (.verticalBusTest c bus true) s = .next t ∧ (t.col c).retired = (s.col c).retired ∧
      (t.col c).lastFail.getLsbD bus = false) ∧
    ((s.col c).lastFail.getLsbD bus = false → ∃ t, exec (.verticalBusTest c bus false) s = .next t ∧
      (t.col c).lastFail.getLsbD bus = true ∧ (t.col c).retired = (s.col c).retired) ∧
    ((s.col c).lastFail.getLsbD bus = true → (s.col c).retired = 0 → ∃ t,
      exec (.verticalBusTest c bus false) s = .next t ∧ (t.col c).retired = 1#9 <<< bus ∧
      (t.col c).withdrawn = (s.col c).withdrawn) ∧
    ((s.col c).lastFail.getLsbD bus = true → (s.col c).retired ≠ 0 → (s.col c).retired.getLsbD bus = false →
      (s.col c).withdrawn = false → ∃ t, exec (.verticalBusTest c bus false) s = .next t ∧
      (t.col c).withdrawn = true ∧ (t.col c).retired.getLsbD bus = true))

/-- R430 to R437: cold reset, loss of power, PERST# and bring-up. What stands over a cold reset besides the rind and
the firmware banks, that the links are down after it and the pins read, and how a card without power starts again are
log entry 74; what firmware installs is log entry 75 (both DEDUCED); the temperatures and limits are inputs, log entry
73; which bytes the firmware banks hold is log entry 113 (both DESIGN CHOICE). -/
def Obligations.PowerEvents : Prop :=
  (∀ s : State, ∃ t, exec .coldReset s = .next t ∧ t.threads = [] ∧ t.runs = [] ∧ t.contexts = [] ∧ t.pending = [] ∧
    t.sems = State.reset.sems ∧ t.queues = State.reset.queues ∧ t.ropes = State.reset.ropes ∧
    t.fqTail = 0 ∧ t.timeNs = 0 ∧ t.banks = s.banks ∧ t.keep = s.keep ∧
    t.spares = s.spares ∧ t.portAUp = false ∧ t.portBUp = false ∧
    (∀ c, (t.col c).seals = (s.col c).seals ∧ (t.col c).shadow = (s.col c).shadow ∧ (t.col c).clock = 0 ∧
      (t.col c).deque = []) ∧
    (s.phase ≠ .off → t.phase = .held ∧
      t.limitW = s.pinLimit) ∧
    (s.phase = .off → t.phase = .off ∧ t.limitW = 0)) ∧
  (∀ s : State, ∃ t, exec .inputUndervoltage s = .next t ∧ t.phase = .off ∧ t.threads = [] ∧ t.limitW = 0 ∧
    t.latched = s.latched ∧ t.keep = s.keep ∧ t.banks = s.banks) ∧
  (∀ s : State, (s.tempCut ≤ s.cardTemp ∨ ∃ c, c < 96 ∧ s.tempCut ≤ (s.col c).temp) →
    ∃ t, exec .overTemperature s = .next t ∧ t.phase = .off ∧ t.threads = [] ∧ t.limitW = 0 ∧
    t.latched = true ∧ t.keep = s.keep ∧ t.banks = s.banks) ∧
  (∀ s : State, s.cardTemp < s.tempCut → (∀ c, c < 96 → (s.col c).temp < s.tempCut) →
    exec .overTemperature s = .next s) ∧
  (∀ s : State, s.merged = false →
    exec (.perst true true) s = .next s.coldReset ∧
    (s.portBUp = true → exec (.perst true false) s = .next { s with pgA := {}, stagedA := none, portAUp := false }) ∧
    (s.portBUp = false → exec (.perst true false) s = .next s.coldReset) ∧
    (s.portAUp = true → exec (.perst false true) s = .next { s with pgB := {}, stagedB := none, portBUp := false }) ∧
    (s.portAUp = false → exec (.perst false true) s = .next s.coldReset)) ∧
  (∀ (s : State) b, s.merged = true → exec (.perst true b) s = .next s.coldReset) ∧
  (∀ (s : State) b, s.phase = .held → 500 ≤ s.limitW → s.bootBank = some b →
    ∃ t, exec .bringUp s = .next t ∧ t.phase = .live ∧ t.activeBank = b ∧ t.contexts = [fwContext] ∧
      t.queue 0 = fwQueue ∧ (∀ q, 0 < q → t.queue q = s.queue q) ∧
      (t.program 0).ops = [0x10100000#32, 0x1e210000#32, 0x10300008#32, 0x20300002#32, 0x14230000#32,
        0x24000000#32]) ∧
  (∀ s : State, s.phase = .held → 500 ≤ s.limitW → s.bootBank = none →
    exec .bringUp s = .next { s with phase := .step 2 }) ∧
  (∀ s : State, s.phase = .held → s.limitW < 500 → exec .bringUp s = .next s) ∧
  (∀ s : State, s.phase ≠ .held → exec .bringUp s = .next s)

/-- R22, R26, R161, R199, R222, R274, R331, R332, R341 to R344, R348: a picked run begins, a line is fetched, a result
lands, a parked run or sequencer goes on, a page walk ends, the clocked counters of a column move. A parked run or
sequencer is executed again when its resume event comes, whether or not its condition holds, and parks again if it
does not: log entry 1 (DESIGN CHOICE). Who a picker chooses among equals is log entry 8, instruction cache lines 3,
the accesses that wait at a walker 84 (all DEDUCED), the limits and their counters 73 (DESIGN CHOICE). -/
def Obligations.RunAndColumnEvents : Prop :=
  (∀ k (s : State) x, (s.col k.col).acts = true → s.run? k = none → s.portFree k.col k.part (k.port % 2) = true →
    s.choose k = some x →
    let r : Run := { key := k, start := x.t.pc, words := x.words, members := s.gather k x, lane := k.port % 2
                     crewRun := if x.uniform then some x.t.cid else none }
    (r.ports = 2 → s.portFree k.col k.part 0 = true ∧ s.portFree k.col k.part 1 = true) →
    ∃ t, exec (.pickRun k) s = .next t ∧ t.turn = .run k ∧ t.runs = s.runs ++ [r] ∧
      t.threads = (s.threads.map fun y => if r.members.contains y.ref then { y with entering := none } else y) ∧
      t.mem = s.mem) ∧
  (∀ t (s : State) a l ia s1 ws, s.standing (s.thread t) = true → (s.col (s.crewCol t.cid)).acts = true →
    s.fetchIa (s.crewLaunch (s.thread t).cid).ctx (s.thread t).pc = .ok a →
    s.fetchRun (s.crewLaunch (s.thread t).cid) (s.crewCol (s.thread t).cid) (s.thread t).pc = .missing l ia →
    s.fillLine (s.crewCol (s.thread t).cid) (ptrAdd (s.thread t).pc (ia - a)) ia = (.words ws, s1) →
    exec (.instructionFetch t) s = .next (s.renewAges (s.crewCol t.cid) s1)) ∧
  (∀ t (s : State) ps p qs s1, (s.col (s.crewCol t.cid)).acts = true → (s.thread t).pend = ps ++ p :: qs →
    (∀ q ∈ ps, s.landOne t q = none) → s.landOne t p = some s1 →
    exec (.longLatencyResult t) s = .next s1.settle) ∧
  (∀ k (s : State) r w i, s.run? k = some r → r.parked = some w → (s.col k.col).acts = true →
    (∀ m ∈ r.members, (s.wg (s.crew m.cid).wid).fault = none) → s.portAgain r = some i →
    let t : State := { (s.takePort r i).updRun k (fun x => { x with parked := none, lane := i }) with turn := .run k }
    exec (.parkedRunResume k) s = .next t ∧
    (w = .engine → exec (.engineCounterRoom k) s = .next t) ∧
    (w = .time → exec (.waitTimeExpiry k) s = .next t) ∧
    (w = .barrier → exec (.tbWaitTimeout k) s = .next t)) ∧
  (∀ c (s : State), (s.col c).acts = true → (s.col c).seqr.running = true →
    exec (.sequencerParkResume c) s = .next { s.updCol c (fun x =>
      { x with seqr := { x.seqr with parked := none } }) with turn := .seq c }) ∧
  (∀ ctx ia sp w (s : State) s1 k, s.translate (ctx % 256 * 2 ^ 52 + ia % 2 ^ 52) sp.toNat w = .at s1 k →
    exec (.pageWalk ctx ia sp w) s =
      .next ((s1.atWalker (ctx % 256 * 2 ^ 52 + ia % 2 ^ 52)).foldl (fun acc x => acc.updThread x.ref fun y =>
        { y with wait := .ready, since := (acc.col (acc.crewCol x.cid)).clock }) s1)) ∧
  (∀ ctx ia sp w (s : State) k i e, let a := ctx % 256 * 2 ^ 52 + ia % 2 ^ 52
    s.translate a sp.toNat w = .pageFault k i e →
    exec (.pageWalk ctx ia sp w) s = .next ((s.atWalker a).foldl (fun acc x => acc.attachWalker k x) s)) ∧
  (∀ c pt (s : State), let n := (s.col c).halved[pt]?.getD 0
    let halved := s.crews.map fun x => if x.part = pt ∧ s.crewCol x.cid = c then { x with loss := x.loss / 2 } else x
    ((n + 1) * 1024 ≤ (s.col c).clock → exec (.localityLossHalving c pt) s = .next { s.updCol c (fun x =>
      { x with halved := x.halved.setIfInBounds pt (n + 1) }) with crews := halved }) ∧
    ((s.col c).clock < (n + 1) * 1024 → exec (.localityLossHalving c pt) s = .next s)) ∧
  (∀ c (s : State), c < 96 →
    let above := (s.col c).railOver = true ∨ s.tempLimit < (s.col c).temp ∨ min s.limitW s.wattLimit < s.powerW
    (above → ∃ t, exec (.hwLevelRise c) s = .next t ∧
      (t.col c).hwLevel.toNat = min 15 ((s.col c).hwLevel.toNat + 1)) ∧
    (¬ above → ∃ t, exec (.hwLevelFall c) s = .next t ∧
      (t.col c).hwLevel.toNat = (s.col c).hwLevel.toNat - 1)) ∧
  (∀ (s : State), let m := s.timeNs / s.framePeriod * s.framePeriod
    (s.framePeriod ≠ 0 → (∀ t, s.periodAt = some t → t < m) → exec .energyPeriodEnd s = .next { s with
      columns := s.columns.map fun x => { x with energyLast := x.energyCur, energyCur := 0 }, periodAt := some m }) ∧
    (∀ t, s.periodAt = some t → m ≤ t → exec .energyPeriodEnd s = .next s))

/-- R182, R186, R220, R403: the trap due at a thread's run boundary is taken there with TRAP_PC at its next run, and
the crew's handler is entered when it can be (R169, R170). Which refused stores are reported is log entry 83
(DEDUCED), at which parks an entry stops a member 114 (DESIGN CHOICE). -/
def Obligations.BoundaryTraps : Prop :=
  (∀ cid (s : State), exec (.trapEntry cid) s = .next (s.tryEnter cid).settle) ∧
  (∀ t (s : State) ti, (s.col (s.crewCol t.cid)).acts = true → (s.thread t).boundary = some ti → (s.thread t).exited = false → s.runOf t = none →
    (s.thread t).raised = none →
    let u := (s.updThread t fun y =>
      { y with boundary := none, raised := some { ti with pc := (s.thread t).pc } }).settle
    (ti.cause = 0x45 → exec (.memEcc t) s = .next u) ∧
    (ti.cause = 0x48 → exec (.hostCompletion t) s = .next u) ∧
    (ti.cause = 0x71 → exec (.mxFeed t) s = .next u) ∧
    (ti.cause = 0x44 → exec (.peerAccessRefused t) s = .next u))

/-- R325, R328, R333 to R339, R359: placement, work taken from a deque, a steal, yield requests. Crews and partitions
are log entry 60, tokens and pre-emption 61, records that cannot be read 62, a thief's visits 88, yields 70 (all
DEDUCED). -/
def Obligations.PlacementEvents : Prop :=
  (∀ lid idx (s : State) k ps, s.offer? (s.launch lid) idx = some (k, ps) →
    exec (.workgroupPlace lid idx) s = .next (s.placeUnit lid k ps)) ∧
  (∀ c (s : State) lid k ps, s.offerTo c = some (lid, k, ps) → exec (.coreTakeWork c) s = .next (s.placeUnit lid k ps)) ∧
  (∀ c (s : State) r, s.offerTo c = none → (s.col c).deque.getLast? = some r → s.takes c r = true →
    exec (.coreTakeWork c) s = .next ((s.updCol c Column.popYoung).startRecord c r)) ∧
  (∀ c (s : State) cand v, s.idleThief c = true → s.visit c (s.visits c) [] = (cand, some v) →
    exec (.stealAttempt c) s = .next (s.stealFrom c v cand)) ∧
  (∀ c (s : State) cand v, s.idleThief c = true → s.visit c (s.visits c) [] = (cand, none) → s.bestVictim cand = some v →
    exec (.stealAttempt c) s = .next (s.stealFrom c v cand)) ∧
  (∀ cid (s : State), s.yieldDue cid = true → (s.crew cid).yieldReq = false →
    let u := ((s.updCrew cid fun c => { c with yieldReq := true }).takeYield cid).settle
    ((s.crew cid).yieldAt = none → exec (.yieldReq cid) s = .next u) ∧
    (∀ n, (s.crew cid).yieldAt = some n → n + 1000000 ≤ s.timeNs → exec (.yieldReqRepeat cid) s = .next u))

/-- R9, R356, R357, R370, R371, R373: a workgroup's fault is noted for its launch as it is raised, and takes effect; a
workgroup ends, the serial phase applies its log, redundant copies are compared. The launch's earliest fault and what
a fault stops are log entries 68 and 94, when an index has ended 70, the pairing of redundant copies 89, the fields of
a fault's record 69 (all DEDUCED). -/
def Obligations.WorkgroupEvents : Prop :=
  (∀ wid (s : State) f, (s.wg wid).fault = none →
    s.faultWg wid f = (s.updWg wid fun x => { x with fault := some f }).updLaunch (s.wg wid).lid fun l =>
      l.noteFault f.cause ((s.wg wid).index.getD l.total) s.ticks) ∧
  (∀ wid (s : State) f, (s.wg wid).fault = some f → (s.wg wid).faulted = false → s.running wid = false →
    let w := s.wg wid
    let l := s.launch w.lid
    let s1 := s.stopWg wid
    (l.deterministic = false → exec (.workgroupFault wid) s = .next (s1.dropRecords w.lid).settle) ∧
    (l.deterministic = true → exec (.workgroupFault wid) s =
      .next ((s1.cancel wid w.lid (w.index.getD l.total)).dropRecords w.lid).settle)) ∧
  (∀ wid (s0 : State), let s := s0.drain (s0.wg wid).col
    let w := s.wg wid
    s.mayEnd w = true → (∀ e ∈ (s.col w.col).pendingStores, s.crewIn wid e.cid = false ∧ e.cid ≠ noCid + w.col) →
    let s1 := (s.freeWg wid).updLaunch w.lid fun l =>
      { l with tasks := if w.fromDeque then l.tasks - 1 else l.tasks }
    (w.faulted = false → exec (.workgroupEnd wid) s0 = .next ((s1.pushYields w).endIndex w).settle) ∧
    (w.faulted = true → exec (.workgroupEnd wid) s0 = .next ((s1.faultReport w).endIndex w).settle)) ∧
  (∀ wid (s : State), let w := s.wg wid
    let l := s.launch w.lid
    l.deterministic = true → w.fault = none → w.applied = false → s.quiet w = true → s.lowerEnded w = true →
    (l.redundant w.index = false ∨ w.judged = true ∧ w.chosen = true →
      exec (.serialPhase wid) s = .next ((w.ordered.foldl (fun acc e => acc.applyEntry e) s).updWg wid fun x =>
        { x with ticket := true, applied := true })) ∧
    (l.redundant w.index = true → w.judged = true → w.chosen = false →
      exec (.serialPhase wid) s = .next (s.updWg wid fun x => { x with ticket := true, applied := true }))) ∧
  (∀ wid (s : State) a b, let w := s.wg wid
    let l := s.launch w.lid
    w.task = false → l.redundant w.index = true → w.judged = false →
    s.copyOf w 0 = some a → s.copyOf w 1 = some b →
    s.quiet a = true → a.fault = none → s.quiet b = true → b.fault = none →
    (a.logCrc = b.logCrc → exec (.redundantCompare wid) s = .next (s.chooseCopy w 0)) ∧
    (a.logCrc ≠ b.logCrc → s.copyOf w 2 = none → a.part = 0 → exec (.redundantCompare wid) s =
      .next (s.updLaunch a.lid fun x => { x with
        thirds := a.index.getD 0 :: x.thirds.filter fun j => j != a.index.getD 0 })) ∧
    (a.logCrc ≠ b.logCrc → s.copyOf w 2 = none → a.part ≠ 0 → (s.col a.col).hasRoom = true →
      (∀ c, c < 96 → ∀ r ∈ (s.col c).deque,
        ¬ (r.lid = a.lid ∧ r.index = a.index ∧ r.part = a.part ∧ r.copy = 2 ∧ r.task = false)) →
      exec (.redundantCompare wid) s = .next ((s.updCol a.col fun x => x.enqueue { a.record with
        copy := 2, lid := a.lid, index := a.index, part := a.part }).updLaunch a.lid fun x =>
          { x with tasks := x.tasks + 1 })) ∧
    (∀ c, a.logCrc ≠ b.logCrc → s.copyOf w 2 = some c → s.quiet c = true → c.fault = none →
      (c.logCrc = a.logCrc → exec (.redundantCompare wid) s = .next (s.chooseCopy w 0)) ∧
      (c.logCrc = b.logCrc → exec (.redundantCompare wid) s = .next (s.chooseCopy w 1)) ∧
      (c.logCrc ≠ a.logCrc → c.logCrc ≠ b.logCrc →
        exec (.redundantCompare wid) s = .next (s.faultWg a.wid { cause := 0xb5 }))))

/-- R170: when a crew that can enter its handler has no member that took a trap at TRAP_LEVEL 1, and the vector word
of the first nonzero cause is an address, every live member's trap registers, level and PC are as the rule says. A
member's trap is the one it took, or cause 0 at its resume address. What an entry does beyond the rule's steps is log
entry 79 (DEDUCED), at which parks it stops a member 114 (DESIGN CHOICE). -/
def Obligations.TrapEntry : Prop :=
  ∀ (s : State) cid (h : DWord) first, s.canEnter cid = true →
    (∀ t ∈ s.liveMembers cid, t.raised.isSome = true → t.trapLevel = false) →
    (s.liveMembers cid).find? (fun t => (t.raised.getD ⟨0, s.resumeAddr t.ref, 0, 0⟩).cause != 0) = some first →
    ((settled s cid).readVector cid (first.raised.getD ⟨0, s.resumeAddr first.ref, 0, 0⟩).cause).map (·.2) =
      some (.handler h) →
    ∀ t ∈ s.liveMembers cid, (∀ u ∈ s.liveMembers cid, u.ref = t.ref → u = t) →
      let ti := t.raised.getD ⟨0, s.resumeAddr t.ref, 0, 0⟩
      let x := (s.enterTrap cid).thread t.ref
      x.trapCause = ti.cause ∧ x.trapPc = ti.pc ∧ x.trapAddr = ti.addr ∧ x.trapData = ti.data ∧
      x.trapLevel = true ∧ x.pc = h ∧ x.regionPc = h

/-- R171: a trap taken while TRAP_LEVEL is 1 faults the workgroup, and so does a vector word that is no handler.
What an entry does beyond the rule's steps is log entry 79 (DEDUCED), at which parks it stops a member 114 (DESIGN
CHOICE). -/
def Obligations.TrapEntryFaults : Prop :=
  ∀ (s : State) cid, s.canEnter cid = true → (s.wg (s.crew cid).wid).fault = none →
    (∃ w ∈ s.wgs, w.wid = (s.crew cid).wid) →
    ((∃ t ∈ s.liveMembers cid, t.raised.isSome = true ∧ t.trapLevel = true) →
      ∃ f, ((s.enterTrap cid).wg (s.crew cid).wid).fault = some f ∧ f.cause = 0xb1) ∧
    (∀ first, (∀ t ∈ s.liveMembers cid, t.raised.isSome = true → t.trapLevel = false) →
      (s.liveMembers cid).find? (fun t => (t.raised.getD ⟨0, s.resumeAddr t.ref, 0, 0⟩).cause != 0) = some first →
      ((settled s cid).readVector cid (first.raised.getD ⟨0, s.resumeAddr first.ref, 0, 0⟩).cause).map (·.2) =
        some .bad →
      ∃ f, ((s.enterTrap cid).wg (s.crew cid).wid).fault = some f ∧ f.cause = 0xb3)

/-- R174, R175, R271, R285: an access that passes the checks is aligned, names a space below 6, and lies in the range
of the scratchpad of the workgroup that it goes to, below the column's split, or, from its first byte to its last, in
a range register and a bounds entry of its context that both grant what it needs, at the IA that the register makes of
it. -/
def Obligations.AccessesConfined : Prop :=
  ∀ (s : State) (w : Who) p size need align d, 0 < size → (s.wgs.map (·.wid)).Nodup →
    s.check w p size need align = .ok d →
    (align = true → ptrOff p % size = 0) ∧ ptrSpace p < 6 ∧
    (∀ wid off, d = .scratch wid off → s.wg wid ∈ s.wgs ∧ (s.wg wid).wid = wid ∧
      (ptrSpace p = 1 ∧ w.wid = some wid ∧ off = ptrOff p ∨ ptrSpace p = 2 ∧ off = fieldNat p 21 0) ∧
      off + size ≤ (s.wg wid).scratchSize ∧
      (s.wg wid).scratchBase + off + size ≤ (s.col (s.wg wid).col).poolCurrent * 524288) ∧
    (∀ sp ia, d = .global sp ia → sp = ptrSpace p ∧ ∃ c rr, s.ctx? w.ctx = some c ∧ rr ∈ c.ranges.toList ∧
      rr.matches p = true ∧ ptrOff p + size ≤ 2 ^ 52 ∧ (ptrOff p + size - 1) / 65536 ≤ fieldNat rr.limit 51 16 ∧
      ia = fieldNat rr.xlat 59 52 * 2 ^ 52 + (ptrOff p + fieldNat rr.xlat 51 16 * 65536) % 2 ^ 52 ∧
      need &&& rr.ctl.setWidth 4 = need ∧
      let e := c.bounds.getD (fieldNat p 59 52) {}
      bit e.ctl 7 = true ∧ e.lo ≤ ia ∧ ia + size - 1 ≤ e.hi ∧ need &&& e.ctl.setWidth 4 = need)

/-- R23, R97, R101 to R110: a lane word on registers changes registers, predicates, latches and STOCH_COUNT of the
threads in turn, and nothing else but that its run moves on: every byte of memory reads as before. -/
def Obligations.LaneFrames : Prop :=
  ∀ i (s : State) r, ((arith32 i).isSome ∨ (shift32 i).isSome ∨ (pair64 i).isSome ∨ (predOf i).isSome ∨
      (floatOf i).isSome) → noQueue i = true → s.current = some r →
    ∃ t : State, exec i s = .next t ∧ t = { s with threads := t.threads, runs := t.runs } ∧ (∀ k, t.byte k = s.byte k) ∧
      t.threads.length = s.threads.length ∧ ∀ (n : Nat) (x y : Thread), s.threads[n]? = some x → t.threads[n]? = some y →
        y = { x with v := y.v, p := y.p, b := y.b, stochCount := y.stochCount } ∧ (r.todo.contains x.ref = false → y = x) ∧
        y.pred 7#3 = x.pred 7#3

/-- R178, R181, R187: what one thread's store or reduction changes in memory, where no workgroup has a stash. A global
one changes no byte; one to scratchpad changes, after what it has to come after, the bytes at its place alone, and a
store leaves its data there. What a scratchpad store comes after is log entry 17 (DEDUCED). -/
def Obligations.StoreFrame : Prop :=
  ∀ i policy size kind op d a o, storeOf i = some (policy, size, kind, op, d, a, o) → ∀ (s : State) r t s1 k dst,
    s.current = some r → r.todo = [t] → (s.thread t).helper = false →
    access s t (s.actEa (s.crew t.cid).wid (eaOf (s.env r t.cid) (s.thread t) a o size)) size kind = some (s1, k, dst) →
    ∀ s2, storeAfter s1 t k size dst = some s2 →
    (∀ w ∈ s2.wgs, w.stash = []) → MemoryOk s2 → (inGlobal dst = true → (s.crew t.cid).storeQ.length < 256) →
    ∃ u, exec i s = .next u ∧ (inGlobal dst = true → u.mem = s1.mem) ∧
      (∀ key, key < k ∨ k + size ≤ key → u.byte key = s2.byte key) ∧
      (∀ bs, op (dataOf (s.env r t.cid) (s.thread t) d size) = .write bs → inGlobal dst = false → u.bytes k size = bs)

/-- R53, R210, R291, R323, R419: an event of the agenda, or the instruction that decodes at the position of the run
and waits for no seal of its commit point, at the sequencer's PC or at the queue's index whose turn it is, is executed
by the step; its faults and refusals are the step's. The agenda, and that the word at the run's position takes one
step, are log entries 1 and 91 (DESIGN CHOICE); which words wait for a seal is log entry 20 (DEDUCED). -/
def Obligations.StepRuns : Prop :=
  (∀ s i ms, s.agenda = .event i :: ms → i.cls = .event →
    let s1 := { s with agenda := ms }
    step s = (match exec i s1 with
      | .next t => .next (s1.afterExec i t)
      | .fault f => .fault f
      | .refused f => .refused f)) ∧
  (∀ s k r i n row t0 ts, s.agenda = [] → s.turn = .run k → s.run? k = some r → r.parked = none →
    (s.col k.col).acts = true → r.members = t0 :: ts →
    let s0 := s.wordClock k
    (s0.crewLaunch t0.cid).decodeNum = 0 →
    isTrailer r.word = false → r.pos + n < 24 → findRow (setOpOf r.word) = some row →
    (row.xfer = true → isTrailer (r.wordAt (r.pos + 1 + n)) = true) →
    decodeWord r.word (r.wordAt (r.pos + 1)) (r.wordAt (r.pos + 2)) = .ok (i, n) → i.cls ≠ .matrix →
    (∀ t ∈ r.todo, (s0.thread t).regErr r i = none) →
    (∀ m, i.uSrc = some (.latch m) → ∀ t ∈ r.members, ∀ w, (s0.thread t).latch m.toNat ≠ .lane w) →
    (i.commits = true → ∀ t ∈ r.todo, s0.mustSeal t r.wordAddr = false) →
    let s1 := s0.updRun r.key fun x => { x with wlen := 1 + n }
    step s = (match exec i s1 with
      | .next t => .next (t.noteHazards k (s1.run k).pos i)
      | .fault f => .fault f
      | .refused f => .refused f)) ∧
  (∀ s c i n wid ia w e1 e2, s.agenda = [] → s.turn = .seq c → s.seqReady c = true →
    (s.col c).seqr.holder = some wid → (s.launch (s.wg wid).lid).decodeNum = 0 →
    s.fetchIa (s.launch (s.wg wid).lid).ctx (s.col c).seqr.pc = .ok ia →
    icacheWord (s.col c).icache ia = some w → isTrailer w = false → 1024 ≤ setOpOf w →
    crewOnly (setOpOf w) = false →
    (if 1 ≤ n then icacheWord (s.col c).icache (ia + 4) else some 0) = some e1 →
    (if 2 ≤ n then icacheWord (s.col c).icache (ia + 8) else some 0) = some e2 →
    decodeWord w e1 e2 = .ok (i, n) → (∀ m, i.uSrc ≠ some (.latch m)) →
    step s = exec i s) ∧
  (∀ s q r w i, s.agenda = [] → s.turn = .curd q → (s.queue q).run = some r → r.park = .running → r.budget ≠ 0 →
    (s.program (s.queue q).program).ops[r.index]? = some w → decodeCurd w = some i →
    let s1 := s.updQueue q fun x => { x with run := some { r with budget := r.budget - 1 } }
    step s = exec i s1)

/-- R37 to R60, R419: the decoder gives every well-formed instruction back from its words, with every operand at every
value that its encoding admits; the words of a Curd program by R419's format. UNIFORM_LD and its like stand at R59's
opcodes, not the table's match words: log entry 4 (DEDUCED). -/
def Obligations.DecodeEncode : Prop :=
  ∀ i, i.wf = true →
    (i.cls = .lane ∨ i.cls = .uniform ∨ i.cls = .matrix → ∃ w rest, encode i = w :: rest ∧
      decodeWord w (rest.getD 0 0) (rest.getD 1 0) = .ok (i, rest.length)) ∧
    (i.cls = .curd → ∃ w, encode i = [w] ∧ decodeCurd w = some i)

/-- Words written out from the encoding tables, and the instructions that they stand for: the worked programs of
02_formats_encoding.md and 06 to 08, and R419. -/
def Obligations.DecodeWords : Prop :=
  decodeWord 0x5a024502 0 0 = .ok (.ld 4#3 0#2 9#7 10#7 2#7, 0) ∧
  decodeWord 0x00010082 0 0 = .ok (.add 4#7 1#7 (.code 2#7), 0) ∧
  decodeWord 0x100182fd 0 0 = .ok (.addImm 6#7 5#7 0x7d#7, 0) ∧
  decodeWord 0x08048307 0 0 = .ok (.cmpInteger 0#2 1#3 2#4 6#7 (.code 7#7), 0) ∧
  decodeWord 0x2005fffa 0 0 = .ok (.bra 1#3 false 0x1fffa#17, 0) ∧
  decodeWord 0x5601c372 0 0 = .ok (.scanSegIncl 0#3 7#7 6#7 (.code 0x72#7) 0#7, 1) ∧
  decodeWord 0x6a614a7f 5 0 = .ok (.tbArrive 5#7 20#7 (.lit 5#32), 1) ∧
  decodeWord 0x80014160 0 0 = .ok (.uniformAdd 10#8 (.reg 11#8) false, 0) ∧
  decodeWord 0xa2000155 0 0 = .ok (.trap 0x155#13, 0) ∧
  decodeWord 0xa103c0a0 0 0 = .ok (.mfs 30#8 5#8 false, 0) ∧
  decodeWord 0xc6200040 0 0 = .ok (.xload 0#8 16#8 false, 0) ∧
  decodeWord 0xc0680004 0 0 = .ok (.mma 0#4 true true 2#3 0#8 1#8 false false, 0) ∧
  decodeWord 0x70218a16 0 0 = .ok (.xeRagged 6#7 20#7 (.code 22#7), 0) ∧
  isTrailer 0x7fe27c78 = true ∧
  decodeCurd 0x12000000 = some .curdRecpkt ∧
  decodeCurd 0x10100078 = some (.curdPkt 1#4 0x78#16) ∧
  decodeCurd 0x1e210000 = some (.curdCmd 2#4 1#4)

/-- R433, R436, R351, R361, R414, R353, R379, R20: what reset leaves. What has no stated reset value is 0, empty, none
or false by log entry 7, memory as by log entry 2 (both DESIGN CHOICE). -/
def Obligations.ResetLeaves : Prop :=
  let s := State.reset
  s.threads = [] ∧ s.crews = [] ∧ s.wgs = [] ∧ s.launches = [] ∧ s.runs = [] ∧ s.contexts = [] ∧ s.tlb = [] ∧
  s.mem = [] ∧ s.pending = [] ∧ s.fqBase = 0 ∧ s.fqTail = 0 ∧ s.fqHead = 0 ∧ s.timeNs = 0 ∧ s.ptpEnable = false ∧
  (∀ n, s.sem n = 0) ∧ (∀ q, q < 256 → (s.queue q).installed = false) ∧
  (∀ c, (s.col c).gated = false ∧ (s.col c).clock = 0 ∧ (s.col c).deque = [] ∧ (s.col c).poolBusy = false)

/-- The reset memory is canonical. The canonical form is the model's own, log entry 2 (DESIGN CHOICE). -/
def Obligations.ResetMemoryOk : Prop :=
  MemoryOk State.reset

/-- Every step keeps the memory and the durable window canonical. The canonical form is the model's own, log entry 2
(DESIGN CHOICE). -/
def Obligations.MemoryOkKept : Prop :=
  ∀ s t, MemoryOk s → step s = .next t → MemoryOk t

/-- R413, R417, R424, R425, R435: no lane, uniform or matrix word changes what the host, firmware and Curd programs
configure: contexts, queues, programs, images, semaphores, the fault queue's place, the PTP clock, power, links. -/
def Obligations.CoresConfigureNothing : Prop :=
  ∀ i s t, i.cls = .lane ∨ i.cls = .uniform ∨ i.cls = .matrix → exec i s = .next t →
    t.contexts = s.contexts ∧ t.queues = s.queues ∧ t.programs = s.programs ∧ t.banks = s.banks ∧
    t.activeBank = s.activeBank ∧ t.linkImages = s.linkImages ∧ t.sems = s.sems ∧ t.fqBase = s.fqBase ∧
    t.fqLog2 = s.fqLog2 ∧ t.fqHead = s.fqHead ∧ t.timeNs = s.timeNs ∧ t.phase = s.phase ∧ t.inwins = s.inwins ∧
    t.routeLo = s.routeLo ∧ t.routeHi = s.routeHi ∧ t.links = s.links ∧ t.cardId = s.cardId ∧
    t.pwrTokens = s.pwrTokens ∧ t.pwrCost = s.pwrCost ∧ t.limitW = s.limitW
end

