-- ==== Sys2Proof/Laws/State.lean ====
section
/-!
SUPPORT. What an update of the state leaves: one lemma per field and update, each true by rfl; what each accessor reads
after each update; the fields of a thread after its registers are written.
-/

namespace Sys2Proof.Laws

open Sys2Proof Sys2Proof.Machine

/-! ## updThread -/

section
variable (t : TRef) (f : Thread → Thread) (s : State)

@[simp] theorem updThread_agenda : State.agenda (s.updThread t f) = s.agenda := rfl
@[simp] theorem updThread_turn : State.turn (s.updThread t f) = s.turn := rfl
@[simp] theorem updThread_freeCtr : State.freeCtr (s.updThread t f) = s.freeCtr := rfl
@[simp] theorem updThread_nextId : State.nextId (s.updThread t f) = s.nextId := rfl
@[simp] theorem updThread_ticks : State.ticks (s.updThread t f) = s.ticks := rfl
@[simp] theorem updThread_outbox : State.outbox (s.updThread t f) = s.outbox := rfl
@[simp] theorem updThread_bad : State.bad (s.updThread t f) = s.bad := rfl
@[simp] theorem updThread_hostErrs : State.hostErrs (s.updThread t f) = s.hostErrs := rfl
@[simp] theorem updThread_crews : State.crews (s.updThread t f) = s.crews := rfl
@[simp] theorem updThread_wgs : State.wgs (s.updThread t f) = s.wgs := rfl
@[simp] theorem updThread_launches : State.launches (s.updThread t f) = s.launches := rfl
@[simp] theorem updThread_runs : State.runs (s.updThread t f) = s.runs := rfl
@[simp] theorem updThread_contexts : State.contexts (s.updThread t f) = s.contexts := rfl
@[simp] theorem updThread_gens : State.gens (s.updThread t f) = s.gens := rfl
@[simp] theorem updThread_columns : State.columns (s.updThread t f) = s.columns := rfl
@[simp] theorem updThread_xe : State.xe (s.updThread t f) = s.xe := rfl
@[simp] theorem updThread_smps : State.smps (s.updThread t f) = s.smps := rfl
@[simp] theorem updThread_drawn : State.drawn (s.updThread t f) = s.drawn := rfl
@[simp] theorem updThread_rays : State.rays (s.updThread t f) = s.rays := rfl
@[simp] theorem updThread_hits : State.hits (s.updThread t f) = s.hits := rfl
@[simp] theorem updThread_engs : State.engs (s.updThread t f) = s.engs := rfl
@[simp] theorem updThread_collAcc : State.collAcc (s.updThread t f) = s.collAcc := rfl
@[simp] theorem updThread_mem : State.mem (s.updThread t f) = s.mem := rfl
@[simp] theorem updThread_tbs : State.tbs (s.updThread t f) = s.tbs := rfl
@[simp] theorem updThread_tbDue : State.tbDue (s.updThread t f) = s.tbDue := rfl
@[simp] theorem updThread_tlb : State.tlb (s.updThread t f) = s.tlb := rfl
@[simp] theorem updThread_dcache : State.dcache (s.updThread t f) = s.dcache := rfl
@[simp] theorem updThread_peerLines : State.peerLines (s.updThread t f) = s.peerLines := rfl
@[simp] theorem updThread_lags : State.lags (s.updThread t f) = s.lags := rfl
@[simp] theorem updThread_weak : State.weak (s.updThread t f) = s.weak := rfl
@[simp] theorem updThread_spares : State.spares (s.updThread t f) = s.spares := rfl
@[simp] theorem updThread_keep : State.keep (s.updThread t f) = s.keep := rfl
@[simp] theorem updThread_keepQ : State.keepQ (s.updThread t f) = s.keepQ := rfl
@[simp] theorem updThread_keepDone : State.keepDone (s.updThread t f) = s.keepDone := rfl
@[simp] theorem updThread_pending : State.pending (s.updThread t f) = s.pending := rfl
@[simp] theorem updThread_nextFault : State.nextFault (s.updThread t f) = s.nextFault := rfl
@[simp] theorem updThread_waiting : State.waiting (s.updThread t f) = s.waiting := rfl
@[simp] theorem updThread_fqBase : State.fqBase (s.updThread t f) = s.fqBase := rfl
@[simp] theorem updThread_fqLog2 : State.fqLog2 (s.updThread t f) = s.fqLog2 := rfl
@[simp] theorem updThread_fqTail : State.fqTail (s.updThread t f) = s.fqTail := rfl
@[simp] theorem updThread_fqHead : State.fqHead (s.updThread t f) = s.fqHead := rfl
@[simp] theorem updThread_fqDropped : State.fqDropped (s.updThread t f) = s.fqDropped := rfl
@[simp] theorem updThread_fqBroken : State.fqBroken (s.updThread t f) = s.fqBroken := rfl
@[simp] theorem updThread_pgA : State.pgA (s.updThread t f) = s.pgA := rfl
@[simp] theorem updThread_pgB : State.pgB (s.updThread t f) = s.pgB := rfl
@[simp] theorem updThread_held : State.held (s.updThread t f) = s.held := rfl
@[simp] theorem updThread_timeNs : State.timeNs (s.updThread t f) = s.timeNs := rfl
@[simp] theorem updThread_ptpEnable : State.ptpEnable (s.updThread t f) = s.ptpEnable := rfl
@[simp] theorem updThread_ptpDomain : State.ptpDomain (s.updThread t f) = s.ptpDomain := rfl
@[simp] theorem updThread_ptpSubport : State.ptpSubport (s.updThread t f) = s.ptpSubport := rfl
@[simp] theorem updThread_ptpOffset : State.ptpOffset (s.updThread t f) = s.ptpOffset := rfl
@[simp] theorem updThread_ptpGood : State.ptpGood (s.updThread t f) = s.ptpGood := rfl
@[simp] theorem updThread_phase : State.phase (s.updThread t f) = s.phase := rfl
@[simp] theorem updThread_inputs : State.inputs (s.updThread t f) = s.inputs := rfl
@[simp] theorem updThread_limitW : State.limitW (s.updThread t f) = s.limitW := rfl
@[simp] theorem updThread_powerW : State.powerW (s.updThread t f) = s.powerW := rfl
@[simp] theorem updThread_wattLimit : State.wattLimit (s.updThread t f) = s.wattLimit := rfl
@[simp] theorem updThread_tempLimit : State.tempLimit (s.updThread t f) = s.tempLimit := rfl
@[simp] theorem updThread_tempCut : State.tempCut (s.updThread t f) = s.tempCut := rfl
@[simp] theorem updThread_cardTemp : State.cardTemp (s.updThread t f) = s.cardTemp := rfl
@[simp] theorem updThread_latched : State.latched (s.updThread t f) = s.latched := rfl
@[simp] theorem updThread_pwrTokens : State.pwrTokens (s.updThread t f) = s.pwrTokens := rfl
@[simp] theorem updThread_pwrCost : State.pwrCost (s.updThread t f) = s.pwrCost := rfl
@[simp] theorem updThread_framePeriod : State.framePeriod (s.updThread t f) = s.framePeriod := rfl
@[simp] theorem updThread_periodAt : State.periodAt (s.updThread t f) = s.periodAt := rfl
@[simp] theorem updThread_sems : State.sems (s.updThread t f) = s.sems := rfl
@[simp] theorem updThread_stagedA : State.stagedA (s.updThread t f) = s.stagedA := rfl
@[simp] theorem updThread_stagedB : State.stagedB (s.updThread t f) = s.stagedB := rfl
@[simp] theorem updThread_merged : State.merged (s.updThread t f) = s.merged := rfl
@[simp] theorem updThread_portAUp : State.portAUp (s.updThread t f) = s.portAUp := rfl
@[simp] theorem updThread_portBUp : State.portBUp (s.updThread t f) = s.portBUp := rfl
@[simp] theorem updThread_queues : State.queues (s.updThread t f) = s.queues := rfl
@[simp] theorem updThread_lastServed : State.lastServed (s.updThread t f) = s.lastServed := rfl
@[simp] theorem updThread_programs : State.programs (s.updThread t f) = s.programs := rfl
@[simp] theorem updThread_doneHeld : State.doneHeld (s.updThread t f) = s.doneHeld := rfl
@[simp] theorem updThread_banks : State.banks (s.updThread t f) = s.banks := rfl
@[simp] theorem updThread_activeBank : State.activeBank (s.updThread t f) = s.activeBank := rfl
@[simp] theorem updThread_staged : State.staged (s.updThread t f) = s.staged := rfl
@[simp] theorem updThread_linkImages : State.linkImages (s.updThread t f) = s.linkImages := rfl
@[simp] theorem updThread_linkStaged : State.linkStaged (s.updThread t f) = s.linkStaged := rfl
@[simp] theorem updThread_linkStopped : State.linkStopped (s.updThread t f) = s.linkStopped := rfl
@[simp] theorem updThread_streams : State.streams (s.updThread t f) = s.streams := rfl
@[simp] theorem updThread_ropes : State.ropes (s.updThread t f) = s.ropes := rfl
@[simp] theorem updThread_cardId : State.cardId (s.updThread t f) = s.cardId := rfl
@[simp] theorem updThread_routeLo : State.routeLo (s.updThread t f) = s.routeLo := rfl
@[simp] theorem updThread_routeHi : State.routeHi (s.updThread t f) = s.routeHi := rfl
@[simp] theorem updThread_links : State.links (s.updThread t f) = s.links := rfl
@[simp] theorem updThread_portSplit : State.portSplit (s.updThread t f) = s.portSplit := rfl
@[simp] theorem updThread_collTimeout : State.collTimeout (s.updThread t f) = s.collTimeout := rfl
@[simp] theorem updThread_inwins : State.inwins (s.updThread t f) = s.inwins := rfl
@[simp] theorem updThread_tiles : State.tiles (s.updThread t f) = s.tiles := rfl
@[simp] theorem updThread_colls : State.colls (s.updThread t f) = s.colls := rfl
@[simp] theorem updThread_beats : State.beats (s.updThread t f) = s.beats := rfl
@[simp] theorem updThread_collDone : State.collDone (s.updThread t f) = s.collDone := rfl
@[simp] theorem updThread_dramCe : State.dramCe (s.updThread t f) = s.dramCe := rfl
@[simp] theorem updThread_rindCe : State.rindCe (s.updThread t f) = s.rindCe := rfl
@[simp] theorem updThread_at_crew (i : Nat) : State.crew (s.updThread t f) i = s.crew i := rfl
@[simp] theorem updThread_at_wg (i : Nat) : State.wg (s.updThread t f) i = s.wg i := rfl
@[simp] theorem updThread_at_launch (i : Nat) : State.launch (s.updThread t f) i = s.launch i := rfl
@[simp] theorem updThread_at_col (i : Nat) : State.col (s.updThread t f) i = s.col i := rfl
@[simp] theorem updThread_at_run (j : RunKey) : State.run? (s.updThread t f) j = s.run? j := rfl
@[simp] theorem updThread_at_ctx (i : Nat) : State.ctx? (s.updThread t f) i = s.ctx? i := rfl
@[simp] theorem updThread_at_queue (i : Nat) : State.queue (s.updThread t f) i = s.queue i := rfl

end

/-! ## updCrew -/

section
variable (c : Nat) (f : Crew → Crew) (s : State)

@[simp] theorem updCrew_agenda : State.agenda (s.updCrew c f) = s.agenda := rfl
@[simp] theorem updCrew_turn : State.turn (s.updCrew c f) = s.turn := rfl
@[simp] theorem updCrew_freeCtr : State.freeCtr (s.updCrew c f) = s.freeCtr := rfl
@[simp] theorem updCrew_nextId : State.nextId (s.updCrew c f) = s.nextId := rfl
@[simp] theorem updCrew_ticks : State.ticks (s.updCrew c f) = s.ticks := rfl
@[simp] theorem updCrew_outbox : State.outbox (s.updCrew c f) = s.outbox := rfl
@[simp] theorem updCrew_bad : State.bad (s.updCrew c f) = s.bad := rfl
@[simp] theorem updCrew_hostErrs : State.hostErrs (s.updCrew c f) = s.hostErrs := rfl
@[simp] theorem updCrew_threads : State.threads (s.updCrew c f) = s.threads := rfl
@[simp] theorem updCrew_wgs : State.wgs (s.updCrew c f) = s.wgs := rfl
@[simp] theorem updCrew_launches : State.launches (s.updCrew c f) = s.launches := rfl
@[simp] theorem updCrew_runs : State.runs (s.updCrew c f) = s.runs := rfl
@[simp] theorem updCrew_contexts : State.contexts (s.updCrew c f) = s.contexts := rfl
@[simp] theorem updCrew_gens : State.gens (s.updCrew c f) = s.gens := rfl
@[simp] theorem updCrew_columns : State.columns (s.updCrew c f) = s.columns := rfl
@[simp] theorem updCrew_xe : State.xe (s.updCrew c f) = s.xe := rfl
@[simp] theorem updCrew_smps : State.smps (s.updCrew c f) = s.smps := rfl
@[simp] theorem updCrew_drawn : State.drawn (s.updCrew c f) = s.drawn := rfl
@[simp] theorem updCrew_rays : State.rays (s.updCrew c f) = s.rays := rfl
@[simp] theorem updCrew_hits : State.hits (s.updCrew c f) = s.hits := rfl
@[simp] theorem updCrew_engs : State.engs (s.updCrew c f) = s.engs := rfl
@[simp] theorem updCrew_collAcc : State.collAcc (s.updCrew c f) = s.collAcc := rfl
@[simp] theorem updCrew_mem : State.mem (s.updCrew c f) = s.mem := rfl
@[simp] theorem updCrew_tbs : State.tbs (s.updCrew c f) = s.tbs := rfl
@[simp] theorem updCrew_tbDue : State.tbDue (s.updCrew c f) = s.tbDue := rfl
@[simp] theorem updCrew_tlb : State.tlb (s.updCrew c f) = s.tlb := rfl
@[simp] theorem updCrew_dcache : State.dcache (s.updCrew c f) = s.dcache := rfl
@[simp] theorem updCrew_peerLines : State.peerLines (s.updCrew c f) = s.peerLines := rfl
@[simp] theorem updCrew_lags : State.lags (s.updCrew c f) = s.lags := rfl
@[simp] theorem updCrew_weak : State.weak (s.updCrew c f) = s.weak := rfl
@[simp] theorem updCrew_spares : State.spares (s.updCrew c f) = s.spares := rfl
@[simp] theorem updCrew_keep : State.keep (s.updCrew c f) = s.keep := rfl
@[simp] theorem updCrew_keepQ : State.keepQ (s.updCrew c f) = s.keepQ := rfl
@[simp] theorem updCrew_keepDone : State.keepDone (s.updCrew c f) = s.keepDone := rfl
@[simp] theorem updCrew_pending : State.pending (s.updCrew c f) = s.pending := rfl
@[simp] theorem updCrew_nextFault : State.nextFault (s.updCrew c f) = s.nextFault := rfl
@[simp] theorem updCrew_waiting : State.waiting (s.updCrew c f) = s.waiting := rfl
@[simp] theorem updCrew_fqBase : State.fqBase (s.updCrew c f) = s.fqBase := rfl
@[simp] theorem updCrew_fqLog2 : State.fqLog2 (s.updCrew c f) = s.fqLog2 := rfl
@[simp] theorem updCrew_fqTail : State.fqTail (s.updCrew c f) = s.fqTail := rfl
@[simp] theorem updCrew_fqHead : State.fqHead (s.updCrew c f) = s.fqHead := rfl
@[simp] theorem updCrew_fqDropped : State.fqDropped (s.updCrew c f) = s.fqDropped := rfl
@[simp] theorem updCrew_fqBroken : State.fqBroken (s.updCrew c f) = s.fqBroken := rfl
@[simp] theorem updCrew_pgA : State.pgA (s.updCrew c f) = s.pgA := rfl
@[simp] theorem updCrew_pgB : State.pgB (s.updCrew c f) = s.pgB := rfl
@[simp] theorem updCrew_held : State.held (s.updCrew c f) = s.held := rfl
@[simp] theorem updCrew_timeNs : State.timeNs (s.updCrew c f) = s.timeNs := rfl
@[simp] theorem updCrew_ptpEnable : State.ptpEnable (s.updCrew c f) = s.ptpEnable := rfl
@[simp] theorem updCrew_ptpDomain : State.ptpDomain (s.updCrew c f) = s.ptpDomain := rfl
@[simp] theorem updCrew_ptpSubport : State.ptpSubport (s.updCrew c f) = s.ptpSubport := rfl
@[simp] theorem updCrew_ptpOffset : State.ptpOffset (s.updCrew c f) = s.ptpOffset := rfl
@[simp] theorem updCrew_ptpGood : State.ptpGood (s.updCrew c f) = s.ptpGood := rfl
@[simp] theorem updCrew_phase : State.phase (s.updCrew c f) = s.phase := rfl
@[simp] theorem updCrew_inputs : State.inputs (s.updCrew c f) = s.inputs := rfl
@[simp] theorem updCrew_limitW : State.limitW (s.updCrew c f) = s.limitW := rfl
@[simp] theorem updCrew_powerW : State.powerW (s.updCrew c f) = s.powerW := rfl
@[simp] theorem updCrew_wattLimit : State.wattLimit (s.updCrew c f) = s.wattLimit := rfl
@[simp] theorem updCrew_tempLimit : State.tempLimit (s.updCrew c f) = s.tempLimit := rfl
@[simp] theorem updCrew_tempCut : State.tempCut (s.updCrew c f) = s.tempCut := rfl
@[simp] theorem updCrew_cardTemp : State.cardTemp (s.updCrew c f) = s.cardTemp := rfl
@[simp] theorem updCrew_latched : State.latched (s.updCrew c f) = s.latched := rfl
@[simp] theorem updCrew_pwrTokens : State.pwrTokens (s.updCrew c f) = s.pwrTokens := rfl
@[simp] theorem updCrew_pwrCost : State.pwrCost (s.updCrew c f) = s.pwrCost := rfl
@[simp] theorem updCrew_framePeriod : State.framePeriod (s.updCrew c f) = s.framePeriod := rfl
@[simp] theorem updCrew_periodAt : State.periodAt (s.updCrew c f) = s.periodAt := rfl
@[simp] theorem updCrew_sems : State.sems (s.updCrew c f) = s.sems := rfl
@[simp] theorem updCrew_stagedA : State.stagedA (s.updCrew c f) = s.stagedA := rfl
@[simp] theorem updCrew_stagedB : State.stagedB (s.updCrew c f) = s.stagedB := rfl
@[simp] theorem updCrew_merged : State.merged (s.updCrew c f) = s.merged := rfl
@[simp] theorem updCrew_portAUp : State.portAUp (s.updCrew c f) = s.portAUp := rfl
@[simp] theorem updCrew_portBUp : State.portBUp (s.updCrew c f) = s.portBUp := rfl
@[simp] theorem updCrew_queues : State.queues (s.updCrew c f) = s.queues := rfl
@[simp] theorem updCrew_lastServed : State.lastServed (s.updCrew c f) = s.lastServed := rfl
@[simp] theorem updCrew_programs : State.programs (s.updCrew c f) = s.programs := rfl
@[simp] theorem updCrew_doneHeld : State.doneHeld (s.updCrew c f) = s.doneHeld := rfl
@[simp] theorem updCrew_banks : State.banks (s.updCrew c f) = s.banks := rfl
@[simp] theorem updCrew_activeBank : State.activeBank (s.updCrew c f) = s.activeBank := rfl
@[simp] theorem updCrew_staged : State.staged (s.updCrew c f) = s.staged := rfl
@[simp] theorem updCrew_linkImages : State.linkImages (s.updCrew c f) = s.linkImages := rfl
@[simp] theorem updCrew_linkStaged : State.linkStaged (s.updCrew c f) = s.linkStaged := rfl
@[simp] theorem updCrew_linkStopped : State.linkStopped (s.updCrew c f) = s.linkStopped := rfl
@[simp] theorem updCrew_streams : State.streams (s.updCrew c f) = s.streams := rfl
@[simp] theorem updCrew_ropes : State.ropes (s.updCrew c f) = s.ropes := rfl
@[simp] theorem updCrew_cardId : State.cardId (s.updCrew c f) = s.cardId := rfl
@[simp] theorem updCrew_routeLo : State.routeLo (s.updCrew c f) = s.routeLo := rfl
@[simp] theorem updCrew_routeHi : State.routeHi (s.updCrew c f) = s.routeHi := rfl
@[simp] theorem updCrew_links : State.links (s.updCrew c f) = s.links := rfl
@[simp] theorem updCrew_portSplit : State.portSplit (s.updCrew c f) = s.portSplit := rfl
@[simp] theorem updCrew_collTimeout : State.collTimeout (s.updCrew c f) = s.collTimeout := rfl
@[simp] theorem updCrew_inwins : State.inwins (s.updCrew c f) = s.inwins := rfl
@[simp] theorem updCrew_tiles : State.tiles (s.updCrew c f) = s.tiles := rfl
@[simp] theorem updCrew_colls : State.colls (s.updCrew c f) = s.colls := rfl
@[simp] theorem updCrew_beats : State.beats (s.updCrew c f) = s.beats := rfl
@[simp] theorem updCrew_collDone : State.collDone (s.updCrew c f) = s.collDone := rfl
@[simp] theorem updCrew_dramCe : State.dramCe (s.updCrew c f) = s.dramCe := rfl
@[simp] theorem updCrew_rindCe : State.rindCe (s.updCrew c f) = s.rindCe := rfl
@[simp] theorem updCrew_at_thread (u : TRef) : State.thread (s.updCrew c f) u = s.thread u := rfl
@[simp] theorem updCrew_at_wg (i : Nat) : State.wg (s.updCrew c f) i = s.wg i := rfl
@[simp] theorem updCrew_at_launch (i : Nat) : State.launch (s.updCrew c f) i = s.launch i := rfl
@[simp] theorem updCrew_at_col (i : Nat) : State.col (s.updCrew c f) i = s.col i := rfl
@[simp] theorem updCrew_at_run (j : RunKey) : State.run? (s.updCrew c f) j = s.run? j := rfl
@[simp] theorem updCrew_at_ctx (i : Nat) : State.ctx? (s.updCrew c f) i = s.ctx? i := rfl
@[simp] theorem updCrew_at_queue (i : Nat) : State.queue (s.updCrew c f) i = s.queue i := rfl

end

/-! ## updWg -/

section
variable (w : Nat) (f : Workgroup → Workgroup) (s : State)

@[simp] theorem updWg_agenda : State.agenda (s.updWg w f) = s.agenda := rfl
@[simp] theorem updWg_turn : State.turn (s.updWg w f) = s.turn := rfl
@[simp] theorem updWg_freeCtr : State.freeCtr (s.updWg w f) = s.freeCtr := rfl
@[simp] theorem updWg_nextId : State.nextId (s.updWg w f) = s.nextId := rfl
@[simp] theorem updWg_ticks : State.ticks (s.updWg w f) = s.ticks := rfl
@[simp] theorem updWg_outbox : State.outbox (s.updWg w f) = s.outbox := rfl
@[simp] theorem updWg_bad : State.bad (s.updWg w f) = s.bad := rfl
@[simp] theorem updWg_hostErrs : State.hostErrs (s.updWg w f) = s.hostErrs := rfl
@[simp] theorem updWg_threads : State.threads (s.updWg w f) = s.threads := rfl
@[simp] theorem updWg_crews : State.crews (s.updWg w f) = s.crews := rfl
@[simp] theorem updWg_launches : State.launches (s.updWg w f) = s.launches := rfl
@[simp] theorem updWg_runs : State.runs (s.updWg w f) = s.runs := rfl
@[simp] theorem updWg_contexts : State.contexts (s.updWg w f) = s.contexts := rfl
@[simp] theorem updWg_gens : State.gens (s.updWg w f) = s.gens := rfl
@[simp] theorem updWg_columns : State.columns (s.updWg w f) = s.columns := rfl
@[simp] theorem updWg_xe : State.xe (s.updWg w f) = s.xe := rfl
@[simp] theorem updWg_smps : State.smps (s.updWg w f) = s.smps := rfl
@[simp] theorem updWg_drawn : State.drawn (s.updWg w f) = s.drawn := rfl
@[simp] theorem updWg_rays : State.rays (s.updWg w f) = s.rays := rfl
@[simp] theorem updWg_hits : State.hits (s.updWg w f) = s.hits := rfl
@[simp] theorem updWg_engs : State.engs (s.updWg w f) = s.engs := rfl
@[simp] theorem updWg_collAcc : State.collAcc (s.updWg w f) = s.collAcc := rfl
@[simp] theorem updWg_mem : State.mem (s.updWg w f) = s.mem := rfl
@[simp] theorem updWg_tbs : State.tbs (s.updWg w f) = s.tbs := rfl
@[simp] theorem updWg_tbDue : State.tbDue (s.updWg w f) = s.tbDue := rfl
@[simp] theorem updWg_tlb : State.tlb (s.updWg w f) = s.tlb := rfl
@[simp] theorem updWg_dcache : State.dcache (s.updWg w f) = s.dcache := rfl
@[simp] theorem updWg_peerLines : State.peerLines (s.updWg w f) = s.peerLines := rfl
@[simp] theorem updWg_lags : State.lags (s.updWg w f) = s.lags := rfl
@[simp] theorem updWg_weak : State.weak (s.updWg w f) = s.weak := rfl
@[simp] theorem updWg_spares : State.spares (s.updWg w f) = s.spares := rfl
@[simp] theorem updWg_keep : State.keep (s.updWg w f) = s.keep := rfl
@[simp] theorem updWg_keepQ : State.keepQ (s.updWg w f) = s.keepQ := rfl
@[simp] theorem updWg_keepDone : State.keepDone (s.updWg w f) = s.keepDone := rfl
@[simp] theorem updWg_pending : State.pending (s.updWg w f) = s.pending := rfl
@[simp] theorem updWg_nextFault : State.nextFault (s.updWg w f) = s.nextFault := rfl
@[simp] theorem updWg_waiting : State.waiting (s.updWg w f) = s.waiting := rfl
@[simp] theorem updWg_fqBase : State.fqBase (s.updWg w f) = s.fqBase := rfl
@[simp] theorem updWg_fqLog2 : State.fqLog2 (s.updWg w f) = s.fqLog2 := rfl
@[simp] theorem updWg_fqTail : State.fqTail (s.updWg w f) = s.fqTail := rfl
@[simp] theorem updWg_fqHead : State.fqHead (s.updWg w f) = s.fqHead := rfl
@[simp] theorem updWg_fqDropped : State.fqDropped (s.updWg w f) = s.fqDropped := rfl
@[simp] theorem updWg_fqBroken : State.fqBroken (s.updWg w f) = s.fqBroken := rfl
@[simp] theorem updWg_pgA : State.pgA (s.updWg w f) = s.pgA := rfl
@[simp] theorem updWg_pgB : State.pgB (s.updWg w f) = s.pgB := rfl
@[simp] theorem updWg_held : State.held (s.updWg w f) = s.held := rfl
@[simp] theorem updWg_timeNs : State.timeNs (s.updWg w f) = s.timeNs := rfl
@[simp] theorem updWg_ptpEnable : State.ptpEnable (s.updWg w f) = s.ptpEnable := rfl
@[simp] theorem updWg_ptpDomain : State.ptpDomain (s.updWg w f) = s.ptpDomain := rfl
@[simp] theorem updWg_ptpSubport : State.ptpSubport (s.updWg w f) = s.ptpSubport := rfl
@[simp] theorem updWg_ptpOffset : State.ptpOffset (s.updWg w f) = s.ptpOffset := rfl
@[simp] theorem updWg_ptpGood : State.ptpGood (s.updWg w f) = s.ptpGood := rfl
@[simp] theorem updWg_phase : State.phase (s.updWg w f) = s.phase := rfl
@[simp] theorem updWg_inputs : State.inputs (s.updWg w f) = s.inputs := rfl
@[simp] theorem updWg_limitW : State.limitW (s.updWg w f) = s.limitW := rfl
@[simp] theorem updWg_powerW : State.powerW (s.updWg w f) = s.powerW := rfl
@[simp] theorem updWg_wattLimit : State.wattLimit (s.updWg w f) = s.wattLimit := rfl
@[simp] theorem updWg_tempLimit : State.tempLimit (s.updWg w f) = s.tempLimit := rfl
@[simp] theorem updWg_tempCut : State.tempCut (s.updWg w f) = s.tempCut := rfl
@[simp] theorem updWg_cardTemp : State.cardTemp (s.updWg w f) = s.cardTemp := rfl
@[simp] theorem updWg_latched : State.latched (s.updWg w f) = s.latched := rfl
@[simp] theorem updWg_pwrTokens : State.pwrTokens (s.updWg w f) = s.pwrTokens := rfl
@[simp] theorem updWg_pwrCost : State.pwrCost (s.updWg w f) = s.pwrCost := rfl
@[simp] theorem updWg_framePeriod : State.framePeriod (s.updWg w f) = s.framePeriod := rfl
@[simp] theorem updWg_periodAt : State.periodAt (s.updWg w f) = s.periodAt := rfl
@[simp] theorem updWg_sems : State.sems (s.updWg w f) = s.sems := rfl
@[simp] theorem updWg_stagedA : State.stagedA (s.updWg w f) = s.stagedA := rfl
@[simp] theorem updWg_stagedB : State.stagedB (s.updWg w f) = s.stagedB := rfl
@[simp] theorem updWg_merged : State.merged (s.updWg w f) = s.merged := rfl
@[simp] theorem updWg_portAUp : State.portAUp (s.updWg w f) = s.portAUp := rfl
@[simp] theorem updWg_portBUp : State.portBUp (s.updWg w f) = s.portBUp := rfl
@[simp] theorem updWg_queues : State.queues (s.updWg w f) = s.queues := rfl
@[simp] theorem updWg_lastServed : State.lastServed (s.updWg w f) = s.lastServed := rfl
@[simp] theorem updWg_programs : State.programs (s.updWg w f) = s.programs := rfl
@[simp] theorem updWg_doneHeld : State.doneHeld (s.updWg w f) = s.doneHeld := rfl
@[simp] theorem updWg_banks : State.banks (s.updWg w f) = s.banks := rfl
@[simp] theorem updWg_activeBank : State.activeBank (s.updWg w f) = s.activeBank := rfl
@[simp] theorem updWg_staged : State.staged (s.updWg w f) = s.staged := rfl
@[simp] theorem updWg_linkImages : State.linkImages (s.updWg w f) = s.linkImages := rfl
@[simp] theorem updWg_linkStaged : State.linkStaged (s.updWg w f) = s.linkStaged := rfl
@[simp] theorem updWg_linkStopped : State.linkStopped (s.updWg w f) = s.linkStopped := rfl
@[simp] theorem updWg_streams : State.streams (s.updWg w f) = s.streams := rfl
@[simp] theorem updWg_ropes : State.ropes (s.updWg w f) = s.ropes := rfl
@[simp] theorem updWg_cardId : State.cardId (s.updWg w f) = s.cardId := rfl
@[simp] theorem updWg_routeLo : State.routeLo (s.updWg w f) = s.routeLo := rfl
@[simp] theorem updWg_routeHi : State.routeHi (s.updWg w f) = s.routeHi := rfl
@[simp] theorem updWg_links : State.links (s.updWg w f) = s.links := rfl
@[simp] theorem updWg_portSplit : State.portSplit (s.updWg w f) = s.portSplit := rfl
@[simp] theorem updWg_collTimeout : State.collTimeout (s.updWg w f) = s.collTimeout := rfl
@[simp] theorem updWg_inwins : State.inwins (s.updWg w f) = s.inwins := rfl
@[simp] theorem updWg_tiles : State.tiles (s.updWg w f) = s.tiles := rfl
@[simp] theorem updWg_colls : State.colls (s.updWg w f) = s.colls := rfl
@[simp] theorem updWg_beats : State.beats (s.updWg w f) = s.beats := rfl
@[simp] theorem updWg_collDone : State.collDone (s.updWg w f) = s.collDone := rfl
@[simp] theorem updWg_dramCe : State.dramCe (s.updWg w f) = s.dramCe := rfl
@[simp] theorem updWg_rindCe : State.rindCe (s.updWg w f) = s.rindCe := rfl
@[simp] theorem updWg_at_thread (u : TRef) : State.thread (s.updWg w f) u = s.thread u := rfl
@[simp] theorem updWg_at_crew (i : Nat) : State.crew (s.updWg w f) i = s.crew i := rfl
@[simp] theorem updWg_at_launch (i : Nat) : State.launch (s.updWg w f) i = s.launch i := rfl
@[simp] theorem updWg_at_col (i : Nat) : State.col (s.updWg w f) i = s.col i := rfl
@[simp] theorem updWg_at_run (j : RunKey) : State.run? (s.updWg w f) j = s.run? j := rfl
@[simp] theorem updWg_at_ctx (i : Nat) : State.ctx? (s.updWg w f) i = s.ctx? i := rfl
@[simp] theorem updWg_at_queue (i : Nat) : State.queue (s.updWg w f) i = s.queue i := rfl

end

/-! ## updLaunch -/

section
variable (l : Nat) (f : Launch → Launch) (s : State)

@[simp] theorem updLaunch_agenda : State.agenda (s.updLaunch l f) = s.agenda := rfl
@[simp] theorem updLaunch_turn : State.turn (s.updLaunch l f) = s.turn := rfl
@[simp] theorem updLaunch_freeCtr : State.freeCtr (s.updLaunch l f) = s.freeCtr := rfl
@[simp] theorem updLaunch_nextId : State.nextId (s.updLaunch l f) = s.nextId := rfl
@[simp] theorem updLaunch_ticks : State.ticks (s.updLaunch l f) = s.ticks := rfl
@[simp] theorem updLaunch_outbox : State.outbox (s.updLaunch l f) = s.outbox := rfl
@[simp] theorem updLaunch_bad : State.bad (s.updLaunch l f) = s.bad := rfl
@[simp] theorem updLaunch_hostErrs : State.hostErrs (s.updLaunch l f) = s.hostErrs := rfl
@[simp] theorem updLaunch_threads : State.threads (s.updLaunch l f) = s.threads := rfl
@[simp] theorem updLaunch_crews : State.crews (s.updLaunch l f) = s.crews := rfl
@[simp] theorem updLaunch_wgs : State.wgs (s.updLaunch l f) = s.wgs := rfl
@[simp] theorem updLaunch_runs : State.runs (s.updLaunch l f) = s.runs := rfl
@[simp] theorem updLaunch_contexts : State.contexts (s.updLaunch l f) = s.contexts := rfl
@[simp] theorem updLaunch_gens : State.gens (s.updLaunch l f) = s.gens := rfl
@[simp] theorem updLaunch_columns : State.columns (s.updLaunch l f) = s.columns := rfl
@[simp] theorem updLaunch_xe : State.xe (s.updLaunch l f) = s.xe := rfl
@[simp] theorem updLaunch_smps : State.smps (s.updLaunch l f) = s.smps := rfl
@[simp] theorem updLaunch_drawn : State.drawn (s.updLaunch l f) = s.drawn := rfl
@[simp] theorem updLaunch_rays : State.rays (s.updLaunch l f) = s.rays := rfl
@[simp] theorem updLaunch_hits : State.hits (s.updLaunch l f) = s.hits := rfl
@[simp] theorem updLaunch_engs : State.engs (s.updLaunch l f) = s.engs := rfl
@[simp] theorem updLaunch_collAcc : State.collAcc (s.updLaunch l f) = s.collAcc := rfl
@[simp] theorem updLaunch_mem : State.mem (s.updLaunch l f) = s.mem := rfl
@[simp] theorem updLaunch_tbs : State.tbs (s.updLaunch l f) = s.tbs := rfl
@[simp] theorem updLaunch_tbDue : State.tbDue (s.updLaunch l f) = s.tbDue := rfl
@[simp] theorem updLaunch_tlb : State.tlb (s.updLaunch l f) = s.tlb := rfl
@[simp] theorem updLaunch_dcache : State.dcache (s.updLaunch l f) = s.dcache := rfl
@[simp] theorem updLaunch_peerLines : State.peerLines (s.updLaunch l f) = s.peerLines := rfl
@[simp] theorem updLaunch_lags : State.lags (s.updLaunch l f) = s.lags := rfl
@[simp] theorem updLaunch_weak : State.weak (s.updLaunch l f) = s.weak := rfl
@[simp] theorem updLaunch_spares : State.spares (s.updLaunch l f) = s.spares := rfl
@[simp] theorem updLaunch_keep : State.keep (s.updLaunch l f) = s.keep := rfl
@[simp] theorem updLaunch_keepQ : State.keepQ (s.updLaunch l f) = s.keepQ := rfl
@[simp] theorem updLaunch_keepDone : State.keepDone (s.updLaunch l f) = s.keepDone := rfl
@[simp] theorem updLaunch_pending : State.pending (s.updLaunch l f) = s.pending := rfl
@[simp] theorem updLaunch_nextFault : State.nextFault (s.updLaunch l f) = s.nextFault := rfl
@[simp] theorem updLaunch_waiting : State.waiting (s.updLaunch l f) = s.waiting := rfl
@[simp] theorem updLaunch_fqBase : State.fqBase (s.updLaunch l f) = s.fqBase := rfl
@[simp] theorem updLaunch_fqLog2 : State.fqLog2 (s.updLaunch l f) = s.fqLog2 := rfl
@[simp] theorem updLaunch_fqTail : State.fqTail (s.updLaunch l f) = s.fqTail := rfl
@[simp] theorem updLaunch_fqHead : State.fqHead (s.updLaunch l f) = s.fqHead := rfl
@[simp] theorem updLaunch_fqDropped : State.fqDropped (s.updLaunch l f) = s.fqDropped := rfl
@[simp] theorem updLaunch_fqBroken : State.fqBroken (s.updLaunch l f) = s.fqBroken := rfl
@[simp] theorem updLaunch_pgA : State.pgA (s.updLaunch l f) = s.pgA := rfl
@[simp] theorem updLaunch_pgB : State.pgB (s.updLaunch l f) = s.pgB := rfl
@[simp] theorem updLaunch_held : State.held (s.updLaunch l f) = s.held := rfl
@[simp] theorem updLaunch_timeNs : State.timeNs (s.updLaunch l f) = s.timeNs := rfl
@[simp] theorem updLaunch_ptpEnable : State.ptpEnable (s.updLaunch l f) = s.ptpEnable := rfl
@[simp] theorem updLaunch_ptpDomain : State.ptpDomain (s.updLaunch l f) = s.ptpDomain := rfl
@[simp] theorem updLaunch_ptpSubport : State.ptpSubport (s.updLaunch l f) = s.ptpSubport := rfl
@[simp] theorem updLaunch_ptpOffset : State.ptpOffset (s.updLaunch l f) = s.ptpOffset := rfl
@[simp] theorem updLaunch_ptpGood : State.ptpGood (s.updLaunch l f) = s.ptpGood := rfl
@[simp] theorem updLaunch_phase : State.phase (s.updLaunch l f) = s.phase := rfl
@[simp] theorem updLaunch_inputs : State.inputs (s.updLaunch l f) = s.inputs := rfl
@[simp] theorem updLaunch_limitW : State.limitW (s.updLaunch l f) = s.limitW := rfl
@[simp] theorem updLaunch_powerW : State.powerW (s.updLaunch l f) = s.powerW := rfl
@[simp] theorem updLaunch_wattLimit : State.wattLimit (s.updLaunch l f) = s.wattLimit := rfl
@[simp] theorem updLaunch_tempLimit : State.tempLimit (s.updLaunch l f) = s.tempLimit := rfl
@[simp] theorem updLaunch_tempCut : State.tempCut (s.updLaunch l f) = s.tempCut := rfl
@[simp] theorem updLaunch_cardTemp : State.cardTemp (s.updLaunch l f) = s.cardTemp := rfl
@[simp] theorem updLaunch_latched : State.latched (s.updLaunch l f) = s.latched := rfl
@[simp] theorem updLaunch_pwrTokens : State.pwrTokens (s.updLaunch l f) = s.pwrTokens := rfl
@[simp] theorem updLaunch_pwrCost : State.pwrCost (s.updLaunch l f) = s.pwrCost := rfl
@[simp] theorem updLaunch_framePeriod : State.framePeriod (s.updLaunch l f) = s.framePeriod := rfl
@[simp] theorem updLaunch_periodAt : State.periodAt (s.updLaunch l f) = s.periodAt := rfl
@[simp] theorem updLaunch_sems : State.sems (s.updLaunch l f) = s.sems := rfl
@[simp] theorem updLaunch_stagedA : State.stagedA (s.updLaunch l f) = s.stagedA := rfl
@[simp] theorem updLaunch_stagedB : State.stagedB (s.updLaunch l f) = s.stagedB := rfl
@[simp] theorem updLaunch_merged : State.merged (s.updLaunch l f) = s.merged := rfl
@[simp] theorem updLaunch_portAUp : State.portAUp (s.updLaunch l f) = s.portAUp := rfl
@[simp] theorem updLaunch_portBUp : State.portBUp (s.updLaunch l f) = s.portBUp := rfl
@[simp] theorem updLaunch_queues : State.queues (s.updLaunch l f) = s.queues := rfl
@[simp] theorem updLaunch_lastServed : State.lastServed (s.updLaunch l f) = s.lastServed := rfl
@[simp] theorem updLaunch_programs : State.programs (s.updLaunch l f) = s.programs := rfl
@[simp] theorem updLaunch_doneHeld : State.doneHeld (s.updLaunch l f) = s.doneHeld := rfl
@[simp] theorem updLaunch_banks : State.banks (s.updLaunch l f) = s.banks := rfl
@[simp] theorem updLaunch_activeBank : State.activeBank (s.updLaunch l f) = s.activeBank := rfl
@[simp] theorem updLaunch_staged : State.staged (s.updLaunch l f) = s.staged := rfl
@[simp] theorem updLaunch_linkImages : State.linkImages (s.updLaunch l f) = s.linkImages := rfl
@[simp] theorem updLaunch_linkStaged : State.linkStaged (s.updLaunch l f) = s.linkStaged := rfl
@[simp] theorem updLaunch_linkStopped : State.linkStopped (s.updLaunch l f) = s.linkStopped := rfl
@[simp] theorem updLaunch_streams : State.streams (s.updLaunch l f) = s.streams := rfl
@[simp] theorem updLaunch_ropes : State.ropes (s.updLaunch l f) = s.ropes := rfl
@[simp] theorem updLaunch_cardId : State.cardId (s.updLaunch l f) = s.cardId := rfl
@[simp] theorem updLaunch_routeLo : State.routeLo (s.updLaunch l f) = s.routeLo := rfl
@[simp] theorem updLaunch_routeHi : State.routeHi (s.updLaunch l f) = s.routeHi := rfl
@[simp] theorem updLaunch_links : State.links (s.updLaunch l f) = s.links := rfl
@[simp] theorem updLaunch_portSplit : State.portSplit (s.updLaunch l f) = s.portSplit := rfl
@[simp] theorem updLaunch_collTimeout : State.collTimeout (s.updLaunch l f) = s.collTimeout := rfl
@[simp] theorem updLaunch_inwins : State.inwins (s.updLaunch l f) = s.inwins := rfl
@[simp] theorem updLaunch_tiles : State.tiles (s.updLaunch l f) = s.tiles := rfl
@[simp] theorem updLaunch_colls : State.colls (s.updLaunch l f) = s.colls := rfl
@[simp] theorem updLaunch_beats : State.beats (s.updLaunch l f) = s.beats := rfl
@[simp] theorem updLaunch_collDone : State.collDone (s.updLaunch l f) = s.collDone := rfl
@[simp] theorem updLaunch_dramCe : State.dramCe (s.updLaunch l f) = s.dramCe := rfl
@[simp] theorem updLaunch_rindCe : State.rindCe (s.updLaunch l f) = s.rindCe := rfl
@[simp] theorem updLaunch_at_thread (u : TRef) : State.thread (s.updLaunch l f) u = s.thread u := rfl
@[simp] theorem updLaunch_at_crew (i : Nat) : State.crew (s.updLaunch l f) i = s.crew i := rfl
@[simp] theorem updLaunch_at_wg (i : Nat) : State.wg (s.updLaunch l f) i = s.wg i := rfl
@[simp] theorem updLaunch_at_col (i : Nat) : State.col (s.updLaunch l f) i = s.col i := rfl
@[simp] theorem updLaunch_at_run (j : RunKey) : State.run? (s.updLaunch l f) j = s.run? j := rfl
@[simp] theorem updLaunch_at_ctx (i : Nat) : State.ctx? (s.updLaunch l f) i = s.ctx? i := rfl
@[simp] theorem updLaunch_at_queue (i : Nat) : State.queue (s.updLaunch l f) i = s.queue i := rfl

end

/-! ## updCol -/

section
variable (c : Nat) (f : Column → Column) (s : State)

@[simp] theorem updCol_agenda : State.agenda (s.updCol c f) = s.agenda := rfl
@[simp] theorem updCol_turn : State.turn (s.updCol c f) = s.turn := rfl
@[simp] theorem updCol_freeCtr : State.freeCtr (s.updCol c f) = s.freeCtr := rfl
@[simp] theorem updCol_nextId : State.nextId (s.updCol c f) = s.nextId := rfl
@[simp] theorem updCol_ticks : State.ticks (s.updCol c f) = s.ticks := rfl
@[simp] theorem updCol_outbox : State.outbox (s.updCol c f) = s.outbox := rfl
@[simp] theorem updCol_bad : State.bad (s.updCol c f) = s.bad := rfl
@[simp] theorem updCol_hostErrs : State.hostErrs (s.updCol c f) = s.hostErrs := rfl
@[simp] theorem updCol_threads : State.threads (s.updCol c f) = s.threads := rfl
@[simp] theorem updCol_crews : State.crews (s.updCol c f) = s.crews := rfl
@[simp] theorem updCol_wgs : State.wgs (s.updCol c f) = s.wgs := rfl
@[simp] theorem updCol_launches : State.launches (s.updCol c f) = s.launches := rfl
@[simp] theorem updCol_runs : State.runs (s.updCol c f) = s.runs := rfl
@[simp] theorem updCol_contexts : State.contexts (s.updCol c f) = s.contexts := rfl
@[simp] theorem updCol_gens : State.gens (s.updCol c f) = s.gens := rfl
@[simp] theorem updCol_xe : State.xe (s.updCol c f) = s.xe := rfl
@[simp] theorem updCol_smps : State.smps (s.updCol c f) = s.smps := rfl
@[simp] theorem updCol_drawn : State.drawn (s.updCol c f) = s.drawn := rfl
@[simp] theorem updCol_rays : State.rays (s.updCol c f) = s.rays := rfl
@[simp] theorem updCol_hits : State.hits (s.updCol c f) = s.hits := rfl
@[simp] theorem updCol_engs : State.engs (s.updCol c f) = s.engs := rfl
@[simp] theorem updCol_collAcc : State.collAcc (s.updCol c f) = s.collAcc := rfl
@[simp] theorem updCol_mem : State.mem (s.updCol c f) = s.mem := rfl
@[simp] theorem updCol_tbs : State.tbs (s.updCol c f) = s.tbs := rfl
@[simp] theorem updCol_tbDue : State.tbDue (s.updCol c f) = s.tbDue := rfl
@[simp] theorem updCol_tlb : State.tlb (s.updCol c f) = s.tlb := rfl
@[simp] theorem updCol_dcache : State.dcache (s.updCol c f) = s.dcache := rfl
@[simp] theorem updCol_peerLines : State.peerLines (s.updCol c f) = s.peerLines := rfl
@[simp] theorem updCol_lags : State.lags (s.updCol c f) = s.lags := rfl
@[simp] theorem updCol_weak : State.weak (s.updCol c f) = s.weak := rfl
@[simp] theorem updCol_spares : State.spares (s.updCol c f) = s.spares := rfl
@[simp] theorem updCol_keep : State.keep (s.updCol c f) = s.keep := rfl
@[simp] theorem updCol_keepQ : State.keepQ (s.updCol c f) = s.keepQ := rfl
@[simp] theorem updCol_keepDone : State.keepDone (s.updCol c f) = s.keepDone := rfl
@[simp] theorem updCol_pending : State.pending (s.updCol c f) = s.pending := rfl
@[simp] theorem updCol_nextFault : State.nextFault (s.updCol c f) = s.nextFault := rfl
@[simp] theorem updCol_waiting : State.waiting (s.updCol c f) = s.waiting := rfl
@[simp] theorem updCol_fqBase : State.fqBase (s.updCol c f) = s.fqBase := rfl
@[simp] theorem updCol_fqLog2 : State.fqLog2 (s.updCol c f) = s.fqLog2 := rfl
@[simp] theorem updCol_fqTail : State.fqTail (s.updCol c f) = s.fqTail := rfl
@[simp] theorem updCol_fqHead : State.fqHead (s.updCol c f) = s.fqHead := rfl
@[simp] theorem updCol_fqDropped : State.fqDropped (s.updCol c f) = s.fqDropped := rfl
@[simp] theorem updCol_fqBroken : State.fqBroken (s.updCol c f) = s.fqBroken := rfl
@[simp] theorem updCol_pgA : State.pgA (s.updCol c f) = s.pgA := rfl
@[simp] theorem updCol_pgB : State.pgB (s.updCol c f) = s.pgB := rfl
@[simp] theorem updCol_held : State.held (s.updCol c f) = s.held := rfl
@[simp] theorem updCol_timeNs : State.timeNs (s.updCol c f) = s.timeNs := rfl
@[simp] theorem updCol_ptpEnable : State.ptpEnable (s.updCol c f) = s.ptpEnable := rfl
@[simp] theorem updCol_ptpDomain : State.ptpDomain (s.updCol c f) = s.ptpDomain := rfl
@[simp] theorem updCol_ptpSubport : State.ptpSubport (s.updCol c f) = s.ptpSubport := rfl
@[simp] theorem updCol_ptpOffset : State.ptpOffset (s.updCol c f) = s.ptpOffset := rfl
@[simp] theorem updCol_ptpGood : State.ptpGood (s.updCol c f) = s.ptpGood := rfl
@[simp] theorem updCol_phase : State.phase (s.updCol c f) = s.phase := rfl
@[simp] theorem updCol_inputs : State.inputs (s.updCol c f) = s.inputs := rfl
@[simp] theorem updCol_limitW : State.limitW (s.updCol c f) = s.limitW := rfl
@[simp] theorem updCol_powerW : State.powerW (s.updCol c f) = s.powerW := rfl
@[simp] theorem updCol_wattLimit : State.wattLimit (s.updCol c f) = s.wattLimit := rfl
@[simp] theorem updCol_tempLimit : State.tempLimit (s.updCol c f) = s.tempLimit := rfl
@[simp] theorem updCol_tempCut : State.tempCut (s.updCol c f) = s.tempCut := rfl
@[simp] theorem updCol_cardTemp : State.cardTemp (s.updCol c f) = s.cardTemp := rfl
@[simp] theorem updCol_latched : State.latched (s.updCol c f) = s.latched := rfl
@[simp] theorem updCol_pwrTokens : State.pwrTokens (s.updCol c f) = s.pwrTokens := rfl
@[simp] theorem updCol_pwrCost : State.pwrCost (s.updCol c f) = s.pwrCost := rfl
@[simp] theorem updCol_framePeriod : State.framePeriod (s.updCol c f) = s.framePeriod := rfl
@[simp] theorem updCol_periodAt : State.periodAt (s.updCol c f) = s.periodAt := rfl
@[simp] theorem updCol_sems : State.sems (s.updCol c f) = s.sems := rfl
@[simp] theorem updCol_stagedA : State.stagedA (s.updCol c f) = s.stagedA := rfl
@[simp] theorem updCol_stagedB : State.stagedB (s.updCol c f) = s.stagedB := rfl
@[simp] theorem updCol_merged : State.merged (s.updCol c f) = s.merged := rfl
@[simp] theorem updCol_portAUp : State.portAUp (s.updCol c f) = s.portAUp := rfl
@[simp] theorem updCol_portBUp : State.portBUp (s.updCol c f) = s.portBUp := rfl
@[simp] theorem updCol_queues : State.queues (s.updCol c f) = s.queues := rfl
@[simp] theorem updCol_lastServed : State.lastServed (s.updCol c f) = s.lastServed := rfl
@[simp] theorem updCol_programs : State.programs (s.updCol c f) = s.programs := rfl
@[simp] theorem updCol_doneHeld : State.doneHeld (s.updCol c f) = s.doneHeld := rfl
@[simp] theorem updCol_banks : State.banks (s.updCol c f) = s.banks := rfl
@[simp] theorem updCol_activeBank : State.activeBank (s.updCol c f) = s.activeBank := rfl
@[simp] theorem updCol_staged : State.staged (s.updCol c f) = s.staged := rfl
@[simp] theorem updCol_linkImages : State.linkImages (s.updCol c f) = s.linkImages := rfl
@[simp] theorem updCol_linkStaged : State.linkStaged (s.updCol c f) = s.linkStaged := rfl
@[simp] theorem updCol_linkStopped : State.linkStopped (s.updCol c f) = s.linkStopped := rfl
@[simp] theorem updCol_streams : State.streams (s.updCol c f) = s.streams := rfl
@[simp] theorem updCol_ropes : State.ropes (s.updCol c f) = s.ropes := rfl
@[simp] theorem updCol_cardId : State.cardId (s.updCol c f) = s.cardId := rfl
@[simp] theorem updCol_routeLo : State.routeLo (s.updCol c f) = s.routeLo := rfl
@[simp] theorem updCol_routeHi : State.routeHi (s.updCol c f) = s.routeHi := rfl
@[simp] theorem updCol_links : State.links (s.updCol c f) = s.links := rfl
@[simp] theorem updCol_portSplit : State.portSplit (s.updCol c f) = s.portSplit := rfl
@[simp] theorem updCol_collTimeout : State.collTimeout (s.updCol c f) = s.collTimeout := rfl
@[simp] theorem updCol_inwins : State.inwins (s.updCol c f) = s.inwins := rfl
@[simp] theorem updCol_tiles : State.tiles (s.updCol c f) = s.tiles := rfl
@[simp] theorem updCol_colls : State.colls (s.updCol c f) = s.colls := rfl
@[simp] theorem updCol_beats : State.beats (s.updCol c f) = s.beats := rfl
@[simp] theorem updCol_collDone : State.collDone (s.updCol c f) = s.collDone := rfl
@[simp] theorem updCol_dramCe : State.dramCe (s.updCol c f) = s.dramCe := rfl
@[simp] theorem updCol_rindCe : State.rindCe (s.updCol c f) = s.rindCe := rfl
@[simp] theorem updCol_at_thread (u : TRef) : State.thread (s.updCol c f) u = s.thread u := rfl
@[simp] theorem updCol_at_crew (i : Nat) : State.crew (s.updCol c f) i = s.crew i := rfl
@[simp] theorem updCol_at_wg (i : Nat) : State.wg (s.updCol c f) i = s.wg i := rfl
@[simp] theorem updCol_at_launch (i : Nat) : State.launch (s.updCol c f) i = s.launch i := rfl
@[simp] theorem updCol_at_run (j : RunKey) : State.run? (s.updCol c f) j = s.run? j := rfl
@[simp] theorem updCol_at_ctx (i : Nat) : State.ctx? (s.updCol c f) i = s.ctx? i := rfl
@[simp] theorem updCol_at_queue (i : Nat) : State.queue (s.updCol c f) i = s.queue i := rfl

end

/-! ## updRun -/

section
variable (k : RunKey) (f : Run → Run) (s : State)

@[simp] theorem updRun_agenda : State.agenda (s.updRun k f) = s.agenda := rfl
@[simp] theorem updRun_turn : State.turn (s.updRun k f) = s.turn := rfl
@[simp] theorem updRun_freeCtr : State.freeCtr (s.updRun k f) = s.freeCtr := rfl
@[simp] theorem updRun_nextId : State.nextId (s.updRun k f) = s.nextId := rfl
@[simp] theorem updRun_ticks : State.ticks (s.updRun k f) = s.ticks := rfl
@[simp] theorem updRun_outbox : State.outbox (s.updRun k f) = s.outbox := rfl
@[simp] theorem updRun_bad : State.bad (s.updRun k f) = s.bad := rfl
@[simp] theorem updRun_hostErrs : State.hostErrs (s.updRun k f) = s.hostErrs := rfl
@[simp] theorem updRun_threads : State.threads (s.updRun k f) = s.threads := rfl
@[simp] theorem updRun_crews : State.crews (s.updRun k f) = s.crews := rfl
@[simp] theorem updRun_wgs : State.wgs (s.updRun k f) = s.wgs := rfl
@[simp] theorem updRun_launches : State.launches (s.updRun k f) = s.launches := rfl
@[simp] theorem updRun_contexts : State.contexts (s.updRun k f) = s.contexts := rfl
@[simp] theorem updRun_gens : State.gens (s.updRun k f) = s.gens := rfl
@[simp] theorem updRun_columns : State.columns (s.updRun k f) = s.columns := rfl
@[simp] theorem updRun_xe : State.xe (s.updRun k f) = s.xe := rfl
@[simp] theorem updRun_smps : State.smps (s.updRun k f) = s.smps := rfl
@[simp] theorem updRun_drawn : State.drawn (s.updRun k f) = s.drawn := rfl
@[simp] theorem updRun_rays : State.rays (s.updRun k f) = s.rays := rfl
@[simp] theorem updRun_hits : State.hits (s.updRun k f) = s.hits := rfl
@[simp] theorem updRun_engs : State.engs (s.updRun k f) = s.engs := rfl
@[simp] theorem updRun_collAcc : State.collAcc (s.updRun k f) = s.collAcc := rfl
@[simp] theorem updRun_mem : State.mem (s.updRun k f) = s.mem := rfl
@[simp] theorem updRun_tbs : State.tbs (s.updRun k f) = s.tbs := rfl
@[simp] theorem updRun_tbDue : State.tbDue (s.updRun k f) = s.tbDue := rfl
@[simp] theorem updRun_tlb : State.tlb (s.updRun k f) = s.tlb := rfl
@[simp] theorem updRun_dcache : State.dcache (s.updRun k f) = s.dcache := rfl
@[simp] theorem updRun_peerLines : State.peerLines (s.updRun k f) = s.peerLines := rfl
@[simp] theorem updRun_lags : State.lags (s.updRun k f) = s.lags := rfl
@[simp] theorem updRun_weak : State.weak (s.updRun k f) = s.weak := rfl
@[simp] theorem updRun_spares : State.spares (s.updRun k f) = s.spares := rfl
@[simp] theorem updRun_keep : State.keep (s.updRun k f) = s.keep := rfl
@[simp] theorem updRun_keepQ : State.keepQ (s.updRun k f) = s.keepQ := rfl
@[simp] theorem updRun_keepDone : State.keepDone (s.updRun k f) = s.keepDone := rfl
@[simp] theorem updRun_pending : State.pending (s.updRun k f) = s.pending := rfl
@[simp] theorem updRun_nextFault : State.nextFault (s.updRun k f) = s.nextFault := rfl
@[simp] theorem updRun_waiting : State.waiting (s.updRun k f) = s.waiting := rfl
@[simp] theorem updRun_fqBase : State.fqBase (s.updRun k f) = s.fqBase := rfl
@[simp] theorem updRun_fqLog2 : State.fqLog2 (s.updRun k f) = s.fqLog2 := rfl
@[simp] theorem updRun_fqTail : State.fqTail (s.updRun k f) = s.fqTail := rfl
@[simp] theorem updRun_fqHead : State.fqHead (s.updRun k f) = s.fqHead := rfl
@[simp] theorem updRun_fqDropped : State.fqDropped (s.updRun k f) = s.fqDropped := rfl
@[simp] theorem updRun_fqBroken : State.fqBroken (s.updRun k f) = s.fqBroken := rfl
@[simp] theorem updRun_pgA : State.pgA (s.updRun k f) = s.pgA := rfl
@[simp] theorem updRun_pgB : State.pgB (s.updRun k f) = s.pgB := rfl
@[simp] theorem updRun_held : State.held (s.updRun k f) = s.held := rfl
@[simp] theorem updRun_timeNs : State.timeNs (s.updRun k f) = s.timeNs := rfl
@[simp] theorem updRun_ptpEnable : State.ptpEnable (s.updRun k f) = s.ptpEnable := rfl
@[simp] theorem updRun_ptpDomain : State.ptpDomain (s.updRun k f) = s.ptpDomain := rfl
@[simp] theorem updRun_ptpSubport : State.ptpSubport (s.updRun k f) = s.ptpSubport := rfl
@[simp] theorem updRun_ptpOffset : State.ptpOffset (s.updRun k f) = s.ptpOffset := rfl
@[simp] theorem updRun_ptpGood : State.ptpGood (s.updRun k f) = s.ptpGood := rfl
@[simp] theorem updRun_phase : State.phase (s.updRun k f) = s.phase := rfl
@[simp] theorem updRun_inputs : State.inputs (s.updRun k f) = s.inputs := rfl
@[simp] theorem updRun_limitW : State.limitW (s.updRun k f) = s.limitW := rfl
@[simp] theorem updRun_powerW : State.powerW (s.updRun k f) = s.powerW := rfl
@[simp] theorem updRun_wattLimit : State.wattLimit (s.updRun k f) = s.wattLimit := rfl
@[simp] theorem updRun_tempLimit : State.tempLimit (s.updRun k f) = s.tempLimit := rfl
@[simp] theorem updRun_tempCut : State.tempCut (s.updRun k f) = s.tempCut := rfl
@[simp] theorem updRun_cardTemp : State.cardTemp (s.updRun k f) = s.cardTemp := rfl
@[simp] theorem updRun_latched : State.latched (s.updRun k f) = s.latched := rfl
@[simp] theorem updRun_pwrTokens : State.pwrTokens (s.updRun k f) = s.pwrTokens := rfl
@[simp] theorem updRun_pwrCost : State.pwrCost (s.updRun k f) = s.pwrCost := rfl
@[simp] theorem updRun_framePeriod : State.framePeriod (s.updRun k f) = s.framePeriod := rfl
@[simp] theorem updRun_periodAt : State.periodAt (s.updRun k f) = s.periodAt := rfl
@[simp] theorem updRun_sems : State.sems (s.updRun k f) = s.sems := rfl
@[simp] theorem updRun_stagedA : State.stagedA (s.updRun k f) = s.stagedA := rfl
@[simp] theorem updRun_stagedB : State.stagedB (s.updRun k f) = s.stagedB := rfl
@[simp] theorem updRun_merged : State.merged (s.updRun k f) = s.merged := rfl
@[simp] theorem updRun_portAUp : State.portAUp (s.updRun k f) = s.portAUp := rfl
@[simp] theorem updRun_portBUp : State.portBUp (s.updRun k f) = s.portBUp := rfl
@[simp] theorem updRun_queues : State.queues (s.updRun k f) = s.queues := rfl
@[simp] theorem updRun_lastServed : State.lastServed (s.updRun k f) = s.lastServed := rfl
@[simp] theorem updRun_programs : State.programs (s.updRun k f) = s.programs := rfl
@[simp] theorem updRun_doneHeld : State.doneHeld (s.updRun k f) = s.doneHeld := rfl
@[simp] theorem updRun_banks : State.banks (s.updRun k f) = s.banks := rfl
@[simp] theorem updRun_activeBank : State.activeBank (s.updRun k f) = s.activeBank := rfl
@[simp] theorem updRun_staged : State.staged (s.updRun k f) = s.staged := rfl
@[simp] theorem updRun_linkImages : State.linkImages (s.updRun k f) = s.linkImages := rfl
@[simp] theorem updRun_linkStaged : State.linkStaged (s.updRun k f) = s.linkStaged := rfl
@[simp] theorem updRun_linkStopped : State.linkStopped (s.updRun k f) = s.linkStopped := rfl
@[simp] theorem updRun_streams : State.streams (s.updRun k f) = s.streams := rfl
@[simp] theorem updRun_ropes : State.ropes (s.updRun k f) = s.ropes := rfl
@[simp] theorem updRun_cardId : State.cardId (s.updRun k f) = s.cardId := rfl
@[simp] theorem updRun_routeLo : State.routeLo (s.updRun k f) = s.routeLo := rfl
@[simp] theorem updRun_routeHi : State.routeHi (s.updRun k f) = s.routeHi := rfl
@[simp] theorem updRun_links : State.links (s.updRun k f) = s.links := rfl
@[simp] theorem updRun_portSplit : State.portSplit (s.updRun k f) = s.portSplit := rfl
@[simp] theorem updRun_collTimeout : State.collTimeout (s.updRun k f) = s.collTimeout := rfl
@[simp] theorem updRun_inwins : State.inwins (s.updRun k f) = s.inwins := rfl
@[simp] theorem updRun_tiles : State.tiles (s.updRun k f) = s.tiles := rfl
@[simp] theorem updRun_colls : State.colls (s.updRun k f) = s.colls := rfl
@[simp] theorem updRun_beats : State.beats (s.updRun k f) = s.beats := rfl
@[simp] theorem updRun_collDone : State.collDone (s.updRun k f) = s.collDone := rfl
@[simp] theorem updRun_dramCe : State.dramCe (s.updRun k f) = s.dramCe := rfl
@[simp] theorem updRun_rindCe : State.rindCe (s.updRun k f) = s.rindCe := rfl
@[simp] theorem updRun_at_thread (u : TRef) : State.thread (s.updRun k f) u = s.thread u := rfl
@[simp] theorem updRun_at_crew (i : Nat) : State.crew (s.updRun k f) i = s.crew i := rfl
@[simp] theorem updRun_at_wg (i : Nat) : State.wg (s.updRun k f) i = s.wg i := rfl
@[simp] theorem updRun_at_launch (i : Nat) : State.launch (s.updRun k f) i = s.launch i := rfl
@[simp] theorem updRun_at_col (i : Nat) : State.col (s.updRun k f) i = s.col i := rfl
@[simp] theorem updRun_at_ctx (i : Nat) : State.ctx? (s.updRun k f) i = s.ctx? i := rfl
@[simp] theorem updRun_at_queue (i : Nat) : State.queue (s.updRun k f) i = s.queue i := rfl

end

/-! ## updCtx -/

section
variable (n : Nat) (f : Context → Context) (s : State)

@[simp] theorem updCtx_agenda : State.agenda (s.updCtx n f) = s.agenda := rfl
@[simp] theorem updCtx_turn : State.turn (s.updCtx n f) = s.turn := rfl
@[simp] theorem updCtx_freeCtr : State.freeCtr (s.updCtx n f) = s.freeCtr := rfl
@[simp] theorem updCtx_nextId : State.nextId (s.updCtx n f) = s.nextId := rfl
@[simp] theorem updCtx_ticks : State.ticks (s.updCtx n f) = s.ticks := rfl
@[simp] theorem updCtx_outbox : State.outbox (s.updCtx n f) = s.outbox := rfl
@[simp] theorem updCtx_bad : State.bad (s.updCtx n f) = s.bad := rfl
@[simp] theorem updCtx_hostErrs : State.hostErrs (s.updCtx n f) = s.hostErrs := rfl
@[simp] theorem updCtx_threads : State.threads (s.updCtx n f) = s.threads := rfl
@[simp] theorem updCtx_crews : State.crews (s.updCtx n f) = s.crews := rfl
@[simp] theorem updCtx_wgs : State.wgs (s.updCtx n f) = s.wgs := rfl
@[simp] theorem updCtx_launches : State.launches (s.updCtx n f) = s.launches := rfl
@[simp] theorem updCtx_runs : State.runs (s.updCtx n f) = s.runs := rfl
@[simp] theorem updCtx_gens : State.gens (s.updCtx n f) = s.gens := rfl
@[simp] theorem updCtx_columns : State.columns (s.updCtx n f) = s.columns := rfl
@[simp] theorem updCtx_xe : State.xe (s.updCtx n f) = s.xe := rfl
@[simp] theorem updCtx_smps : State.smps (s.updCtx n f) = s.smps := rfl
@[simp] theorem updCtx_drawn : State.drawn (s.updCtx n f) = s.drawn := rfl
@[simp] theorem updCtx_rays : State.rays (s.updCtx n f) = s.rays := rfl
@[simp] theorem updCtx_hits : State.hits (s.updCtx n f) = s.hits := rfl
@[simp] theorem updCtx_engs : State.engs (s.updCtx n f) = s.engs := rfl
@[simp] theorem updCtx_collAcc : State.collAcc (s.updCtx n f) = s.collAcc := rfl
@[simp] theorem updCtx_mem : State.mem (s.updCtx n f) = s.mem := rfl
@[simp] theorem updCtx_tbs : State.tbs (s.updCtx n f) = s.tbs := rfl
@[simp] theorem updCtx_tbDue : State.tbDue (s.updCtx n f) = s.tbDue := rfl
@[simp] theorem updCtx_tlb : State.tlb (s.updCtx n f) = s.tlb := rfl
@[simp] theorem updCtx_dcache : State.dcache (s.updCtx n f) = s.dcache := rfl
@[simp] theorem updCtx_peerLines : State.peerLines (s.updCtx n f) = s.peerLines := rfl
@[simp] theorem updCtx_lags : State.lags (s.updCtx n f) = s.lags := rfl
@[simp] theorem updCtx_weak : State.weak (s.updCtx n f) = s.weak := rfl
@[simp] theorem updCtx_spares : State.spares (s.updCtx n f) = s.spares := rfl
@[simp] theorem updCtx_keep : State.keep (s.updCtx n f) = s.keep := rfl
@[simp] theorem updCtx_keepQ : State.keepQ (s.updCtx n f) = s.keepQ := rfl
@[simp] theorem updCtx_keepDone : State.keepDone (s.updCtx n f) = s.keepDone := rfl
@[simp] theorem updCtx_pending : State.pending (s.updCtx n f) = s.pending := rfl
@[simp] theorem updCtx_nextFault : State.nextFault (s.updCtx n f) = s.nextFault := rfl
@[simp] theorem updCtx_waiting : State.waiting (s.updCtx n f) = s.waiting := rfl
@[simp] theorem updCtx_fqBase : State.fqBase (s.updCtx n f) = s.fqBase := rfl
@[simp] theorem updCtx_fqLog2 : State.fqLog2 (s.updCtx n f) = s.fqLog2 := rfl
@[simp] theorem updCtx_fqTail : State.fqTail (s.updCtx n f) = s.fqTail := rfl
@[simp] theorem updCtx_fqHead : State.fqHead (s.updCtx n f) = s.fqHead := rfl
@[simp] theorem updCtx_fqDropped : State.fqDropped (s.updCtx n f) = s.fqDropped := rfl
@[simp] theorem updCtx_fqBroken : State.fqBroken (s.updCtx n f) = s.fqBroken := rfl
@[simp] theorem updCtx_pgA : State.pgA (s.updCtx n f) = s.pgA := rfl
@[simp] theorem updCtx_pgB : State.pgB (s.updCtx n f) = s.pgB := rfl
@[simp] theorem updCtx_held : State.held (s.updCtx n f) = s.held := rfl
@[simp] theorem updCtx_timeNs : State.timeNs (s.updCtx n f) = s.timeNs := rfl
@[simp] theorem updCtx_ptpEnable : State.ptpEnable (s.updCtx n f) = s.ptpEnable := rfl
@[simp] theorem updCtx_ptpDomain : State.ptpDomain (s.updCtx n f) = s.ptpDomain := rfl
@[simp] theorem updCtx_ptpSubport : State.ptpSubport (s.updCtx n f) = s.ptpSubport := rfl
@[simp] theorem updCtx_ptpOffset : State.ptpOffset (s.updCtx n f) = s.ptpOffset := rfl
@[simp] theorem updCtx_ptpGood : State.ptpGood (s.updCtx n f) = s.ptpGood := rfl
@[simp] theorem updCtx_phase : State.phase (s.updCtx n f) = s.phase := rfl
@[simp] theorem updCtx_inputs : State.inputs (s.updCtx n f) = s.inputs := rfl
@[simp] theorem updCtx_limitW : State.limitW (s.updCtx n f) = s.limitW := rfl
@[simp] theorem updCtx_powerW : State.powerW (s.updCtx n f) = s.powerW := rfl
@[simp] theorem updCtx_wattLimit : State.wattLimit (s.updCtx n f) = s.wattLimit := rfl
@[simp] theorem updCtx_tempLimit : State.tempLimit (s.updCtx n f) = s.tempLimit := rfl
@[simp] theorem updCtx_tempCut : State.tempCut (s.updCtx n f) = s.tempCut := rfl
@[simp] theorem updCtx_cardTemp : State.cardTemp (s.updCtx n f) = s.cardTemp := rfl
@[simp] theorem updCtx_latched : State.latched (s.updCtx n f) = s.latched := rfl
@[simp] theorem updCtx_pwrTokens : State.pwrTokens (s.updCtx n f) = s.pwrTokens := rfl
@[simp] theorem updCtx_pwrCost : State.pwrCost (s.updCtx n f) = s.pwrCost := rfl
@[simp] theorem updCtx_framePeriod : State.framePeriod (s.updCtx n f) = s.framePeriod := rfl
@[simp] theorem updCtx_periodAt : State.periodAt (s.updCtx n f) = s.periodAt := rfl
@[simp] theorem updCtx_sems : State.sems (s.updCtx n f) = s.sems := rfl
@[simp] theorem updCtx_stagedA : State.stagedA (s.updCtx n f) = s.stagedA := rfl
@[simp] theorem updCtx_stagedB : State.stagedB (s.updCtx n f) = s.stagedB := rfl
@[simp] theorem updCtx_merged : State.merged (s.updCtx n f) = s.merged := rfl
@[simp] theorem updCtx_portAUp : State.portAUp (s.updCtx n f) = s.portAUp := rfl
@[simp] theorem updCtx_portBUp : State.portBUp (s.updCtx n f) = s.portBUp := rfl
@[simp] theorem updCtx_queues : State.queues (s.updCtx n f) = s.queues := rfl
@[simp] theorem updCtx_lastServed : State.lastServed (s.updCtx n f) = s.lastServed := rfl
@[simp] theorem updCtx_programs : State.programs (s.updCtx n f) = s.programs := rfl
@[simp] theorem updCtx_doneHeld : State.doneHeld (s.updCtx n f) = s.doneHeld := rfl
@[simp] theorem updCtx_banks : State.banks (s.updCtx n f) = s.banks := rfl
@[simp] theorem updCtx_activeBank : State.activeBank (s.updCtx n f) = s.activeBank := rfl
@[simp] theorem updCtx_staged : State.staged (s.updCtx n f) = s.staged := rfl
@[simp] theorem updCtx_linkImages : State.linkImages (s.updCtx n f) = s.linkImages := rfl
@[simp] theorem updCtx_linkStaged : State.linkStaged (s.updCtx n f) = s.linkStaged := rfl
@[simp] theorem updCtx_linkStopped : State.linkStopped (s.updCtx n f) = s.linkStopped := rfl
@[simp] theorem updCtx_streams : State.streams (s.updCtx n f) = s.streams := rfl
@[simp] theorem updCtx_ropes : State.ropes (s.updCtx n f) = s.ropes := rfl
@[simp] theorem updCtx_cardId : State.cardId (s.updCtx n f) = s.cardId := rfl
@[simp] theorem updCtx_routeLo : State.routeLo (s.updCtx n f) = s.routeLo := rfl
@[simp] theorem updCtx_routeHi : State.routeHi (s.updCtx n f) = s.routeHi := rfl
@[simp] theorem updCtx_links : State.links (s.updCtx n f) = s.links := rfl
@[simp] theorem updCtx_portSplit : State.portSplit (s.updCtx n f) = s.portSplit := rfl
@[simp] theorem updCtx_collTimeout : State.collTimeout (s.updCtx n f) = s.collTimeout := rfl
@[simp] theorem updCtx_inwins : State.inwins (s.updCtx n f) = s.inwins := rfl
@[simp] theorem updCtx_tiles : State.tiles (s.updCtx n f) = s.tiles := rfl
@[simp] theorem updCtx_colls : State.colls (s.updCtx n f) = s.colls := rfl
@[simp] theorem updCtx_beats : State.beats (s.updCtx n f) = s.beats := rfl
@[simp] theorem updCtx_collDone : State.collDone (s.updCtx n f) = s.collDone := rfl
@[simp] theorem updCtx_dramCe : State.dramCe (s.updCtx n f) = s.dramCe := rfl
@[simp] theorem updCtx_rindCe : State.rindCe (s.updCtx n f) = s.rindCe := rfl
@[simp] theorem updCtx_at_thread (u : TRef) : State.thread (s.updCtx n f) u = s.thread u := rfl
@[simp] theorem updCtx_at_crew (i : Nat) : State.crew (s.updCtx n f) i = s.crew i := rfl
@[simp] theorem updCtx_at_wg (i : Nat) : State.wg (s.updCtx n f) i = s.wg i := rfl
@[simp] theorem updCtx_at_launch (i : Nat) : State.launch (s.updCtx n f) i = s.launch i := rfl
@[simp] theorem updCtx_at_col (i : Nat) : State.col (s.updCtx n f) i = s.col i := rfl
@[simp] theorem updCtx_at_run (j : RunKey) : State.run? (s.updCtx n f) j = s.run? j := rfl
@[simp] theorem updCtx_at_queue (i : Nat) : State.queue (s.updCtx n f) i = s.queue i := rfl

end

/-! ## updQueue -/

section
variable (q : Nat) (f : Queue → Queue) (s : State)

@[simp] theorem updQueue_agenda : State.agenda (s.updQueue q f) = s.agenda := rfl
@[simp] theorem updQueue_turn : State.turn (s.updQueue q f) = s.turn := rfl
@[simp] theorem updQueue_freeCtr : State.freeCtr (s.updQueue q f) = s.freeCtr := rfl
@[simp] theorem updQueue_nextId : State.nextId (s.updQueue q f) = s.nextId := rfl
@[simp] theorem updQueue_ticks : State.ticks (s.updQueue q f) = s.ticks := rfl
@[simp] theorem updQueue_outbox : State.outbox (s.updQueue q f) = s.outbox := rfl
@[simp] theorem updQueue_bad : State.bad (s.updQueue q f) = s.bad := rfl
@[simp] theorem updQueue_hostErrs : State.hostErrs (s.updQueue q f) = s.hostErrs := rfl
@[simp] theorem updQueue_threads : State.threads (s.updQueue q f) = s.threads := rfl
@[simp] theorem updQueue_crews : State.crews (s.updQueue q f) = s.crews := rfl
@[simp] theorem updQueue_wgs : State.wgs (s.updQueue q f) = s.wgs := rfl
@[simp] theorem updQueue_launches : State.launches (s.updQueue q f) = s.launches := rfl
@[simp] theorem updQueue_runs : State.runs (s.updQueue q f) = s.runs := rfl
@[simp] theorem updQueue_contexts : State.contexts (s.updQueue q f) = s.contexts := rfl
@[simp] theorem updQueue_gens : State.gens (s.updQueue q f) = s.gens := rfl
@[simp] theorem updQueue_columns : State.columns (s.updQueue q f) = s.columns := rfl
@[simp] theorem updQueue_xe : State.xe (s.updQueue q f) = s.xe := rfl
@[simp] theorem updQueue_smps : State.smps (s.updQueue q f) = s.smps := rfl
@[simp] theorem updQueue_drawn : State.drawn (s.updQueue q f) = s.drawn := rfl
@[simp] theorem updQueue_rays : State.rays (s.updQueue q f) = s.rays := rfl
@[simp] theorem updQueue_hits : State.hits (s.updQueue q f) = s.hits := rfl
@[simp] theorem updQueue_engs : State.engs (s.updQueue q f) = s.engs := rfl
@[simp] theorem updQueue_collAcc : State.collAcc (s.updQueue q f) = s.collAcc := rfl
@[simp] theorem updQueue_mem : State.mem (s.updQueue q f) = s.mem := rfl
@[simp] theorem updQueue_tbs : State.tbs (s.updQueue q f) = s.tbs := rfl
@[simp] theorem updQueue_tbDue : State.tbDue (s.updQueue q f) = s.tbDue := rfl
@[simp] theorem updQueue_tlb : State.tlb (s.updQueue q f) = s.tlb := rfl
@[simp] theorem updQueue_dcache : State.dcache (s.updQueue q f) = s.dcache := rfl
@[simp] theorem updQueue_peerLines : State.peerLines (s.updQueue q f) = s.peerLines := rfl
@[simp] theorem updQueue_lags : State.lags (s.updQueue q f) = s.lags := rfl
@[simp] theorem updQueue_weak : State.weak (s.updQueue q f) = s.weak := rfl
@[simp] theorem updQueue_spares : State.spares (s.updQueue q f) = s.spares := rfl
@[simp] theorem updQueue_keep : State.keep (s.updQueue q f) = s.keep := rfl
@[simp] theorem updQueue_keepQ : State.keepQ (s.updQueue q f) = s.keepQ := rfl
@[simp] theorem updQueue_keepDone : State.keepDone (s.updQueue q f) = s.keepDone := rfl
@[simp] theorem updQueue_pending : State.pending (s.updQueue q f) = s.pending := rfl
@[simp] theorem updQueue_nextFault : State.nextFault (s.updQueue q f) = s.nextFault := rfl
@[simp] theorem updQueue_waiting : State.waiting (s.updQueue q f) = s.waiting := rfl
@[simp] theorem updQueue_fqBase : State.fqBase (s.updQueue q f) = s.fqBase := rfl
@[simp] theorem updQueue_fqLog2 : State.fqLog2 (s.updQueue q f) = s.fqLog2 := rfl
@[simp] theorem updQueue_fqTail : State.fqTail (s.updQueue q f) = s.fqTail := rfl
@[simp] theorem updQueue_fqHead : State.fqHead (s.updQueue q f) = s.fqHead := rfl
@[simp] theorem updQueue_fqDropped : State.fqDropped (s.updQueue q f) = s.fqDropped := rfl
@[simp] theorem updQueue_fqBroken : State.fqBroken (s.updQueue q f) = s.fqBroken := rfl
@[simp] theorem updQueue_pgA : State.pgA (s.updQueue q f) = s.pgA := rfl
@[simp] theorem updQueue_pgB : State.pgB (s.updQueue q f) = s.pgB := rfl
@[simp] theorem updQueue_held : State.held (s.updQueue q f) = s.held := rfl
@[simp] theorem updQueue_timeNs : State.timeNs (s.updQueue q f) = s.timeNs := rfl
@[simp] theorem updQueue_ptpEnable : State.ptpEnable (s.updQueue q f) = s.ptpEnable := rfl
@[simp] theorem updQueue_ptpDomain : State.ptpDomain (s.updQueue q f) = s.ptpDomain := rfl
@[simp] theorem updQueue_ptpSubport : State.ptpSubport (s.updQueue q f) = s.ptpSubport := rfl
@[simp] theorem updQueue_ptpOffset : State.ptpOffset (s.updQueue q f) = s.ptpOffset := rfl
@[simp] theorem updQueue_ptpGood : State.ptpGood (s.updQueue q f) = s.ptpGood := rfl
@[simp] theorem updQueue_phase : State.phase (s.updQueue q f) = s.phase := rfl
@[simp] theorem updQueue_inputs : State.inputs (s.updQueue q f) = s.inputs := rfl
@[simp] theorem updQueue_limitW : State.limitW (s.updQueue q f) = s.limitW := rfl
@[simp] theorem updQueue_powerW : State.powerW (s.updQueue q f) = s.powerW := rfl
@[simp] theorem updQueue_wattLimit : State.wattLimit (s.updQueue q f) = s.wattLimit := rfl
@[simp] theorem updQueue_tempLimit : State.tempLimit (s.updQueue q f) = s.tempLimit := rfl
@[simp] theorem updQueue_tempCut : State.tempCut (s.updQueue q f) = s.tempCut := rfl
@[simp] theorem updQueue_cardTemp : State.cardTemp (s.updQueue q f) = s.cardTemp := rfl
@[simp] theorem updQueue_latched : State.latched (s.updQueue q f) = s.latched := rfl
@[simp] theorem updQueue_pwrTokens : State.pwrTokens (s.updQueue q f) = s.pwrTokens := rfl
@[simp] theorem updQueue_pwrCost : State.pwrCost (s.updQueue q f) = s.pwrCost := rfl
@[simp] theorem updQueue_framePeriod : State.framePeriod (s.updQueue q f) = s.framePeriod := rfl
@[simp] theorem updQueue_periodAt : State.periodAt (s.updQueue q f) = s.periodAt := rfl
@[simp] theorem updQueue_sems : State.sems (s.updQueue q f) = s.sems := rfl
@[simp] theorem updQueue_stagedA : State.stagedA (s.updQueue q f) = s.stagedA := rfl
@[simp] theorem updQueue_stagedB : State.stagedB (s.updQueue q f) = s.stagedB := rfl
@[simp] theorem updQueue_merged : State.merged (s.updQueue q f) = s.merged := rfl
@[simp] theorem updQueue_portAUp : State.portAUp (s.updQueue q f) = s.portAUp := rfl
@[simp] theorem updQueue_portBUp : State.portBUp (s.updQueue q f) = s.portBUp := rfl
@[simp] theorem updQueue_lastServed : State.lastServed (s.updQueue q f) = s.lastServed := rfl
@[simp] theorem updQueue_programs : State.programs (s.updQueue q f) = s.programs := rfl
@[simp] theorem updQueue_doneHeld : State.doneHeld (s.updQueue q f) = s.doneHeld := rfl
@[simp] theorem updQueue_banks : State.banks (s.updQueue q f) = s.banks := rfl
@[simp] theorem updQueue_activeBank : State.activeBank (s.updQueue q f) = s.activeBank := rfl
@[simp] theorem updQueue_staged : State.staged (s.updQueue q f) = s.staged := rfl
@[simp] theorem updQueue_linkImages : State.linkImages (s.updQueue q f) = s.linkImages := rfl
@[simp] theorem updQueue_linkStaged : State.linkStaged (s.updQueue q f) = s.linkStaged := rfl
@[simp] theorem updQueue_linkStopped : State.linkStopped (s.updQueue q f) = s.linkStopped := rfl
@[simp] theorem updQueue_streams : State.streams (s.updQueue q f) = s.streams := rfl
@[simp] theorem updQueue_ropes : State.ropes (s.updQueue q f) = s.ropes := rfl
@[simp] theorem updQueue_cardId : State.cardId (s.updQueue q f) = s.cardId := rfl
@[simp] theorem updQueue_routeLo : State.routeLo (s.updQueue q f) = s.routeLo := rfl
@[simp] theorem updQueue_routeHi : State.routeHi (s.updQueue q f) = s.routeHi := rfl
@[simp] theorem updQueue_links : State.links (s.updQueue q f) = s.links := rfl
@[simp] theorem updQueue_portSplit : State.portSplit (s.updQueue q f) = s.portSplit := rfl
@[simp] theorem updQueue_collTimeout : State.collTimeout (s.updQueue q f) = s.collTimeout := rfl
@[simp] theorem updQueue_inwins : State.inwins (s.updQueue q f) = s.inwins := rfl
@[simp] theorem updQueue_tiles : State.tiles (s.updQueue q f) = s.tiles := rfl
@[simp] theorem updQueue_colls : State.colls (s.updQueue q f) = s.colls := rfl
@[simp] theorem updQueue_beats : State.beats (s.updQueue q f) = s.beats := rfl
@[simp] theorem updQueue_collDone : State.collDone (s.updQueue q f) = s.collDone := rfl
@[simp] theorem updQueue_dramCe : State.dramCe (s.updQueue q f) = s.dramCe := rfl
@[simp] theorem updQueue_rindCe : State.rindCe (s.updQueue q f) = s.rindCe := rfl
@[simp] theorem updQueue_at_thread (u : TRef) : State.thread (s.updQueue q f) u = s.thread u := rfl
@[simp] theorem updQueue_at_crew (i : Nat) : State.crew (s.updQueue q f) i = s.crew i := rfl
@[simp] theorem updQueue_at_wg (i : Nat) : State.wg (s.updQueue q f) i = s.wg i := rfl
@[simp] theorem updQueue_at_launch (i : Nat) : State.launch (s.updQueue q f) i = s.launch i := rfl
@[simp] theorem updQueue_at_col (i : Nat) : State.col (s.updQueue q f) i = s.col i := rfl
@[simp] theorem updQueue_at_run (j : RunKey) : State.run? (s.updQueue q f) j = s.run? j := rfl
@[simp] theorem updQueue_at_ctx (i : Nat) : State.ctx? (s.updQueue q f) i = s.ctx? i := rfl

end

/-! ## The fields of a thread after a register, a pair, a predicate or a latch is written -/

section
variable (n : Nat) (w : Word) (t : Thread)

@[simp] theorem setReg_cid : Thread.cid (t.setReg n w) = t.cid := rfl
@[simp] theorem setReg_tid : Thread.tid (t.setReg n w) = t.tid := rfl
@[simp] theorem setReg_helper : Thread.helper (t.setReg n w) = t.helper := rfl
@[simp] theorem setReg_exited : Thread.exited (t.setReg n w) = t.exited := rfl
@[simp] theorem setReg_allot : Thread.allot (t.setReg n w) = t.allot := rfl
@[simp] theorem setReg_p : Thread.p (t.setReg n w) = t.p := rfl
@[simp] theorem setReg_b : Thread.b (t.setReg n w) = t.b := rfl
@[simp] theorem setReg_q : Thread.q (t.setReg n w) = t.q := rfl
@[simp] theorem setReg_pc : Thread.pc (t.setReg n w) = t.pc := rfl
@[simp] theorem setReg_jump : Thread.jump (t.setReg n w) = t.jump := rfl
@[simp] theorem setReg_regionPc : Thread.regionPc (t.setReg n w) = t.regionPc := rfl
@[simp] theorem setReg_trapPc : Thread.trapPc (t.setReg n w) = t.trapPc := rfl
@[simp] theorem setReg_trapCause : Thread.trapCause (t.setReg n w) = t.trapCause := rfl
@[simp] theorem setReg_trapAddr : Thread.trapAddr (t.setReg n w) = t.trapAddr := rfl
@[simp] theorem setReg_trapData : Thread.trapData (t.setReg n w) = t.trapData := rfl
@[simp] theorem setReg_trapLevel : Thread.trapLevel (t.setReg n w) = t.trapLevel := rfl
@[simp] theorem setReg_stochCount : Thread.stochCount (t.setReg n w) = t.stochCount := rfl
@[simp] theorem setReg_reorderKey : Thread.reorderKey (t.setReg n w) = t.reorderKey := rfl
@[simp] theorem setReg_pend : Thread.pend (t.setReg n w) = t.pend := rfl
@[simp] theorem setReg_raised : Thread.raised (t.setReg n w) = t.raised := rfl
@[simp] theorem setReg_boundary : Thread.boundary (t.setReg n w) = t.boundary := rfl
@[simp] theorem setReg_wait : Thread.wait (t.setReg n w) = t.wait := rfl
@[simp] theorem setReg_refaultCnt : Thread.refaultCnt (t.setReg n w) = t.refaultCnt := rfl
@[simp] theorem setReg_refaultUnit : Thread.refaultUnit (t.setReg n w) = t.refaultUnit := rfl
@[simp] theorem setReg_packet : Thread.packet (t.setReg n w) = t.packet := rfl
@[simp] theorem setReg_qin : Thread.qin (t.setReg n w) = t.qin := rfl
@[simp] theorem setReg_qout : Thread.qout (t.setReg n w) = t.qout := rfl
@[simp] theorem setReg_entering : Thread.entering (t.setReg n w) = t.entering := rfl
@[simp] theorem setReg_cands : Thread.cands (t.setReg n w) = t.cands := rfl
@[simp] theorem setReg_since : Thread.since (t.setReg n w) = t.since := rfl
@[simp] theorem setReg_lands : Thread.lands (t.setReg n w) = t.lands := rfl
@[simp] theorem setReg_keepEpoch : Thread.keepEpoch (t.setReg n w) = t.keepEpoch := rfl
@[simp] theorem setReg_sealing : Thread.sealing (t.setReg n w) = t.sealing := rfl

end

section
variable (n : Nat) (x : DWord) (t : Thread)

@[simp] theorem setPair_cid : Thread.cid (t.setPair n x) = t.cid := rfl
@[simp] theorem setPair_tid : Thread.tid (t.setPair n x) = t.tid := rfl
@[simp] theorem setPair_helper : Thread.helper (t.setPair n x) = t.helper := rfl
@[simp] theorem setPair_exited : Thread.exited (t.setPair n x) = t.exited := rfl
@[simp] theorem setPair_allot : Thread.allot (t.setPair n x) = t.allot := rfl
@[simp] theorem setPair_p : Thread.p (t.setPair n x) = t.p := rfl
@[simp] theorem setPair_b : Thread.b (t.setPair n x) = t.b := rfl
@[simp] theorem setPair_q : Thread.q (t.setPair n x) = t.q := rfl
@[simp] theorem setPair_pc : Thread.pc (t.setPair n x) = t.pc := rfl
@[simp] theorem setPair_jump : Thread.jump (t.setPair n x) = t.jump := rfl
@[simp] theorem setPair_regionPc : Thread.regionPc (t.setPair n x) = t.regionPc := rfl
@[simp] theorem setPair_trapPc : Thread.trapPc (t.setPair n x) = t.trapPc := rfl
@[simp] theorem setPair_trapCause : Thread.trapCause (t.setPair n x) = t.trapCause := rfl
@[simp] theorem setPair_trapAddr : Thread.trapAddr (t.setPair n x) = t.trapAddr := rfl
@[simp] theorem setPair_trapData : Thread.trapData (t.setPair n x) = t.trapData := rfl
@[simp] theorem setPair_trapLevel : Thread.trapLevel (t.setPair n x) = t.trapLevel := rfl
@[simp] theorem setPair_stochCount : Thread.stochCount (t.setPair n x) = t.stochCount := rfl
@[simp] theorem setPair_reorderKey : Thread.reorderKey (t.setPair n x) = t.reorderKey := rfl
@[simp] theorem setPair_pend : Thread.pend (t.setPair n x) = t.pend := rfl
@[simp] theorem setPair_raised : Thread.raised (t.setPair n x) = t.raised := rfl
@[simp] theorem setPair_boundary : Thread.boundary (t.setPair n x) = t.boundary := rfl
@[simp] theorem setPair_wait : Thread.wait (t.setPair n x) = t.wait := rfl
@[simp] theorem setPair_refaultCnt : Thread.refaultCnt (t.setPair n x) = t.refaultCnt := rfl
@[simp] theorem setPair_refaultUnit : Thread.refaultUnit (t.setPair n x) = t.refaultUnit := rfl
@[simp] theorem setPair_packet : Thread.packet (t.setPair n x) = t.packet := rfl
@[simp] theorem setPair_qin : Thread.qin (t.setPair n x) = t.qin := rfl
@[simp] theorem setPair_qout : Thread.qout (t.setPair n x) = t.qout := rfl
@[simp] theorem setPair_entering : Thread.entering (t.setPair n x) = t.entering := rfl
@[simp] theorem setPair_cands : Thread.cands (t.setPair n x) = t.cands := rfl
@[simp] theorem setPair_since : Thread.since (t.setPair n x) = t.since := rfl
@[simp] theorem setPair_lands : Thread.lands (t.setPair n x) = t.lands := rfl
@[simp] theorem setPair_keepEpoch : Thread.keepEpoch (t.setPair n x) = t.keepEpoch := rfl
@[simp] theorem setPair_sealing : Thread.sealing (t.setPair n x) = t.sealing := rfl

end

section
variable (n : BitVec 3) (x : Bool) (t : Thread)

@[simp] theorem setPred_cid : Thread.cid (t.setPred n x) = t.cid := by unfold Thread.setPred; split <;> rfl
@[simp] theorem setPred_tid : Thread.tid (t.setPred n x) = t.tid := by unfold Thread.setPred; split <;> rfl
@[simp] theorem setPred_helper : Thread.helper (t.setPred n x) = t.helper := by unfold Thread.setPred; split <;> rfl
@[simp] theorem setPred_exited : Thread.exited (t.setPred n x) = t.exited := by unfold Thread.setPred; split <;> rfl
@[simp] theorem setPred_allot : Thread.allot (t.setPred n x) = t.allot := by unfold Thread.setPred; split <;> rfl
@[simp] theorem setPred_v : Thread.v (t.setPred n x) = t.v := by unfold Thread.setPred; split <;> rfl
@[simp] theorem setPred_b : Thread.b (t.setPred n x) = t.b := by unfold Thread.setPred; split <;> rfl
@[simp] theorem setPred_q : Thread.q (t.setPred n x) = t.q := by unfold Thread.setPred; split <;> rfl
@[simp] theorem setPred_pc : Thread.pc (t.setPred n x) = t.pc := by unfold Thread.setPred; split <;> rfl
@[simp] theorem setPred_jump : Thread.jump (t.setPred n x) = t.jump := by unfold Thread.setPred; split <;> rfl
@[simp] theorem setPred_regionPc : Thread.regionPc (t.setPred n x) = t.regionPc := by unfold Thread.setPred; split <;> rfl
@[simp] theorem setPred_trapPc : Thread.trapPc (t.setPred n x) = t.trapPc := by unfold Thread.setPred; split <;> rfl
@[simp] theorem setPred_trapCause : Thread.trapCause (t.setPred n x) = t.trapCause := by unfold Thread.setPred; split <;> rfl
@[simp] theorem setPred_trapAddr : Thread.trapAddr (t.setPred n x) = t.trapAddr := by unfold Thread.setPred; split <;> rfl
@[simp] theorem setPred_trapData : Thread.trapData (t.setPred n x) = t.trapData := by unfold Thread.setPred; split <;> rfl
@[simp] theorem setPred_trapLevel : Thread.trapLevel (t.setPred n x) = t.trapLevel := by unfold Thread.setPred; split <;> rfl
@[simp] theorem setPred_stochCount : Thread.stochCount (t.setPred n x) = t.stochCount := by unfold Thread.setPred; split <;> rfl
@[simp] theorem setPred_reorderKey : Thread.reorderKey (t.setPred n x) = t.reorderKey := by unfold Thread.setPred; split <;> rfl
@[simp] theorem setPred_pend : Thread.pend (t.setPred n x) = t.pend := by unfold Thread.setPred; split <;> rfl
@[simp] theorem setPred_raised : Thread.raised (t.setPred n x) = t.raised := by unfold Thread.setPred; split <;> rfl
@[simp] theorem setPred_boundary : Thread.boundary (t.setPred n x) = t.boundary := by unfold Thread.setPred; split <;> rfl
@[simp] theorem setPred_wait : Thread.wait (t.setPred n x) = t.wait := by unfold Thread.setPred; split <;> rfl
@[simp] theorem setPred_refaultCnt : Thread.refaultCnt (t.setPred n x) = t.refaultCnt := by unfold Thread.setPred; split <;> rfl
@[simp] theorem setPred_refaultUnit : Thread.refaultUnit (t.setPred n x) = t.refaultUnit := by unfold Thread.setPred; split <;> rfl
@[simp] theorem setPred_packet : Thread.packet (t.setPred n x) = t.packet := by unfold Thread.setPred; split <;> rfl
@[simp] theorem setPred_qin : Thread.qin (t.setPred n x) = t.qin := by unfold Thread.setPred; split <;> rfl
@[simp] theorem setPred_qout : Thread.qout (t.setPred n x) = t.qout := by unfold Thread.setPred; split <;> rfl
@[simp] theorem setPred_entering : Thread.entering (t.setPred n x) = t.entering := by unfold Thread.setPred; split <;> rfl
@[simp] theorem setPred_cands : Thread.cands (t.setPred n x) = t.cands := by unfold Thread.setPred; split <;> rfl
@[simp] theorem setPred_since : Thread.since (t.setPred n x) = t.since := by unfold Thread.setPred; split <;> rfl
@[simp] theorem setPred_lands : Thread.lands (t.setPred n x) = t.lands := by unfold Thread.setPred; split <;> rfl
@[simp] theorem setPred_keepEpoch : Thread.keepEpoch (t.setPred n x) = t.keepEpoch := by unfold Thread.setPred; split <;> rfl
@[simp] theorem setPred_sealing : Thread.sealing (t.setPred n x) = t.sealing := by unfold Thread.setPred; split <;> rfl

end

section
variable (n : Nat) (l : Latch) (t : Thread)

@[simp] theorem setLatch_cid : Thread.cid (t.setLatch n l) = t.cid := rfl
@[simp] theorem setLatch_tid : Thread.tid (t.setLatch n l) = t.tid := rfl
@[simp] theorem setLatch_helper : Thread.helper (t.setLatch n l) = t.helper := rfl
@[simp] theorem setLatch_exited : Thread.exited (t.setLatch n l) = t.exited := rfl
@[simp] theorem setLatch_allot : Thread.allot (t.setLatch n l) = t.allot := rfl
@[simp] theorem setLatch_v : Thread.v (t.setLatch n l) = t.v := rfl
@[simp] theorem setLatch_p : Thread.p (t.setLatch n l) = t.p := rfl
@[simp] theorem setLatch_q : Thread.q (t.setLatch n l) = t.q := rfl
@[simp] theorem setLatch_pc : Thread.pc (t.setLatch n l) = t.pc := rfl
@[simp] theorem setLatch_jump : Thread.jump (t.setLatch n l) = t.jump := rfl
@[simp] theorem setLatch_regionPc : Thread.regionPc (t.setLatch n l) = t.regionPc := rfl
@[simp] theorem setLatch_trapPc : Thread.trapPc (t.setLatch n l) = t.trapPc := rfl
@[simp] theorem setLatch_trapCause : Thread.trapCause (t.setLatch n l) = t.trapCause := rfl
@[simp] theorem setLatch_trapAddr : Thread.trapAddr (t.setLatch n l) = t.trapAddr := rfl
@[simp] theorem setLatch_trapData : Thread.trapData (t.setLatch n l) = t.trapData := rfl
@[simp] theorem setLatch_trapLevel : Thread.trapLevel (t.setLatch n l) = t.trapLevel := rfl
@[simp] theorem setLatch_stochCount : Thread.stochCount (t.setLatch n l) = t.stochCount := rfl
@[simp] theorem setLatch_reorderKey : Thread.reorderKey (t.setLatch n l) = t.reorderKey := rfl
@[simp] theorem setLatch_pend : Thread.pend (t.setLatch n l) = t.pend := rfl
@[simp] theorem setLatch_raised : Thread.raised (t.setLatch n l) = t.raised := rfl
@[simp] theorem setLatch_boundary : Thread.boundary (t.setLatch n l) = t.boundary := rfl
@[simp] theorem setLatch_wait : Thread.wait (t.setLatch n l) = t.wait := rfl
@[simp] theorem setLatch_refaultCnt : Thread.refaultCnt (t.setLatch n l) = t.refaultCnt := rfl
@[simp] theorem setLatch_refaultUnit : Thread.refaultUnit (t.setLatch n l) = t.refaultUnit := rfl
@[simp] theorem setLatch_packet : Thread.packet (t.setLatch n l) = t.packet := rfl
@[simp] theorem setLatch_qin : Thread.qin (t.setLatch n l) = t.qin := rfl
@[simp] theorem setLatch_qout : Thread.qout (t.setLatch n l) = t.qout := rfl
@[simp] theorem setLatch_entering : Thread.entering (t.setLatch n l) = t.entering := rfl
@[simp] theorem setLatch_cands : Thread.cands (t.setLatch n l) = t.cands := rfl
@[simp] theorem setLatch_since : Thread.since (t.setLatch n l) = t.since := rfl
@[simp] theorem setLatch_lands : Thread.lands (t.setLatch n l) = t.lands := rfl
@[simp] theorem setLatch_keepEpoch : Thread.keepEpoch (t.setLatch n l) = t.keepEpoch := rfl
@[simp] theorem setLatch_sealing : Thread.sealing (t.setLatch n l) = t.sealing := rfl

end

/-! ## An accessor after its own update -/

/-- A list searched by key finds the element of that key after an update that leaves every key as it is. -/
theorem find_update {α β : Type} [BEq β] (key : α → β) (j : β) (g : α → α) (hg : ∀ x, key (g x) = key x) (l : List α) :
    (l.map g).find? (key · == j) = (l.find? (key · == j)).map g := by
  rw [List.find?_map]
  congr 2
  exact funext fun x => congrArg (· == j) (hg x)
/-- An element updated under a condition keeps its key if the update does. -/
theorem key_ite {α β : Type} (key : α → β) (p : α → Bool) (f : α → α) (hf : ∀ x, key (f x) = key x) (x : α) :
    key (if p x then f x else x) = key x := (apply_ite key _ _ _).trans (by rw [hf, ite_self])

theorem col_updCol (s : State) (c : Nat) (f : Column → Column) (h : c < 96) : (s.updCol c f).col c = f (s.col c) := by
  simp [State.updCol, State.col, h]
theorem col_updCol_ne (s : State) (c d : Nat) (f : Column → Column) (h : c ≠ d) : (s.updCol c f).col d = s.col d := by
  simp [State.updCol, State.col, h]
theorem queue_updQueue (s : State) (q : Nat) (f : Queue → Queue) (h : q < 256) :
    (s.updQueue q f).queue q = f (s.queue q) := by
  simp [State.updQueue, State.queue, h]
theorem queue_updQueue_ne (s : State) (q p : Nat) (f : Queue → Queue) (h : q ≠ p) : (s.updQueue q f).queue p = s.queue p := by
  simp [State.updQueue, State.queue, h]
theorem crew_updCrew (s : State) (c : Nat) (f : Crew → Crew) (hf : ∀ x, (f x).cid = x.cid)
    (h : ∃ x ∈ s.crews, x.cid = c) : (s.updCrew c f).crew c = f (s.crew c) := by
  obtain ⟨y, hy⟩ := Option.isSome_iff_exists.mp (List.find?_isSome.mpr (by simpa using h) :
    (s.crews.find? (·.cid == c)).isSome)
  have e := List.find?_some hy
  simp only [State.updCrew, State.crew, find_update Crew.cid c _ (key_ite Crew.cid _ f hf), hy, Option.map_some,
    Option.getD_some, if_pos e]
theorem wg_updWg (s : State) (w : Nat) (f : Workgroup → Workgroup) (hf : ∀ x, (f x).wid = x.wid)
    (h : ∃ x ∈ s.wgs, x.wid = w) : (s.updWg w f).wg w = f (s.wg w) := by
  obtain ⟨y, hy⟩ := Option.isSome_iff_exists.mp (List.find?_isSome.mpr (by simpa using h) :
    (s.wgs.find? (·.wid == w)).isSome)
  have e := List.find?_some hy
  simp only [State.updWg, State.wg, find_update Workgroup.wid w _ (key_ite Workgroup.wid _ f hf), hy, Option.map_some,
    Option.getD_some, if_pos e]
theorem launch_updLaunch (s : State) (l : Nat) (f : Launch → Launch) (hf : ∀ x, (f x).lid = x.lid)
    (h : ∃ x ∈ s.launches, x.lid = l) : (s.updLaunch l f).launch l = f (s.launch l) := by
  obtain ⟨y, hy⟩ := Option.isSome_iff_exists.mp (List.find?_isSome.mpr (by simpa using h) :
    (s.launches.find? (·.lid == l)).isSome)
  have e := List.find?_some hy
  simp only [State.updLaunch, State.launch, find_update Launch.lid l _ (key_ite Launch.lid _ f hf), hy, Option.map_some,
    Option.getD_some, if_pos e]
theorem run_updRun (s : State) (k : RunKey) (f : Run → Run) (hf : ∀ x, (f x).key = x.key) (j : RunKey) :
    (s.updRun k f).run? j = (s.run? j).map fun r => if r.key == k then f r else r :=
  find_update Run.key j _ (key_ite Run.key _ f hf) s.runs

end Sys2Proof.Laws
end

