-- ==== Sys2Proof/Laws/Memory.lean ====
section
/-!
SUPPORT. The memory: what a read after a write gives, and that every memory operation keeps the canonical form.
-/

namespace Sys2Proof.Laws

open Sys2Proof Sys2Proof.Machine Sys2Proof.Safety

/-! ## The canonical form -/

/-- The bound of a canonical memory may be lowered. -/
theorem sorted_mono {m : List Host.Cell} {a b : Nat} (h : memSorted b m = true) (le : a ≤ b) : memSorted a m = true := by
  cases m <;> grind [memSorted]
/-- A key below the bound is not listed. -/
theorem get_below {m : List Host.Cell} {a k : Nat} (h : memSorted a m = true) (lt : k < a) : memGet m k = memDefault := by
  induction m generalizing a <;> grind [memSorted, memGet]
/-- A byte written at or above the bound keeps the form. -/
theorem sorted_memSet {m : List Host.Cell} {lo : Nat} (k : Nat) (b : Byte) (h : memSorted lo m = true) (le : lo ≤ k) :
    memSorted lo (memSet m k b) = true := by
  induction m generalizing lo <;> grind [memSorted, memSet, sorted_mono]
/-- Bytes cleared keep the form. -/
theorem sorted_filter {m : List Host.Cell} {lo : Nat} (p : Host.Cell → Bool) (h : memSorted lo m = true) :
    memSorted lo (m.filter p) = true := by
  induction m generalizing lo <;> grind [memSorted, sorted_mono]
/-- A byte written keeps the canonical form. -/
theorem wf_memSet {m : List Host.Cell} (k : Nat) (b : Byte) (h : Memory.wf m = true) : Memory.wf (memSet m k b) = true :=
  sorted_memSet k b h k.zero_le
/-- Bytes written keep the canonical form. -/
theorem wf_memSetBytes {m : List Host.Cell} (k : Nat) (bs : List Byte) (h : Memory.wf m = true) :
    Memory.wf (memSetBytes m k bs) = true := by
  induction bs generalizing m k <;> grind [memSetBytes, wf_memSet]
/-- A sector written back keeps the canonical form. -/
theorem wf_writeBack {m : List Host.Cell} (x : StashSector) (h : Memory.wf m = true) : Memory.wf (writeBack m x) = true := by
  grind [writeBack, wf_memSetBytes]
/-- Sectors written back keep the canonical form. -/
theorem wf_writeBacks (xs : List StashSector) {m : List Host.Cell} (h : Memory.wf m = true) :
    Memory.wf (xs.foldl writeBack m) = true :=
  List.foldlRecOn (motive := fun m => Memory.wf m = true) xs writeBack h fun _ ok x _ => wf_writeBack x ok
/-- Cells written one by one keep the canonical form. -/
theorem wf_cells (xs : List Host.Cell) {m : List Host.Cell} (h : Memory.wf m = true) :
    Memory.wf (xs.foldl (fun m p => memSet m p.1 p.2) m) = true :=
  List.foldlRecOn (motive := fun m => Memory.wf m = true) xs _ h fun _ ok x _ => wf_memSet x.1 x.2 ok
/-- Bytes cleared keep the canonical form. -/
theorem wf_filter {m : List Host.Cell} (p : Host.Cell → Bool) (h : Memory.wf m = true) : Memory.wf (m.filter p) = true :=
  sorted_filter p h

/-! ## Reads after writes -/

/-- A read gives what was written at its key, and what stood there otherwise. -/
theorem get_set {m : List Host.Cell} {lo : Nat} (h : memSorted lo m = true) (k j : Nat) (b : Byte) :
    memGet (memSet m k b) j = if j = k then b else memGet m j := by
  induction m generalizing lo <;> grind [memSorted, memSet, memGet, get_below]
/-- Reads of a canonical memory after a byte is written. -/
theorem get_memSet {m : List Host.Cell} (h : Memory.wf m = true) (k j : Nat) (b : Byte) :
    memGet (memSet m k b) j = if j = k then b else memGet m j := get_set h k j b
/-- Reads of a canonical memory after bytes are written. -/
theorem get_memSetBytes {m : List Host.Cell} (h : Memory.wf m = true) (k j : Nat) (bs : List Byte) :
    memGet (memSetBytes m k bs) j = if k ≤ j ∧ j < k + bs.length then bs.getD (j - k) 0 else memGet m j := by
  induction bs generalizing m k with
  | nil => grind [memSetBytes]
  | cons b bs ih =>
    rw [memSetBytes, ih (wf_memSet k b h), get_memSet h, List.length_cons]
    obtain rfl | ne := eq_or_ne j k
    · simp
    · have : k < j → (b :: bs).getD (j - k) 0 = bs.getD (j - (k + 1)) 0 := fun lt => by
        rw [show j - k = j - (k + 1) + 1 by omega, List.getD_cons_succ]
      grind

/-! ## The operations of the state -/

/-- The memories of a state are canonical if they are those of a canonical one. -/
theorem ok_of {s t : State} (h : MemoryOk s) (hm : t.mem = s.mem) (hk : t.keep = s.keep) : MemoryOk t := by
  rw [MemoryOk, hm, hk]; exact h
/-- What changes a canonical state step by step into canonical ones gives one. -/
theorem ok_fold {α : Type} (xs : List α) (f : State → α → State) {s : State} (h : MemoryOk s)
    (hf : ∀ t x, MemoryOk t → MemoryOk (f t x)) : MemoryOk (xs.foldl f s) :=
  List.foldlRecOn (motive := MemoryOk) xs f h fun t ok x _ => hf t x ok

/-- The marking of stash sectors, with its evictions, keeps the canonical form. -/
theorem ok_markDirty {s : State} (p : StashSector → Bool) (h : MemoryOk s) : MemoryOk (s.markDirty p) :=
  ⟨wf_writeBacks _ h.1, h.2⟩
/-- Bytes put at a key keep the canonical form. -/
theorem ok_putBy {s : State} (o : Option (TRef × Nat)) (k : Nat) (bs : List Byte) (h : MemoryOk s) :
    MemoryOk (s.putBy o k bs) := by
  have w : MemoryOk { s with mem := memSetBytes s.mem (s.route k) bs } := ⟨wf_memSetBytes _ bs h.1, h.2⟩
  unfold State.putBy
  cases s.stashOf k with
  | some x => exact ok_markDirty _ w
  | none => exact iteInduction (fun _ => ok_markDirty _ w) fun _ => w
theorem ok_put {s : State} (k : Nat) (bs : List Byte) (h : MemoryOk s) : MemoryOk (s.put k bs) := ok_putBy none k bs h
/-- Bytes put sector by sector keep the canonical form. -/
theorem ok_putAll {s : State} (bs : List Byte) (k : Nat) (h : MemoryOk s) : MemoryOk (s.putAll k bs) :=
  ok_fold _ _ h fun _ _ ok => ok_put _ _ ok
/-- A stash flushed keeps the canonical form. -/
theorem ok_flushStash {s : State} (wid : Nat) (p : StashEntry → Bool) (h : MemoryOk s) : MemoryOk (s.flushStash wid p) :=
  ⟨wf_writeBacks _ h.1, h.2⟩
/-- A single-bit error corrected touches no byte. -/
theorem ok_correct {s : State} (k : Nat) (h : MemoryOk s) : MemoryOk (s.correct k) := by
  refine ok_of h ?_ ?_ <;> unfold State.correct State.countCe <;> split_ifs <;> rfl
/-- A sector brought into the device cache leaves the memories as they are. -/
theorem ok_dcFill {s : State} (k home : Nat) (h : MemoryOk s) : MemoryOk (s.dcFill k home) := by
  unfold State.dcFill
  split_ifs
  · exact h
  · exact h
  · exact h
  · exact ok_correct k h
/-- A leaf taken into a translation cache keeps the canonical form: it may set DIRTY in G7 DRAM. -/
theorem ok_fillTlb {s : State} (ctx ia level : Nat) (e : DWord) (addr : Nat) (w : Bool) (h : MemoryOk s) :
    MemoryOk (s.fillTlb ctx ia level e addr w) := by
  unfold State.fillTlb
  dsimp only
  by_cases q : (if w then e ||| 8#64 else e) = e
  · rw [if_pos q]; exact h
  · rw [if_neg q]; exact ⟨wf_memSetBytes _ _ h.1, h.2⟩
/-- What a walk corrects touches no byte. -/
theorem ok_walkFix {s : State} (ia : Nat) (h : MemoryOk s) : MemoryOk (s.walkFix ia) := by
  unfold State.walkFix
  split
  · exact h
  · exact ok_fold _ _ h fun _ _ ok => ok_correct _ ok
/-- A translation keeps the canonical form. -/
theorem ok_translate {s s1 : State} {ia sp k : Nat} {w : Bool} (e : s.translate ia sp w = .at s1 k) (h : MemoryOk s) :
    MemoryOk s1 := by
  unfold State.translate at e
  dsimp only at e
  cases q : s.lookup (ia / 2 ^ 52 % 256) (ia % 2 ^ 52) sp w with
  | fault n => rw [q] at e; exact Loc.noConfusion e
  | leaf l en at_ =>
    rw [q] at e
    cases at_ <;> exact (Loc.at.inj e).1 ▸ ok_dcFill _ _ (by
      first | exact h | exact ok_fillTlb _ _ _ _ _ _ (ok_walkFix _ h))
/-- A stash sector filled keeps the canonical form. -/
theorem ok_fillSector {s s1 : State} {wid sec k : Nat} {x : StashEntry} (e : s.fillSector wid x sec = .at s1 k)
    (h : MemoryOk s) : MemoryOk s1 := by
  unfold State.fillSector at e
  dsimp only at e
  split_ifs at e
  · exact (Loc.at.inj e).1 ▸ h
  · split at e
    · exact (Loc.at.inj e).1 ▸ h
    · exact (Loc.at.inj e).1 ▸ h
    · split at e
      · cases e
      · next q =>
        have ok := ok_translate q h
        exact (Loc.at.inj e).1 ▸ ⟨wf_memSetBytes _ _ ok.1, ok.2⟩
/-- An access located keeps the canonical form. -/
theorem ok_locate {s s1 : State} {d : Dest} {k : Nat} {w : Bool} (e : s.locate d w = .at s1 k) (h : MemoryOk s) :
    MemoryOk s1 := by
  unfold State.locate at e
  cases d with
  | global sp ia =>
    dsimp only at e
    split at e
    · exact ok_translate e h
    · split at e
      · next q => exact ok_translate e (ok_fillSector q h)
      · cases e
  | scratch wid off =>
    dsimp only at e
    split at e
    · exact (Loc.at.inj e).1 ▸ h
    · split at e
      · cases e
      · next q =>
        split at e
        · exact (Loc.at.inj e).1 ▸ ok_fillSector q h
        · split at e
          · next q2 => exact (Loc.at.inj e).1 ▸ ok_translate q2 (ok_fillSector q h)
          · cases e
/-- A write's home found and filled keeps the canonical form. -/
theorem ok_fillAt {s : State} (k : Nat) (h : MemoryOk s) : MemoryOk (s.fillAt k) := by
  unfold State.fillAt
  split_ifs
  · exact h
  · split
    · exact h
    · split
      · next q => exact ok_fillSector q h
      · exact h
/-- A workgroup fault changes no byte. -/
theorem ok_faultWg {s : State} (wid : Nat) (f : WgFault) (h : MemoryOk s) : MemoryOk (s.faultWg wid f) :=
  iteInduction (motive := MemoryOk) (fun _ => h) fun _ => ok_of h rfl rfl
/-- A refused store changes no byte. -/
theorem ok_refuseStore {s : State} (cid : Nat) (x : HeldStore) (h : MemoryOk s) : MemoryOk (s.refuseStore cid x) := by
  unfold State.refuseStore
  dsimp only
  split_ifs
  · split
    · exact ok_faultWg _ _ h
    · exact h
  · exact ok_fold _ _ h fun _ _ ok => ok_of ok rfl rfl
/-- A store applied keeps the canonical form. -/
theorem ok_applyStore {s : State} (cid : Nat) (x : HeldStore) (h : MemoryOk s) : MemoryOk (s.applyStore cid x) := by
  have w : MemoryOk ((s.fillAt x.key).reachFor ⟨cid, x.tid⟩) := ok_of (ok_fillAt x.key h) rfl rfl
  unfold State.applyStore
  cases x.op <;> dsimp only <;> split_ifs <;> first
    | exact ok_refuseStore _ _ w | exact w | exact ok_of w rfl rfl | exact ok_putBy _ _ _ w
/-- A column's update changes no byte of the card's memories. -/
theorem ok_updCol {s : State} (c : Nat) (f : Column → Column) (h : MemoryOk s) : MemoryOk (s.updCol c f) := h
/-- An L1 brought up to date changes no byte. -/
theorem ok_l1Update {s : State} (c key n : Nat) (b : Bool) (h : MemoryOk s) : MemoryOk (s.l1Update c key n b) :=
  ok_of h rfl rfl
/-- A result given to a thread changes no byte. -/
theorem ok_givePend {s : State} (t : TRef) (v w : PendVal) (h : MemoryOk s) : MemoryOk (s.givePend t v w) :=
  ok_of h rfl rfl
/-- An atomic performed keeps the canonical form. -/
theorem ok_applyAtomic {s : State} (c : Nat) (r : Released) (k : BitVec 5) (x y : DWord) (h : MemoryOk s) :
    MemoryOk (s.applyAtomic c r k x y) := by
  have w : MemoryOk ((s.fillAt r.store.key).reachFor ⟨r.cid, r.store.tid⟩) := ok_of (ok_fillAt r.store.key h) rfl rfl
  unfold State.applyAtomic
  dsimp only
  split
  · exact ok_givePend _ _ _ w
  · refine ok_givePend _ _ _ (ok_updCol _ _ (ok_l1Update _ _ _ _ ?_))
    split
    · exact ok_putBy _ _ _ w
    · exact w
/-- A core's store performed keeps the canonical form. -/
theorem ok_performOne {s : State} (c : Nat) (r : Released) (h : MemoryOk s) : MemoryOk (s.performOne c r) := by
  unfold State.performOne
  have w : MemoryOk (if r.rel then s.reachAll else s) := iteInduction (fun _ => ok_of h rfl rfl) fun _ => h
  dsimp only
  split
  · exact ok_applyAtomic _ _ _ _ _ w
  · exact ok_l1Update _ _ _ _ (ok_applyStore r.cid r.store w)
theorem ok_applyHead {s : State} (c : Nat) (h : MemoryOk s) : MemoryOk (s.applyHead c) := by
  unfold State.applyHead
  split
  · exact ok_performOne _ _ h
  · split
    · exact ok_performOne _ _ h
    · exact h
/-- The stores of a core performed keep the canonical form. -/
theorem ok_drainCol (n : Nat) {s : State} (c : Nat) (h : MemoryOk s) : MemoryOk (s.drainCol c n) := by
  induction n generalizing s <;> grind [State.drainCol, ok_applyHead]
theorem ok_drain {s : State} (c : Nat) (h : MemoryOk s) : MemoryOk (s.drain c) := ok_drainCol _ c h

end Sys2Proof.Laws
end

