-- ==== Sys2Proof/Laws/PerInstr.lean ====
section
/-!
SUPPORT. Statements made per instruction.
-/

namespace Sys2Proof.Laws.Encoding

/-- A word of a stream has an encoding; an event of the device has none. -/
def Statement (i : Instr) : Prop := (encode i).isEmpty = decide (i.cls = .event)

theorem add (x0 x1 x2) : Statement (.add x0 x1 x2) := Eq.refl _
theorem addImm (x0 x1 x2) : Statement (.addImm x0 x1 x2) := Eq.refl _
theorem sub (x0 x1 x2) : Statement (.sub x0 x1 x2) := Eq.refl _
theorem subImm (x0 x1 x2) : Statement (.subImm x0 x1 x2) := Eq.refl _
theorem mad (x0 x1 x2) : Statement (.mad x0 x1 x2) := Eq.refl _
theorem madImm (x0 x1 x2) : Statement (.madImm x0 x1 x2) := Eq.refl _
theorem mulLo (x0 x1 x2) : Statement (.mulLo x0 x1 x2) := Eq.refl _
theorem mulLoImm (x0 x1 x2) : Statement (.mulLoImm x0 x1 x2) := Eq.refl _
theorem mulHiI32 (x0 x1 x2) : Statement (.mulHiI32 x0 x1 x2) := Eq.refl _
theorem mulHiI32Imm (x0 x1 x2) : Statement (.mulHiI32Imm x0 x1 x2) := Eq.refl _
theorem mulHiN32 (x0 x1 x2) : Statement (.mulHiN32 x0 x1 x2) := Eq.refl _
theorem mulHiN32Imm (x0 x1 x2) : Statement (.mulHiN32Imm x0 x1 x2) := Eq.refl _
theorem add64 (x0 x1 x2) : Statement (.add64 x0 x1 x2) := Eq.refl _
theorem add64Imm (x0 x1 x2) : Statement (.add64Imm x0 x1 x2) := Eq.refl _
theorem sub64 (x0 x1 x2) : Statement (.sub64 x0 x1 x2) := Eq.refl _
theorem sub64Imm (x0 x1 x2) : Statement (.sub64Imm x0 x1 x2) := Eq.refl _
theorem shl (x0 x1 x2) : Statement (.shl x0 x1 x2) := Eq.refl _
theorem shlImm (x0 x1 x2) : Statement (.shlImm x0 x1 x2) := Eq.refl _
theorem shrN (x0 x1 x2) : Statement (.shrN x0 x1 x2) := Eq.refl _
theorem shrNImm (x0 x1 x2) : Statement (.shrNImm x0 x1 x2) := Eq.refl _
theorem shrI (x0 x1 x2) : Statement (.shrI x0 x1 x2) := Eq.refl _
theorem shrIImm (x0 x1 x2) : Statement (.shrIImm x0 x1 x2) := Eq.refl _
theorem rot (x0 x1 x2) : Statement (.rot x0 x1 x2) := Eq.refl _
theorem rotImm (x0 x1 x2) : Statement (.rotImm x0 x1 x2) := Eq.refl _
theorem and (x0 x1 x2) : Statement (.and x0 x1 x2) := Eq.refl _
theorem andImm (x0 x1 x2) : Statement (.andImm x0 x1 x2) := Eq.refl _
theorem or (x0 x1 x2) : Statement (.or x0 x1 x2) := Eq.refl _
theorem orImm (x0 x1 x2) : Statement (.orImm x0 x1 x2) := Eq.refl _
theorem xor (x0 x1 x2) : Statement (.xor x0 x1 x2) := Eq.refl _
theorem xorImm (x0 x1 x2) : Statement (.xorImm x0 x1 x2) := Eq.refl _
theorem andn (x0 x1 x2) : Statement (.andn x0 x1 x2) := Eq.refl _
theorem andnImm (x0 x1 x2) : Statement (.andnImm x0 x1 x2) := Eq.refl _
theorem minI32 (x0 x1 x2) : Statement (.minI32 x0 x1 x2) := Eq.refl _
theorem minI32Imm (x0 x1 x2) : Statement (.minI32Imm x0 x1 x2) := Eq.refl _
theorem maxI32 (x0 x1 x2) : Statement (.maxI32 x0 x1 x2) := Eq.refl _
theorem maxI32Imm (x0 x1 x2) : Statement (.maxI32Imm x0 x1 x2) := Eq.refl _
theorem minN32 (x0 x1 x2) : Statement (.minN32 x0 x1 x2) := Eq.refl _
theorem minN32Imm (x0 x1 x2) : Statement (.minN32Imm x0 x1 x2) := Eq.refl _
theorem maxN32 (x0 x1 x2) : Statement (.maxN32 x0 x1 x2) := Eq.refl _
theorem maxN32Imm (x0 x1 x2) : Statement (.maxN32Imm x0 x1 x2) := Eq.refl _
theorem absI32 (x0 x1) : Statement (.absI32 x0 x1) := Eq.refl _
theorem negI32 (x0 x1) : Statement (.negI32 x0 x1) := Eq.refl _
theorem clz (x0 x1) : Statement (.clz x0 x1) := Eq.refl _
theorem popc (x0 x1) : Statement (.popc x0 x1) := Eq.refl _
theorem brev (x0 x1) : Statement (.brev x0 x1) := Eq.refl _
theorem bfeN32 (x0 x1 x2) : Statement (.bfeN32 x0 x1 x2) := Eq.refl _
theorem bfeI32 (x0 x1 x2) : Statement (.bfeI32 x0 x1 x2) := Eq.refl _
theorem bfi (x0 x1 x2) : Statement (.bfi x0 x1 x2) := Eq.refl _
theorem sext (x0 x1 x2) : Statement (.sext x0 x1 x2) := Eq.refl _
theorem sextImm (x0 x1 x2) : Statement (.sextImm x0 x1 x2) := Eq.refl _
theorem zext (x0 x1 x2) : Statement (.zext x0 x1 x2) := Eq.refl _
theorem zextImm (x0 x1 x2) : Statement (.zextImm x0 x1 x2) := Eq.refl _
theorem lea (x0 x1 x2 x3) : Statement (.lea x0 x1 x2 x3) := Eq.refl _
theorem leaI (x0 x1 x2 x3) : Statement (.leaI x0 x1 x2 x3) := Eq.refl _
theorem dp4I8 (x0 x1 x2) : Statement (.dp4I8 x0 x1 x2) := Eq.refl _
theorem dp4N8 (x0 x1 x2) : Statement (.dp4N8 x0 x1 x2) := Eq.refl _
theorem dp4I8n8 (x0 x1 x2) : Statement (.dp4I8n8 x0 x1 x2) := Eq.refl _
theorem mov (x0 x1) : Statement (.mov x0 x1) := Eq.refl _
theorem movl (x0 x1) : Statement (.movl x0 x1) := Eq.refl _
theorem movi (x0 x1) : Statement (.movi x0 x1) := Eq.refl _
theorem sel (x0 x1 x2 x3) : Statement (.sel x0 x1 x2 x3) := Eq.refl _
theorem cmpInteger (x0 x1 x2 x3 x4) : Statement (.cmpInteger x0 x1 x2 x3 x4) := Eq.refl _
theorem plut (x0 x1 x2 x3) : Statement (.plut x0 x1 x2 x3) := Eq.refl _
theorem bra (x0 x1 x2) : Statement (.bra x0 x1 x2) := Eq.refl _
theorem call (x0 x1 x2) : Statement (.call x0 x1 x2) := Eq.refl _
theorem jmp (x0) : Statement (.jmp x0) := Eq.refl _
theorem callRegister (x0) : Statement (.callRegister x0) := Eq.refl _
theorem reorder (x0) : Statement (.reorder x0) := Eq.refl _
theorem floatAdd (x0 x1 x2 x3 x4) : Statement (.floatAdd x0 x1 x2 x3 x4) := Eq.refl _
theorem floatSub (x0 x1 x2 x3 x4) : Statement (.floatSub x0 x1 x2 x3 x4) := Eq.refl _
theorem floatMul (x0 x1 x2 x3 x4) : Statement (.floatMul x0 x1 x2 x3 x4) := Eq.refl _
theorem fma (x0 x1 x2 x3 x4) : Statement (.fma x0 x1 x2 x3 x4) := Eq.refl _
theorem floatMin (x0 x1 x2 x3) : Statement (.floatMin x0 x1 x2 x3) := Eq.refl _
theorem floatMax (x0 x1 x2 x3) : Statement (.floatMax x0 x1 x2 x3) := Eq.refl _
theorem minnum (x0 x1 x2 x3) : Statement (.minnum x0 x1 x2 x3) := Eq.refl _
theorem maxnum (x0 x1 x2 x3) : Statement (.maxnum x0 x1 x2 x3) := Eq.refl _
theorem absF32 (x0 x1) : Statement (.absF32 x0 x1) := Eq.refl _
theorem negF32 (x0 x1) : Statement (.negF32 x0 x1) := Eq.refl _
theorem absPacked (x0 x1) : Statement (.absPacked x0 x1) := Eq.refl _
theorem negPacked (x0 x1) : Statement (.negPacked x0 x1) := Eq.refl _
theorem cmpF32 (x0 x1 x2 x3) : Statement (.cmpF32 x0 x1 x2 x3) := Eq.refl _
theorem dot2Bf16x2 (x0 x1 x2) : Statement (.dot2Bf16x2 x0 x1 x2) := Eq.refl _
theorem dot2F16x2 (x0 x1 x2) : Statement (.dot2F16x2 x0 x1 x2) := Eq.refl _
theorem cscM3 (x0 x1 x2) : Statement (.cscM3 x0 x1 x2) := Eq.refl _
theorem cscClip (x0 x1 x2) : Statement (.cscClip x0 x1 x2) := Eq.refl _
theorem rndF32 (x0 x1 x2) : Statement (.rndF32 x0 x1 x2) := Eq.refl _
theorem cvt (x0 x1 x2 x3 x4) : Statement (.cvt x0 x1 x2 x3 x4) := Eq.refl _
theorem qnt (x0 x1 x2 x3 x4 x5) : Statement (.qnt x0 x1 x2 x3 x4 x5) := Eq.refl _
theorem dqnt (x0 x1 x2 x3) : Statement (.dqnt x0 x1 x2 x3) := Eq.refl _
theorem rcp (x0 x1) : Statement (.rcp x0 x1) := Eq.refl _
theorem rsqrt (x0 x1) : Statement (.rsqrt x0 x1) := Eq.refl _
theorem sqrt (x0 x1) : Statement (.sqrt x0 x1) := Eq.refl _
theorem exp2 (x0 x1) : Statement (.exp2 x0 x1) := Eq.refl _
theorem log2 (x0 x1) : Statement (.log2 x0 x1) := Eq.refl _
theorem sinpi (x0 x1) : Statement (.sinpi x0 x1) := Eq.refl _
theorem cospi (x0 x1) : Statement (.cospi x0 x1) := Eq.refl _
theorem tanh (x0 x1) : Statement (.tanh x0 x1) := Eq.refl _
theorem sigm (x0 x1) : Statement (.sigm x0 x1) := Eq.refl _
theorem pxunpk (x0 x1 x2 x3) : Statement (.pxunpk x0 x1 x2 x3) := Eq.refl _
theorem pxpack (x0 x1 x2 x3) : Statement (.pxpack x0 x1 x2 x3) := Eq.refl _
theorem xlPick (x0 x1 x2 x3) : Statement (.xlPick x0 x1 x2 x3) := Eq.refl _
theorem xlBack (x0 x1 x2 x3) : Statement (.xlBack x0 x1 x2 x3) := Eq.refl _
theorem xlFwd (x0 x1 x2 x3) : Statement (.xlFwd x0 x1 x2 x3) := Eq.refl _
theorem xlFlip (x0 x1 x2 x3) : Statement (.xlFlip x0 x1 x2 x3) := Eq.refl _
theorem quadSwapH (x0 x1 x2) : Statement (.quadSwapH x0 x1 x2) := Eq.refl _
theorem quadSwapV (x0 x1 x2) : Statement (.quadSwapV x0 x1 x2) := Eq.refl _
theorem quadSwapD (x0 x1 x2) : Statement (.quadSwapD x0 x1 x2) := Eq.refl _
theorem quadBcast (x0 x1 x2 x3) : Statement (.quadBcast x0 x1 x2 x3) := Eq.refl _
theorem xlMask (x0 x1 x2) : Statement (.xlMask x0 x1 x2) := Eq.refl _
theorem xlAny (x0 x1 x2) : Statement (.xlAny x0 x1 x2) := Eq.refl _
theorem xlAll (x0 x1 x2) : Statement (.xlAll x0 x1 x2) := Eq.refl _
theorem xlSame (x0 x1 x2) : Statement (.xlSame x0 x1 x2) := Eq.refl _
theorem xlFold (x0 x1 x2 x3) : Statement (.xlFold x0 x1 x2 x3) := Eq.refl _
theorem scanIncl (x0 x1 x2 x3) : Statement (.scanIncl x0 x1 x2 x3) := Eq.refl _
theorem scanExcl (x0 x1 x2 x3) : Statement (.scanExcl x0 x1 x2 x3) := Eq.refl _
theorem scanSegIncl (x0 x1 x2 x3 x4) : Statement (.scanSegIncl x0 x1 x2 x3 x4) := Eq.refl _
theorem scanSegExcl (x0 x1 x2 x3 x4) : Statement (.scanSegExcl x0 x1 x2 x3 x4) := Eq.refl _
theorem ld (x0 x1 x2 x3 x4) : Statement (.ld x0 x1 x2 x3 x4) := Eq.refl _
theorem st (x0 x1 x2 x3 x4) : Statement (.st x0 x1 x2 x3 x4) := Eq.refl _
theorem ldRelaxed (x0 x1 x2 x3) : Statement (.ldRelaxed x0 x1 x2 x3) := Eq.refl _
theorem stRelaxed (x0 x1 x2 x3) : Statement (.stRelaxed x0 x1 x2 x3) := Eq.refl _
theorem ldAcq (x0 x1 x2 x3 x4) : Statement (.ldAcq x0 x1 x2 x3 x4) := Eq.refl _
theorem stRel (x0 x1 x2 x3 x4) : Statement (.stRel x0 x1 x2 x3 x4) := Eq.refl _
theorem atom (x0 x1 x2 x3) : Statement (.atom x0 x1 x2 x3) := Eq.refl _
theorem atomCasB32 (x0 x1 x2) : Statement (.atomCasB32 x0 x1 x2) := Eq.refl _
theorem atomCasB64 (x0 x1 x2) : Statement (.atomCasB64 x0 x1 x2) := Eq.refl _
theorem red (x0 x1 x2 x3) : Statement (.red x0 x1 x2 x3) := Eq.refl _
theorem fence (x0) : Statement (.fence x0) := Eq.refl _
theorem stashMap (x0 x1 x2) : Statement (.stashMap x0 x1 x2) := Eq.refl _
theorem stashUnmap (x0) : Statement (.stashUnmap x0) := Eq.refl _
theorem stashFlush (x0) : Statement (.stashFlush x0) := Eq.refl _
theorem prefetch (x0 x1) : Statement (.prefetch x0 x1) := Eq.refl _
theorem barArrive (x0 x1 x2) : Statement (.barArrive x0 x1 x2) := Eq.refl _
theorem barWait (x0 x1) : Statement (.barWait x0 x1) := Eq.refl _
theorem tbInit (x0 x1) : Statement (.tbInit x0 x1) := Eq.refl _
theorem tbArrive (x0 x1 x2) : Statement (.tbArrive x0 x1 x2) := Eq.refl _
theorem tbExpect (x0 x1) : Statement (.tbExpect x0 x1) := Eq.refl _
theorem tbWait (x0 x1 x2) : Statement (.tbWait x0 x1 x2) := Eq.refl _
theorem tbTest (x0 x1 x2) : Statement (.tbTest x0 x1 x2) := Eq.refl _
theorem qbind (x0 x1 x2) : Statement (.qbind x0 x1 x2) := Eq.refl _
theorem qpush (x0 x1) : Statement (.qpush x0 x1) := Eq.refl _
theorem qpushr (x0 x1 x2) : Statement (.qpushr x0 x1 x2) := Eq.refl _
theorem qpop (x0 x1) : Statement (.qpop x0 x1) := Eq.refl _
theorem qstat (x0 x1) : Statement (.qstat x0 x1) := Eq.refl _
theorem ticketTake (x0) : Statement (.ticketTake x0) := Eq.refl _
theorem srd (x0 x1 x2) : Statement (.srd x0 x1 x2) := Eq.refl _
theorem xeCopy (x0 x1 x2) : Statement (.xeCopy x0 x1 x2) := Eq.refl _
theorem xeRagged (x0 x1 x2) : Statement (.xeRagged x0 x1 x2) := Eq.refl _
theorem xeBtab (x0 x1 x2) : Statement (.xeBtab x0 x1 x2) := Eq.refl _
theorem xeGather (x0 x1 x2) : Statement (.xeGather x0 x1 x2) := Eq.refl _
theorem xeCbx (x0 x1 x2) : Statement (.xeCbx x0 x1 x2) := Eq.refl _
theorem xeLut (x0 x1) : Statement (.xeLut x0 x1) := Eq.refl _
theorem xeFill (x0 x1 x2) : Statement (.xeFill x0 x1 x2) := Eq.refl _
theorem smpCfg (x0) : Statement (.smpCfg x0) := Eq.refl _
theorem smpPush (x0 x1) : Statement (.smpPush x0 x1) := Eq.refl _
theorem smpDraw (x0 x1) : Statement (.smpDraw x0 x1) := Eq.refl _
theorem rtTrace (x0 x1 x2) : Statement (.rtTrace x0 x1 x2) := Eq.refl _
theorem rtCont (x0) : Statement (.rtCont x0) := Eq.refl _
theorem rtPop (x0 x1) : Statement (.rtPop x0 x1) := Eq.refl _
theorem collReady (x0 x1) : Statement (.collReady x0 x1) := Eq.refl _
theorem collWait (x0 x1 x2) : Statement (.collWait x0 x1 x2) := Eq.refl _
theorem ropeArrive (x0 x1 x2) : Statement (.ropeArrive x0 x1 x2) := Eq.refl _
theorem ropeStatus (x0 x1 x2) : Statement (.ropeStatus x0 x1 x2) := Eq.refl _
theorem uniformAdd (x0 x1 x2) : Statement (.uniformAdd x0 x1 x2) := Eq.refl _
theorem uniformAddImm (x0 x1) : Statement (.uniformAddImm x0 x1) := Eq.refl _
theorem uniformSub (x0 x1 x2) : Statement (.uniformSub x0 x1 x2) := Eq.refl _
theorem uniformSubImm (x0 x1) : Statement (.uniformSubImm x0 x1) := Eq.refl _
theorem uniformMulLo (x0 x1 x2) : Statement (.uniformMulLo x0 x1 x2) := Eq.refl _
theorem uniformMulLoImm (x0 x1) : Statement (.uniformMulLoImm x0 x1) := Eq.refl _
theorem uniformMulHiI64 (x0 x1 x2) : Statement (.uniformMulHiI64 x0 x1 x2) := Eq.refl _
theorem uniformMulHiI64Imm (x0 x1) : Statement (.uniformMulHiI64Imm x0 x1) := Eq.refl _
theorem uniformMulHiN64 (x0 x1 x2) : Statement (.uniformMulHiN64 x0 x1 x2) := Eq.refl _
theorem uniformMulHiN64Imm (x0 x1) : Statement (.uniformMulHiN64Imm x0 x1) := Eq.refl _
theorem uniformShl (x0 x1 x2) : Statement (.uniformShl x0 x1 x2) := Eq.refl _
theorem uniformShlImm (x0 x1) : Statement (.uniformShlImm x0 x1) := Eq.refl _
theorem uniformShrN (x0 x1 x2) : Statement (.uniformShrN x0 x1 x2) := Eq.refl _
theorem uniformShrNImm (x0 x1) : Statement (.uniformShrNImm x0 x1) := Eq.refl _
theorem uniformShrI (x0 x1 x2) : Statement (.uniformShrI x0 x1 x2) := Eq.refl _
theorem uniformShrIImm (x0 x1) : Statement (.uniformShrIImm x0 x1) := Eq.refl _
theorem uniformRot (x0 x1 x2) : Statement (.uniformRot x0 x1 x2) := Eq.refl _
theorem uniformRotImm (x0 x1) : Statement (.uniformRotImm x0 x1) := Eq.refl _
theorem uniformAnd (x0 x1 x2) : Statement (.uniformAnd x0 x1 x2) := Eq.refl _
theorem uniformAndImm (x0 x1) : Statement (.uniformAndImm x0 x1) := Eq.refl _
theorem uniformOr (x0 x1 x2) : Statement (.uniformOr x0 x1 x2) := Eq.refl _
theorem uniformOrImm (x0 x1) : Statement (.uniformOrImm x0 x1) := Eq.refl _
theorem uniformXor (x0 x1 x2) : Statement (.uniformXor x0 x1 x2) := Eq.refl _
theorem uniformXorImm (x0 x1) : Statement (.uniformXorImm x0 x1) := Eq.refl _
theorem uniformAndn (x0 x1 x2) : Statement (.uniformAndn x0 x1 x2) := Eq.refl _
theorem uniformAndnImm (x0 x1) : Statement (.uniformAndnImm x0 x1) := Eq.refl _
theorem uniformMinI64 (x0 x1 x2) : Statement (.uniformMinI64 x0 x1 x2) := Eq.refl _
theorem uniformMaxI64 (x0 x1 x2) : Statement (.uniformMaxI64 x0 x1 x2) := Eq.refl _
theorem uniformMinN64 (x0 x1 x2) : Statement (.uniformMinN64 x0 x1 x2) := Eq.refl _
theorem uniformMaxN64 (x0 x1 x2) : Statement (.uniformMaxN64 x0 x1 x2) := Eq.refl _
theorem uniformClz (x0 x1 x2) : Statement (.uniformClz x0 x1 x2) := Eq.refl _
theorem uniformPopc (x0 x1 x2) : Statement (.uniformPopc x0 x1 x2) := Eq.refl _
theorem uniformBrev (x0 x1 x2) : Statement (.uniformBrev x0 x1 x2) := Eq.refl _
theorem uniformBfeN64 (x0 x1 x2) : Statement (.uniformBfeN64 x0 x1 x2) := Eq.refl _
theorem uniformBfeI64 (x0 x1 x2) : Statement (.uniformBfeI64 x0 x1 x2) := Eq.refl _
theorem uniformBfi (x0 x1 x2) : Statement (.uniformBfi x0 x1 x2) := Eq.refl _
theorem uniformMov (x0 x1 x2) : Statement (.uniformMov x0 x1 x2) := Eq.refl _
theorem uniformMovi (x0 x1) : Statement (.uniformMovi x0 x1) := Eq.refl _
theorem setEq (x0 x1 x2) : Statement (.setEq x0 x1 x2) := Eq.refl _
theorem setNe (x0 x1 x2) : Statement (.setNe x0 x1 x2) := Eq.refl _
theorem setLtI64 (x0 x1 x2) : Statement (.setLtI64 x0 x1 x2) := Eq.refl _
theorem setLeI64 (x0 x1 x2) : Statement (.setLeI64 x0 x1 x2) := Eq.refl _
theorem setGtI64 (x0 x1 x2) : Statement (.setGtI64 x0 x1 x2) := Eq.refl _
theorem setGeI64 (x0 x1 x2) : Statement (.setGeI64 x0 x1 x2) := Eq.refl _
theorem setLtN64 (x0 x1 x2) : Statement (.setLtN64 x0 x1 x2) := Eq.refl _
theorem setLeN64 (x0 x1 x2) : Statement (.setLeN64 x0 x1 x2) := Eq.refl _
theorem setGtN64 (x0 x1 x2) : Statement (.setGtN64 x0 x1 x2) := Eq.refl _
theorem setGeN64 (x0 x1 x2) : Statement (.setGeN64 x0 x1 x2) := Eq.refl _
theorem uniformMovl (x0 x1 x2) : Statement (.uniformMovl x0 x1 x2) := Eq.refl _
theorem bz (x0 x1) : Statement (.bz x0 x1) := Eq.refl _
theorem bnz (x0 x1) : Statement (.bnz x0 x1) := Eq.refl _
theorem br (x0) : Statement (.br x0) := Eq.refl _
theorem uniformCall (x0 x1) : Statement (.uniformCall x0 x1) := Eq.refl _
theorem uniformJmp (x0 x1) : Statement (.uniformJmp x0 x1) := Eq.refl _
theorem uniformRet (x0 x1) : Statement (.uniformRet x0 x1) := Eq.refl _
theorem mfs (x0 x1 x2) : Statement (.mfs x0 x1 x2) := Eq.refl _
theorem mts (x0 x1 x2) : Statement (.mts x0 x1 x2) := Eq.refl _
theorem rdtime (x0 x1) : Statement (.rdtime x0 x1) := Eq.refl _
theorem waitTime (x0 x1) : Statement (.waitTime x0 x1) := Eq.refl _
theorem waitCnt (x0 x1) : Statement (.waitCnt x0 x1) := Eq.refl _
theorem spawn (x0) : Statement (.spawn x0) := Eq.refl _
theorem joinDec (x0 x1 x2) : Statement (.joinDec x0 x1 x2) := Eq.refl _
theorem yield (x0) : Statement (.yield x0) := Eq.refl _
theorem trap (x0) : Statement (.trap x0) := Eq.refl _
theorem uniformLd (x0 x1 x2 x3) : Statement (.uniformLd x0 x1 x2 x3) := Eq.refl _
theorem uniformSt (x0 x1 x2) : Statement (.uniformSt x0 x1 x2) := Eq.refl _
theorem uniformLdAcqDev (x0 x1 x2) : Statement (.uniformLdAcqDev x0 x1 x2) := Eq.refl _
theorem uniformStRelDev (x0 x1) : Statement (.uniformStRelDev x0 x1) := Eq.refl _
theorem mma (x0 x1 x2 x3 x4 x5 x6 x7) : Statement (.mma x0 x1 x2 x3 x4 x5 x6 x7) := Eq.refl _
theorem mmo (x0 x1) : Statement (.mmo x0 x1) := Eq.refl _
theorem xload (x0 x1 x2) : Statement (.xload x0 x1 x2) := Eq.refl _
theorem xpop (x0) : Statement (.xpop x0) := Eq.refl _
theorem cbload (x0 x1 x2 x3) : Statement (.cbload x0 x1 x2 x3) := Eq.refl _
theorem azero (x0) : Statement (.azero x0) := Eq.refl _
theorem aload (x0 x1 x2 x3) : Statement (.aload x0 x1 x2 x3) := Eq.refl _
theorem adrain (x0 x1 x2 x3) : Statement (.adrain x0 x1 x2 x3) := Eq.refl _
theorem adrainT (x0 x1 x2 x3 x4) : Statement (.adrainT x0 x1 x2 x3 x4) := Eq.refl _
theorem adrainQ (x0 x1 x2 x3) : Statement (.adrainQ x0 x1 x2 x3) := Eq.refl _
theorem ack (x0 x1 x2) : Statement (.ack x0 x1 x2) := Eq.refl _
theorem afix (x0 x1) : Statement (.afix x0 x1) := Eq.refl _
theorem curdLdi (x0 x1) : Statement (.curdLdi x0 x1) := Eq.refl _
theorem curdLdh (x0 x1) : Statement (.curdLdh x0 x1) := Eq.refl _
theorem curdAddi (x0 x1) : Statement (.curdAddi x0 x1) := Eq.refl _
theorem curdMov (x0 x1) : Statement (.curdMov x0 x1) := Eq.refl _
theorem curdAdd (x0 x1) : Statement (.curdAdd x0 x1) := Eq.refl _
theorem curdSub (x0 x1) : Statement (.curdSub x0 x1) := Eq.refl _
theorem curdAnd (x0 x1) : Statement (.curdAnd x0 x1) := Eq.refl _
theorem curdOr (x0 x1) : Statement (.curdOr x0 x1) := Eq.refl _
theorem curdXor (x0 x1) : Statement (.curdXor x0 x1) := Eq.refl _
theorem curdShl (x0 x1) : Statement (.curdShl x0 x1) := Eq.refl _
theorem curdShr (x0 x1) : Statement (.curdShr x0 x1) := Eq.refl _
theorem curdSlt (x0 x1) : Statement (.curdSlt x0 x1) := Eq.refl _
theorem curdPkt (x0 x1) : Statement (.curdPkt x0 x1) := Eq.refl _
theorem curdRec (x0 x1) : Statement (.curdRec x0 x1) := Eq.refl _
theorem curdLd (x0 x1 x2) : Statement (.curdLd x0 x1 x2) := Eq.refl _
theorem curdSt (x0 x1 x2) : Statement (.curdSt x0 x1 x2) := Eq.refl _
theorem curdTime (x0) : Statement (.curdTime x0) := Eq.refl _
theorem semwait (x0 x1) : Statement (.semwait x0 x1) := Eq.refl _
theorem semadd (x0 x1) : Statement (.semadd x0 x1) := Eq.refl _
theorem semset (x0 x1) : Statement (.semset x0 x1) := Eq.refl _
theorem wtime (x0) : Statement (.wtime x0) := Eq.refl _
theorem curdLaunch (x0) : Statement (.curdLaunch x0) := Eq.refl _
theorem lwait (x0 x1) : Statement (.lwait x0 x1) := Eq.refl _
theorem curdCmd (x0 x1) : Statement (.curdCmd x0 x1) := Eq.refl _
theorem curdBz (x0 x1) : Statement (.curdBz x0 x1) := Eq.refl _
theorem curdBnz (x0 x1) : Statement (.curdBnz x0 x1) := Eq.refl _
theorem curdJmp (x0) : Statement (.curdJmp x0) := Eq.refl _
theorem curdLoop (x0 x1) : Statement (.curdLoop x0 x1) := Eq.refl _
theorem queueInstall (x0) : Statement (.queueInstall x0) := Eq.refl _
theorem queueRestart (x0) : Statement (.queueRestart x0) := Eq.refl _
theorem contextInstall (x0) : Statement (.contextInstall x0) := Eq.refl _
theorem boundsPublish (x0) : Statement (.boundsPublish x0) := Eq.refl _
theorem decodeInstall (x0) : Statement (.decodeInstall x0) := Eq.refl _
theorem curdInstall (x0) : Statement (.curdInstall x0) := Eq.refl _
theorem streamInstall (x0) : Statement (.streamInstall x0) := Eq.refl _
theorem tileInstall (x0) : Statement (.tileInstall x0) := Eq.refl _
theorem imageStage (x0) : Statement (.imageStage x0) := Eq.refl _
theorem handover (x0) : Statement (.handover x0) := Eq.refl _
theorem attest (x0) : Statement (.attest x0) := Eq.refl _
theorem publish (x0) : Statement (.publish x0) := Eq.refl _
theorem replay (x0) : Statement (.replay x0) := Eq.refl _
theorem replayStale (x0) : Statement (.replayStale x0) := Eq.refl _
theorem qTail (x0 x1 x2) : Statement (.qTail x0 x1 x2) := Eq.refl _
theorem semValue (x0 x1) : Statement (.semValue x0 x1) := Eq.refl _
theorem semAdd (x0 x1) : Statement (.semAdd x0 x1) := Eq.refl _
theorem semClaim (x0 x1) : Statement (.semClaim x0 x1) := Eq.refl _
theorem fqHead (x0) : Statement (.fqHead x0) := Eq.refl _
theorem fqBase (x0) : Statement (.fqBase x0) := Eq.refl _
theorem fqSize (x0) : Statement (.fqSize x0) := Eq.refl _
theorem poolSplit (x0 x1) : Statement (.poolSplit x0 x1) := Eq.refl _
theorem poolSplitComplete (x0) : Statement (.poolSplitComplete x0) := Eq.refl _
theorem colGateReq (x0 x1) : Statement (.colGateReq x0 x1) := Eq.refl _
theorem colGatePowerUp (x0) : Statement (.colGatePowerUp x0) := Eq.refl _
theorem ptpStep (x0) : Statement (.ptpStep x0) := Eq.refl _
theorem rejoin (x0) : Statement (.rejoin x0) := Eq.refl _
theorem bar0LowerHalfWrite (x0 x1 x2) : Statement (.bar0LowerHalfWrite x0 x1 x2) := Eq.refl _
theorem registerWrite (x0 x1 x2 x3) : Statement (.registerWrite x0 x1 x2 x3) := Eq.refl _
theorem hostBar2Access (x0 x1 x2 x3 x4) : Statement (.hostBar2Access x0 x1 x2 x3 x4) := Eq.refl _
theorem pickRun (x0) : Statement (.pickRun x0) := Eq.refl _
theorem instructionFetch (x0) : Statement (.instructionFetch x0) := Eq.refl _
theorem longLatencyResult (x0) : Statement (.longLatencyResult x0) := Eq.refl _
theorem parkedRunResume (x0) : Statement (.parkedRunResume x0) := Eq.refl _
theorem engineCounterRoom (x0) : Statement (.engineCounterRoom x0) := Eq.refl _
theorem waitTimeExpiry (x0) : Statement (.waitTimeExpiry x0) := Eq.refl _
theorem tbWaitTimeout (x0) : Statement (.tbWaitTimeout x0) := Eq.refl _
theorem sequencerParkResume (x0) : Statement (.sequencerParkResume x0) := Eq.refl _
theorem trapEntry (x0) : Statement (.trapEntry x0) := Eq.refl _
theorem memEcc (x0) : Statement (.memEcc x0) := Eq.refl _
theorem hostCompletion (x0) : Statement (.hostCompletion x0) := Eq.refl _
theorem mxFeed (x0) : Statement (.mxFeed x0) := Eq.refl _
theorem peerAccessRefused (x0) : Statement (.peerAccessRefused x0) := Eq.refl _
theorem yieldReq (x0) : Statement (.yieldReq x0) := Eq.refl _
theorem yieldReqRepeat (x0) : Statement (.yieldReqRepeat x0) := Eq.refl _
theorem tbPhaseCompletion (x0 x1) : Statement (.tbPhaseCompletion x0 x1) := Eq.refl _
theorem transferSectorWrite (x0 x1) : Statement (.transferSectorWrite x0 x1) := Eq.refl _
theorem transferCompletion (x0 x1) : Statement (.transferCompletion x0 x1) := Eq.refl _
theorem xeLutHeld (x0 x1) : Statement (.xeLutHeld x0 x1) := Eq.refl _
theorem smpDrawEvaluate (x0) : Statement (.smpDrawEvaluate x0) := Eq.refl _
theorem rayTraversal (x0 x1) : Statement (.rayTraversal x0 x1) := Eq.refl _
theorem hitRecord (x0 x1) : Statement (.hitRecord x0 x1) := Eq.refl _
theorem collMessage (x0 x1 x2 x3) : Statement (.collMessage x0 x1 x2 x3) := Eq.refl _
theorem collEntryCompletion (x0) : Statement (.collEntryCompletion x0) := Eq.refl _
theorem collHeartbeat (x0) : Statement (.collHeartbeat x0) := Eq.refl _
theorem partnerLost (x0 x1) : Statement (.partnerLost x0 x1) := Eq.refl _
theorem linkProcessorStop (x0) : Statement (.linkProcessorStop x0) := Eq.refl _
theorem linkProcessorImageStart (x0) : Statement (.linkProcessorImageStart x0) := Eq.refl _
theorem peerInboundAccess (x0 x1 x2) : Statement (.peerInboundAccess x0 x1 x2) := Eq.refl _
theorem linkStateChange (x0 x1 x2) : Statement (.linkStateChange x0 x1 x2) := Eq.refl _
theorem streamPacket (x0 x1) : Statement (.streamPacket x0 x1) := Eq.refl _
theorem frameSettleTimeout (x0) : Statement (.frameSettleTimeout x0) := Eq.refl _
theorem transmitChoice (x0) : Statement (.transmitChoice x0) := Eq.refl _
theorem transmitPacket (x0) : Statement (.transmitPacket x0) := Eq.refl _
theorem ptpSync (x0) : Statement (.ptpSync x0) := Eq.refl _
theorem ropeArrivalMessage (x0 x1 x2) : Statement (.ropeArrivalMessage x0 x1 x2) := Eq.refl _
theorem ropeDecision (x0 x1) : Statement (.ropeDecision x0 x1) := Eq.refl _
theorem ropeHeartbeat (x0 x1 x2) : Statement (.ropeHeartbeat x0 x1 x2) := Eq.refl _
theorem hwLevelRise (x0) : Statement (.hwLevelRise x0) := Eq.refl _
theorem hwLevelFall (x0) : Statement (.hwLevelFall x0) := Eq.refl _
theorem localityLossHalving (x0 x1) : Statement (.localityLossHalving x0 x1) := Eq.refl _
theorem pageWalk (x0 x1 x2 x3) : Statement (.pageWalk x0 x1 x2 x3) := Eq.refl _
theorem workgroupFault (x0) : Statement (.workgroupFault x0) := Eq.refl _
theorem workgroupEnd (x0) : Statement (.workgroupEnd x0) := Eq.refl _
theorem serialPhase (x0) : Statement (.serialPhase x0) := Eq.refl _
theorem redundantCompare (x0) : Statement (.redundantCompare x0) := Eq.refl _
theorem launchCompletion (x0) : Statement (.launchCompletion x0) := Eq.refl _
theorem boundFieldResolve (x0) : Statement (.boundFieldResolve x0) := Eq.refl _
theorem launchEligible (x0) : Statement (.launchEligible x0) := Eq.refl _
theorem workgroupPlace (x0 x1) : Statement (.workgroupPlace x0 x1) := Eq.refl _
theorem coreTakeWork (x0) : Statement (.coreTakeWork x0) := Eq.refl _
theorem stealAttempt (x0) : Statement (.stealAttempt x0) := Eq.refl _
theorem curdPacket (x0) : Statement (.curdPacket x0) := Eq.refl _
theorem curdCompletionRun (x0) : Statement (.curdCompletionRun x0) := Eq.refl _
theorem curdResume (x0) : Statement (.curdResume x0) := Eq.refl _
theorem curdBudgetExhausted (x0) : Statement (.curdBudgetExhausted x0) := Eq.refl _
theorem shadowWriteBehind (x0) : Statement (.shadowWriteBehind x0) := Eq.refl _
theorem sealCapture (x0 x1) : Statement (.sealCapture x0 x1) := Eq.refl _
theorem sealValid (x0) : Statement (.sealValid x0) := Eq.refl _
theorem columnSupplyFailure (x0) : Statement (.columnSupplyFailure x0) := Eq.refl _
theorem coreRecovery (x0) : Statement (.coreRecovery x0) := Eq.refl _
theorem firmwareCoreRestore (x0) : Statement (.firmwareCoreRestore x0) := Eq.refl _
theorem perst (x0 x1) : Statement (.perst x0 x1) := Eq.refl _
theorem patrolScrub (x0) : Statement (.patrolScrub x0) := Eq.refl _
theorem verticalBusTest (x0 x1 x2) : Statement (.verticalBusTest x0 x1 x2) := Eq.refl _
theorem smpPushCompletion (x0) : Statement (.smpPushCompletion x0) := Eq.refl _
theorem storeApplied (x0) : Statement (.storeApplied x0) := Eq.refl _
theorem flitRetry (x0) : Statement (.flitRetry x0) := Eq.refl _
theorem ret : Statement (.ret) := Eq.refl _
theorem exit : Statement (.exit) := Eq.refl _
theorem region : Statement (.region) := Eq.refl _
theorem join : Statement (.join) := Eq.refl _
theorem nop : Statement (.nop) := Eq.refl _
theorem pfenceRind : Statement (.pfenceRind) := Eq.refl _
theorem pfenceRindWait : Statement (.pfenceRindWait) := Eq.refl _
theorem pfenceKeep : Statement (.pfenceKeep) := Eq.refl _
theorem pfenceKeepWait : Statement (.pfenceKeepWait) := Eq.refl _
theorem rte : Statement (.rte) := Eq.refl _
theorem brk : Statement (.brk) := Eq.refl _
theorem uniformExit : Statement (.uniformExit) := Eq.refl _
theorem curdRecpkt : Statement (.curdRecpkt) := Eq.refl _
theorem curdDone : Statement (.curdDone) := Eq.refl _
theorem curdStop : Statement (.curdStop) := Eq.refl _
theorem energyPeriodEnd : Statement (.energyPeriodEnd) := Eq.refl _
theorem coldReset : Statement (.coldReset) := Eq.refl _
theorem bringUp : Statement (.bringUp) := Eq.refl _
theorem inputUndervoltage : Statement (.inputUndervoltage) := Eq.refl _
theorem overTemperature : Statement (.overTemperature) := Eq.refl _
theorem keepScopeDurable : Statement (.keepScopeDurable) := Eq.refl _

end Sys2Proof.Laws.Encoding
end

