-- ==== Sys2Proof/Laws/Words.lean ====
section
/-!
SUPPORT. What the shared shapes of a word do: a word on registers, a word thread by thread, a uniform word, a matrix
word, an operation of a Curd program; and what each keeps.
-/

namespace Sys2Proof.Laws

open Sys2Proof Sys2Proof.Machine Sys2Proof.Safety

/-! ## A word on each thread's registers -/

/-- What `onMembers` leaves, in the terms of the obligations. -/
theorem onMembers_eq (s : State) (r : Run) {f g : Thread → Thread} (h : ∀ t, f t = g t) :
    s.onMembers r f = laneDone s r g := by
  obtain rfl : f = g := funext h
  simp [State.onMembers, laneDone]
/-- A word on registers that names no queue register. -/
theorem alu_eq {s : State} {r : Run} (h : s.current = some r) (srcs : List Code) (d : Code) (f : LaneEnv → Thread → Thread)
    (hq : (d :: srcs).any isQueueCode = false) :
    s.alu srcs d f = .next (s.onMembers r fun t => f (s.env r t.cid) t) := by
  unfold State.alu
  rw [h]; simp only [hq]; rfl
/-- A word that names a queue register goes thread by thread. -/
theorem alu_queue {s : State} {r : Run} (h : s.current = some r) (srcs : List Code) (d : Code)
    (f : LaneEnv → Thread → Thread) (hq : (d :: srcs).any isQueueCode = true) :
    s.alu srcs d f = .next (laneLoop (aluThread srcs f r) r.key r.todo false s) := by
  unfold State.alu
  rw [h]; simp only [hq]; rfl
/-- The operand codes of b in a word without queue operands. -/
theorem bCodes_noQueue (b : BSrc) (n : Nat) (h : (b.field n).all (fun p => !isQueueCode p.1) = true) :
    (bCodes b).any isQueueCode = false := by
  cases b <;> simp_all [BSrc.field, bCodes]
/-- A 32-bit result in the terms of the obligations. -/
theorem write32_eq (t : Thread) (e : LaneEnv) (d : Code) (w : Word) (hq : isQueueCode d = false) :
    t.write32 e d w = took32 e.pos d w t := by
  unfold Thread.write32 took32 put32 latched Thread.posLatch Thread.setLatch Thread.setReg
  simp only [isQueueCode, decide_eq_false_iff_not] at hq
  split
  · rfl
  · split
    · rfl
    · rw [if_neg (by omega)]

/-! ## A word thread by thread -/

/-- Threads in their turn: the first one, then the others. -/
theorem inTurn_cons {eff : State → TRef → Option State} {k : RunKey} {t : TRef} {ts : List TRef} {s s' : State}
    (e : inTurn eff k (t :: ts) s = some s') :
    ∃ s1, eff s t = some s1 ∧ inTurn eff k ts (s1.markDone k t) = some s' := by
  rw [inTurn] at e
  cases q : eff s t <;> simp_all
/-- Where every thread completes the word, the loop gives what the threads do in their turn, and the run moves on. -/
theorem laneLoop_inTurn {f : State → TRef → ThrRes} {eff : State → TRef → Option State}
    (h : ∀ s t s1, eff s t = some s1 → f s t = .ok s1) (k : RunKey) (ts : List TRef) (s s' : State)
    (e : inTurn eff k ts s = some s') : laneLoop f k ts false s = s'.updRun k Run.advance := by
  induction ts generalizing s with
  | nil => cases e; rfl
  | cons t ts ih =>
    obtain ⟨s1, e1, e2⟩ := inTurn_cons e
    rw [laneLoop, h s t s1 e1]
    exact ih _ e2
/-- The same of a word that every thread tries at once. -/
theorem laneAll_inTurn {f : State → TRef → ThrRes} {eff : State → TRef → Option State}
    (h : ∀ s t s1, eff s t = some s1 → f s t = .ok s1) (k : RunKey) (ts : List TRef) (s s' : State)
    (e : inTurn eff k ts s = some s') : laneAll f k ts false none s = s'.updRun k Run.advance := by
  induction ts generalizing s with
  | nil => cases e; rfl
  | cons t ts ih =>
    obtain ⟨s1, e1, e2⟩ := inTurn_cons e
    rw [laneAll, h s t s1 e1]
    exact ih _ e2
/-- A word thread by thread completes where each thread does. -/
theorem lanes_inTurn {s s' : State} {r : Run} {f : Run → State → TRef → ThrRes} {eff : State → TRef → Option State}
    (hr : s.current = some r) (h : ∀ s t s1, eff s t = some s1 → f r s t = .ok s1)
    (e : inTurn eff r.key r.todo s = some s') : s.lanes f = .next (passed s' r) := by
  simp only [State.lanes, hr, laneLoop_inTurn h r.key r.todo s s' e, passed]
theorem lanesAll_inTurn {s s' : State} {r : Run} {f : Run → State → TRef → ThrRes} {eff : State → TRef → Option State}
    (hr : s.current = some r) (h : ∀ s t s1, eff s t = some s1 → f r s t = .ok s1)
    (e : inTurn eff r.key r.todo s = some s') : s.lanesAll f = .next (passed s' r) := by
  simp only [State.lanesAll, hr, laneAll_inTurn h r.key r.todo s s' e, passed]

/-- The state of a thread's result. -/
def resState : ThrRes → State
  | .ok s | .trap s _ | .leave s | .park s _ => s
/-- What the bookkeeping of a run keeps: runs change, a thread takes a trap, handlers are entered. -/
structure RunKeeps (P : State → Prop) : Prop where
  run : ∀ s k g, P s → P (s.updRun k g)
  raise : ∀ s t ti, P s → P (s.raise t ti)
  settle : ∀ s, P s → P s.settle
/-- The end of a word keeps such a property. -/
theorem RunKeeps.finish {P : State → Prop} (h : RunKeeps P) (s : State) (k : RunKey) (left : Bool) (p : P s) :
    P (s.finishWord k left) :=
  iteInduction (motive := P) (fun _ => h.settle _ (h.run _ _ _ p)) fun _ => h.run _ _ _ p
/-- A run that parks keeps such a property. -/
theorem RunKeeps.park {P : State → Prop} (h : RunKeeps P) (s : State) (k : RunKey) (left : Bool) (why : ParkWhy)
    (p : P s) : P (s.parkRun k left why) :=
  iteInduction (motive := P) (fun _ => h.settle _ (h.run _ _ _ p)) fun _ => h.run _ _ _ p
/-- What a word for one thread keeps, the whole word keeps. -/
theorem laneLoop_keeps {P : State → Prop} (h : RunKeeps P) {f : State → TRef → ThrRes} {k : RunKey}
    (hf : ∀ s t, P s → P (resState (f s t))) (ts : List TRef) (left : Bool) (s : State) (p : P s) :
    P (laneLoop f k ts left s) := by
  induction ts generalizing left s with
  | nil => exact h.finish s k left p
  | cons t ts ih =>
    have q := hf s t p
    rw [laneLoop]
    generalize f s t = r at q
    cases r with
    | ok s1 => exact ih _ _ (h.run _ _ _ q)
    | trap s1 ti => exact ih _ _ (h.raise _ _ _ (h.run _ _ _ q))
    | leave s1 => exact ih _ _ (h.run _ _ _ q)
    | park s1 why => exact h.park s1 k left why q
theorem laneAll_keeps {P : State → Prop} (h : RunKeeps P) {f : State → TRef → ThrRes} {k : RunKey}
    (hf : ∀ s t, P s → P (resState (f s t))) (ts : List TRef) (left : Bool) (why : Option ParkWhy) (s : State) (p : P s) :
    P (laneAll f k ts left why s) := by
  induction ts generalizing left why s with
  | nil =>
    cases why with
    | none => exact h.finish s k left p
    | some w => exact h.park s k left w p
  | cons t ts ih =>
    have q := hf s t p
    rw [laneAll]
    generalize f s t = r at q
    cases r with
    | ok s1 => exact ih _ _ _ (h.run _ _ _ q)
    | trap s1 ti => exact ih _ _ _ (h.raise _ _ _ (h.run _ _ _ q))
    | leave s1 => exact ih _ _ _ (h.run _ _ _ q)
    | park s1 w => exact ih _ _ _ q

/-! ## Uniform words, matrix words, operations of Curd programs -/

theorem uni_eq {s : State} {a : UAgent} (h : s.agent = some a) (f : UAgent → State) : s.uni f = .next (f a) := by
  unfold State.uni
  rw [h]
theorem seqWord_eq {s : State} {c : Nat} (h : s.turn = .seq c) (f : Nat → State) : s.seqWord f = .next (f c) := by
  unfold State.seqWord
  rw [h]
theorem curdOp_eq {s : State} {q : Nat} {r : CurdRun} (h : s.turn = .curd q) (hr : (s.queue q).run = some r)
    (f : Nat → CurdRun → State) : s.curdOp f = .next (f q r) := by
  unfold State.curdOp
  rw [h]
  simp only [hr]
theorem curdTo_eq (s : State) (q : Nat) (r : CurdRun) (n : Nat) : s.curdTo q r n = curdWent s q r n := rfl
theorem curdPut_eq (s : State) (q : Nat) (r : CurdRun) (a : BitVec 4) (v : DWord) :
    s.curdPut q r a v = curdWent (curdSet s q a v) q r (r.index + 1) := rfl

/-! ## Steps -/

/-- An event at the head of the agenda is executed. -/
theorem step_event {s : State} {i : Instr} {ms : List Move} (h : s.agenda = .event i :: ms) (hc : i.cls = .event) :
    step s = runInstr i { s with agenda := ms } := by
  unfold step
  rw [h]
  simp only [hc, if_true]
/-- With an empty agenda the next word is executed, or time passes. -/
theorem step_word {s : State} (h : s.agenda = []) :
    step s = match s.nextWord with
      | .exec i s1 => runInstr i s1
      | .done s1 => .next s1 := by
  unfold step
  generalize s.agenda = l at h
  subst h
  rfl

end Sys2Proof.Laws
end

