-- ==== Sys2Proof/Tests/Slice0.lean ====
section
/-!
SUPPORT. The author's tests: words of the spec decoded, ill-formed words refused, single steps with results taken from
the spec's examples, and a witness for the hypotheses of every obligation.
-/

namespace Sys2Proof.Tests

open Sys2Proof Sys2Proof.Machine Sys2Proof.Safety

-- One theorem after the other: many kernel evaluations at once would take too many threads.
set_option Elab.async false

/-! ## Decoding: words of the spec's programs and tables, bit by bit -/

theorem decode_ld : decodeWord 0x5a024502 0 0 = .ok (.ld 4#3 0#2 9#7 10#7 2#7, 0) := by decide +kernel
theorem decode_add : decodeWord 0x00010082 0 0 = .ok (.add 4#7 1#7 (.code 2#7), 0) := by decide +kernel
theorem decode_addImm : decodeWord 0x100182fd 0 0 = .ok (.addImm 6#7 5#7 0x7d#7, 0) := by decide +kernel
theorem decode_cmp : decodeWord 0x08048307 0 0 = .ok (.cmpInteger 0#2 1#3 2#4 6#7 (.code 7#7), 0) := by decide +kernel
theorem decode_bra : decodeWord 0x2005fffa 0 0 = .ok (.bra 1#3 false 0x1fffa#17, 0) := by decide +kernel
theorem decode_call : decodeWord 0x203c0004 0 0 = .ok (.call 7#3 false 4#17, 0) := by decide +kernel
theorem decode_movi : decodeWord 0x15a0c005 0 0 = .ok (.movi 3#7 5#7, 0) := by decide +kernel
theorem decode_fma : decodeWord 0x3300c082 0 0 = .ok (.fma .f32 0#3 3#7 1#7 (.code 2#7), 0) := by decide +kernel
theorem decode_scan : decodeWord 0x5601c372 0x78 0 = .ok (.scanSegIncl 0#3 7#7 6#7 (.code 0x72#7) 0x78#7, 1) := by
  decide +kernel
theorem decode_red : decodeWord 0x66404500 0 0 = .ok (.red 2#4 1#7 10#7 0#7, 0) := by decide +kernel
theorem decode_tbArrive : decodeWord 0x6a614a7f 5 0 = .ok (.tbArrive 5#7 20#7 (.lit 5#32), 1) := by decide +kernel
theorem decode_tbExpect : decodeWord 0x6a800b7f 5 0 = .ok (.tbExpect 22#7 (.lit 5#32), 1) := by decide +kernel
theorem decode_ragged : decodeWord 0x70218a16 0 0 = .ok (.xeRagged 6#7 20#7 (.code 22#7), 0) := by decide +kernel
theorem decode_rope : decodeWord 0x7502067f 1 0 = .ok (.ropeArrive 8#7 12#7 (.lit 1#32), 1) := by decide +kernel
theorem decode_uniform : decodeWord 0x80014160 0 0 = .ok (.uniformAdd 10#8 (.reg 11#8) false, 0) := by decide +kernel
theorem decode_uniformMovi : decodeWord 0x92e14064 0 0 = .ok (.uniformMovi 10#8 0x64#13, 0) := by decide +kernel
theorem decode_trap : decodeWord 0xa2000155 0 0 = .ok (.trap 0x155#13, 0) := by decide +kernel
theorem decode_mfs : decodeWord 0xa103c0a0 0 0 = .ok (.mfs 30#8 5#8 false, 0) := by decide +kernel
theorem decode_rte : decodeWord 0xa2200000 0 0 = .ok (.rte, 0) := by decide +kernel
theorem decode_xload : decodeWord 0xc6200040 0 0 = .ok (.xload 0#8 16#8 false, 0) := by decide +kernel
theorem decode_mma : decodeWord 0xc0680004 0 0 = .ok (.mma 0#4 true true 2#3 0#8 1#8 false false, 0) := by
  decide +kernel
theorem decode_ack : decodeWord 0xc728a000 0 0 = .ok (.ack 2#3 40#8 0#2, 0) := by decide +kernel
theorem decode_afix : decodeWord 0xc748a000 0 0 = .ok (.afix 2#3 40#8, 0) := by decide +kernel
theorem decode_adrain : decodeWord 0xc6c85000 0 0 = .ok (.adrain 2#3 20#8 false false, 0) := by decide +kernel
theorem decode_trailer : isTrailer 0x7fe27c78 = true := by decide +kernel
theorem decode_recpkt : decodeCurd 0x12000000 = some .curdRecpkt := by decide +kernel
theorem decode_pkt : decodeCurd 0x10100078 = some (.curdPkt 1#4 0x78#16) := by decide +kernel
theorem decode_cmd : decodeCurd 0x1e210000 = some (.curdCmd 2#4 1#4) := by decide +kernel
theorem decode_table : decodeTableWord 32 0x00010082 = some (.add 4#7 1#7 (.code 2#7)) := by decide +kernel

/-! ## Ill-formed terms, and words that the decoder refuses by name (R52, R453) -/

theorem ill_src : Instr.wf (.add 4#7 127#7 (.code 2#7)) = false := by decide
theorem ill_dst : Instr.wf (.mov 112#7 1#7) = false := by decide
theorem ill_rmw : Instr.wf (.mad 104#7 1#7 (.code 2#7)) = false := by decide
theorem ill_long : Instr.wf (.rcp 96#7 1#7) = false := by decide
theorem ill_pair : Instr.wf (.add64 5#7 2#7 (.code 4#7)) = false := by decide
theorem ill_srcPair : Instr.wf (.jmp 105#7) = false := by decide
theorem ill_pairLong : Instr.wf (.srd 97#7 1#7 (.lit 0)) = false := by decide
theorem ill_quad : Instr.wf (.pxpack 0#2 6#7 2#7 (.code 1#7)) = false := by decide
theorem ill_mask : Instr.wf (.xlMask 2#7 0#3 5#7) = false := by decide
theorem ill_store : Instr.wf (.st 2#3 0#2 96#7 2#7 0#7) = false := by decide
theorem ill_load : Instr.wf (.ld 6#3 0#2 6#7 2#7 0#7) = false := by decide
theorem ill_queue : Instr.wf (.qpush 5#7 1#7) = false := by decide
theorem ill_tile : Instr.wf (.xpop 7#8) = false := by decide
theorem ill_umPair : Instr.wf (.afix 0#3 17#8) = false := by decide
theorem ill_cond : Instr.wf (.cmpInteger 0#2 1#3 6#4 6#7 (.code 7#7)) = false := by decide
theorem ill_round : Instr.wf (.floatAdd .f32 7#3 1#7 2#7 (.code 3#7)) = false := by decide
theorem ill_cvt : Instr.wf (.cvt 22#5 false 1#7 2#7 (.code 3#7)) = false := by decide
theorem ill_effect : Instr.wf (.fence 6#3) = false := by decide
theorem ill_counter : Instr.wf (.waitCnt 6#3 0#13) = false := by decide
theorem ill_format : Instr.wf (.mma 10#4 false false 0#3 0#8 1#8 false false) = false := by decide
/-- R52: the operand code is the subcode of BAD_OPERAND. -/
theorem refuse_operand : decodeWord 0x001c0082 0 0 = .error ⟨0x07#8, 112#8⟩ := by decide +kernel
/-- R38, R453: the lowest bit of a reserved field is the subcode of RESERVED_FIELD. -/
theorem refuse_reserved : decodeWord 0x02810041 0 0 = .error ⟨0x02#8, 0#8⟩ := by decide +kernel
/-- R54: an unassigned uniform opcode is ILLEGAL_INSTR with subcode 0. -/
theorem refuse_opcode : decodeWord 0xffe00000 0 0 = .error ⟨0x01#8, 0#8⟩ := by decide +kernel
/-- R420: a nonzero unused field. -/
theorem refuse_curd : decodeCurd 0x12000001 = none := by decide +kernel


/-! ## Small states -/

/-- A run of one thread at position 0 of a word. -/
def laneS : State := State.reset.withRun [0x00010082#32] false
/-- Some word can be executed by the run whose turn it is. -/
def turnOk (eff : Turn1) (s : State) : Bool :=
  match s.current with
  | some r => (inTurn (eff r) r.key r.todo s).isSome
  | none => false
theorem turn_witness {eff : Turn1} {s : State} (h : turnOk eff s = true) :
    ∃ r s', s.current = some r ∧ inTurn (eff r) r.key r.todo s = some s' := by
  unfold turnOk at h
  split at h
  · next r hr => exact ⟨r, _, hr, (Option.some_get h).symm⟩
  · cases h
theorem of_any {α : Type} {o : Option α} {p : α → Bool} (h : o.any p = true) : ∃ x, o = some x ∧ p x = true := by
  cases o with
  | none => cases h
  | some x => exact ⟨x, rfl, h⟩
theorem lane_current : ∃ r, laneS.current = some r := Option.isSome_iff_exists.mp (by decide +kernel)

/-! ## Witnesses: the hypotheses of each obligation hold together somewhere -/

theorem wit_LaneArithmetic : ∃ i d val s r, arith32 i = some (d, val) ∧ noQueue i = true ∧ State.current s = some r :=
  ⟨.add 4#7 1#7 (.code 2#7), _, _, laneS, _, rfl, rfl, lane_current.choose_spec⟩
theorem wit_LaneShiftsAndFields : ∃ i d val s r, shift32 i = some (d, val) ∧ noQueue i = true ∧
    State.current s = some r :=
  ⟨.shl 4#7 1#7 (.code 2#7), _, _, laneS, _, rfl, rfl, lane_current.choose_spec⟩
theorem wit_LanePairs : (∃ i d val s r, pair64 i = some (d, val) ∧ noQueue i = true ∧ State.current s = some r) ∧
    ∃ s r, noQueue (.pxpack 0#2 4#7 2#7 (.code 1#7)) = true ∧ State.current s = some r :=
  ⟨⟨.add64 4#7 2#7 (.code 2#7), _, _, laneS, _, rfl, rfl, lane_current.choose_spec⟩,
   laneS, _, rfl, lane_current.choose_spec⟩
theorem wit_LanePredicatesAndPlain :
    (∃ i p val s r, predOf i = some (p, val) ∧ noQueue i = true ∧ State.current s = some r) ∧
    ∃ i f s r, plainOf i = some f ∧ noQueue i = true ∧ State.current s = some r :=
  ⟨⟨.cmpInteger 0#2 7#3 2#4 6#7 (.code 7#7), _, _, laneS, _, rfl, rfl, lane_current.choose_spec⟩,
   .nop, _, laneS, _, rfl, rfl, lane_current.choose_spec⟩
theorem wit_LaneFloat : ∃ i w s r, floatOf i = some w ∧ noQueue i = true ∧ State.current s = some r :=
  ⟨.fma .f32 0#3 3#7 1#7 (.code 2#7), _, laneS, _, rfl, rfl, lane_current.choose_spec⟩
theorem wit_SpecialFunctions : ∃ i n d a s r, specialOf i = some (n, d, a) ∧ noQueue i = true ∧
    State.current s = some r :=
  ⟨.rcp 3#7 1#7, _, _, _, laneS, _, rfl, rfl, lane_current.choose_spec⟩
theorem wit_CrossLane : ∃ i c s r, crossOf i = some c ∧ noQueue i = true ∧ State.current s = some r :=
  ⟨.xlMask 2#7 0#3 120#7, _, laneS, _, rfl, rfl, lane_current.choose_spec⟩
theorem wit_LaneFrames : ∃ i s r, (arith32 i).isSome = true ∧ noQueue i = true ∧ State.current s = some r :=
  ⟨.add 4#7 1#7 (.code 2#7), laneS, _, rfl, rfl, lane_current.choose_spec⟩
theorem wit_BranchesTaken : ∃ s r, State.current s = some r := ⟨laneS, lane_current⟩
theorem wit_ThreadsExit : ∃ s r, State.current s = some r ∧ r.todo ≠ [] := by
  obtain ⟨r, h⟩ := lane_current
  refine ⟨laneS, r, h, ?_⟩
  have : (laneS.current.map Run.todo).all (fun l => !l.isEmpty) = true := by decide +kernel
  rw [h] at this
  simpa using this

/-- The thread's queue register q0 drains FIFO 1, which holds three words. -/
def queueS : State :=
  (laneS.updThread ⟨0, 0⟩ fun t => { t with q := t.q.set 0 (.mxdrain 1) }).updCol 0 fun x =>
    { x with seqr := { x.seqr with owner := some 0, drain := x.seqr.drain.set 1 [11, 22, 33] } }
theorem wit_QueueOperands : ∃ i srcs f s r s', laneEffect i = some (srcs, f) ∧ i.wf = true ∧ noQueue i = false ∧
    State.current s = some r ∧ inTurn (queueEff srcs f r) r.key r.todo s = some s' := by
  obtain ⟨r, s', h⟩ := turn_witness (s := queueS)
    (eff := queueEff [104#7, 104#7] ((laneEffect (.add 6#7 104#7 (.code 104#7))).get rfl).2) (by decide +kernel)
  exact ⟨.add 6#7 104#7 (.code 104#7), _, _, queueS, r, s', rfl, by decide, by decide, h⟩

/-- The thread of a run with pairs v10:v11 and v20:v21, in a workgroup with 16 KiB of scratchpad, in an open context
whose page 0 is cached; `m` is what memory holds. -/
def memS (p q : DWord) (m : List Host.Cell := []) : State :=
  let s := laneS.updThread ⟨0, 0⟩ fun t => (((t.setPair 10 p).setPair 20 q).setReg 4 3).setReg 5 2
  let w := s.wgs.map fun w => { w with scratchSize := 0x4000, hasSeq := true, task := true }
  { s with
    contexts := [openContext], tlb := [{ ctx := 0, page := 0, level := 3, leaf := 0xf#64 }]
    wgs := w, mem := m }

theorem wit_RegisterTransfers :
    (∃ i g f s r s', jumpOf i = some (g, f) ∧ State.current s = some r ∧
      inTurn (jumpTurn g f r) r.key r.todo s = some s') ∧
    ∃ i g f s r t, jumpOf i = some (g, f) ∧ State.current s = some r ∧ r.todo = [t] ∧
      (g (s.env r t.cid) (s.thread t)).toNat % 4 ≠ 0 := by
  constructor
  · obtain ⟨r, s', h⟩ := turn_witness (s := memS 0x1000 0)
      (eff := fun r => jumpTurn ((jumpOf (.jmp 10#7)).get rfl).1 ((jumpOf (.jmp 10#7)).get rfl).2 r) (by decide +kernel)
    exact ⟨.jmp 10#7, _, _, _, r, s', rfl, h⟩
  · have h : ((memS 0x1002 0).current.any fun r => r.todo == [⟨0, 0⟩] &&
        (((jumpOf (.jmp 10#7)).get rfl).1 ((memS 0x1002 0).env r 0) ((memS 0x1002 0).thread ⟨0, 0⟩)).toNat % 4 != 0)
        = true := by decide +kernel
    obtain ⟨r, hr, hx⟩ := of_any h
    simp only [Bool.and_eq_true, beq_iff_eq, bne_iff_ne] at hx
    exact ⟨.jmp 10#7, _, _, _, r, ⟨0, 0⟩, rfl, hr, hx.1, hx.2⟩
theorem wit_LoadsComplete : ∃ i size n f kind d a o s r s', loadOf i = some (size, n, f, kind, d, a, o) ∧
    State.current s = some r ∧ inTurn (loadTurn size n f kind d a o r) r.key r.todo s = some s' := by
  obtain ⟨r, s', h⟩ := turn_witness (s := memS 0x1000 0)
    (eff := loadTurn 4 1 ((loadOf (.ld 4#3 0#2 24#7 10#7 2#7)).get rfl).2.2.1 {} 24#7 10#7 2#7) (by decide +kernel)
  exact ⟨.ld 4#3 0#2 24#7 10#7 2#7, _, _, _, _, _, _, _, _, r, s', rfl, h⟩
theorem wit_StoresComplete : ∃ i policy size k op d a o s r s', storeOf i = some (policy, size, k, op, d, a, o) ∧
    State.current s = some r ∧ inTurn (storeTurn policy size k op d a o r) r.key r.todo s = some s' := by
  obtain ⟨r, s', h⟩ := turn_witness (s := memS 0x1000 0)
    (eff := storeTurn 0 4 .store ((storeOf (.st 2#3 0#2 4#7 10#7 1#7)).get rfl).2.2.2.1 4#7 10#7 1#7) (by decide +kernel)
  exact ⟨.st 2#3 0#2 4#7 10#7 1#7, _, _, _, _, _, _, _, _, r, s', rfl, h⟩
theorem wit_AtomicsComplete : ∃ i size n host f d a o s r s', atomOf i = some (size, n, host, f, d, a, o) ∧
    State.current s = some r ∧ inTurn (atomTurn size n host f d a o r) r.key r.todo s = some s' := by
  obtain ⟨r, s', h⟩ := turn_witness (s := memS 0x1000 0)
    (eff := atomTurn 4 1 true ((atomOf (.atom 0#4 4#7 10#7 0#7)).get rfl).2.2.2.1 4#7 10#7 0#7) (by decide +kernel)
  exact ⟨.atom 0#4 4#7 10#7 0#7, _, _, _, _, _, _, _, _, r, s', rfl, h⟩
theorem wit_ReleasesAndFences :
    (∃ e w d a o s r s', State.current s = some r ∧ inTurn (releaseTurn e w d a o r) r.key r.todo s = some s') ∧
    ∃ i eff s r s', fenceOf i = some eff ∧ State.current s = some r ∧ inTurn (eff r) r.key r.todo s = some s' := by
  constructor
  · obtain ⟨r, s', h⟩ := turn_witness (s := memS 0x1000 0) (eff := releaseTurn 4 true 4#7 10#7 0#7) (by decide +kernel)
    exact ⟨_, _, _, _, _, _, r, s', h⟩
  · obtain ⟨r, s', h⟩ := turn_witness (s := memS 0x1000 0) (eff := (fenceOf (.fence 4#3)).get rfl) (by decide +kernel)
    exact ⟨.fence 4#3, _, _, r, s', rfl, h⟩
/-- A scratchpad address. -/
def inPad (a : Nat) : DWord := BitVec.ofNat 64 (2 ^ 60 + a)
theorem wit_SyncWords : ∃ s i eff r s', syncOf s i = some eff ∧ State.current s = some r ∧
    inTurn (eff r) r.key r.todo s = some s' := by
  obtain ⟨r, s', h⟩ := turn_witness (s := memS (inPad 0x1000) 0)
    (eff := (syncOf (memS (inPad 0x1000) 0) (.tbExpect 10#7 (.lit 5))).get rfl) (by decide +kernel)
  exact ⟨_, .tbExpect 10#7 (.lit 5), _, r, s', rfl, h⟩
/-- Words laid out in memory. -/
def cells (a : Nat) (ws : List Nat) : List Host.Cell :=
  (List.range (4 * ws.length)).filterMap fun i =>
    let b : Byte := BitVec.ofNat 8 (ws.getD (i / 4) 0 / 256 ^ (i % 4))
    if b = 0 then none else some (a + i, b)
/-- A descriptor at 0x2020 of four 16-byte pieces from 0x100 to 0x3000. -/
def copyCells : List Host.Cell :=
  cells 0x2020 [0x100, 0, 0x3000, 0, 0, 0, 0, 0, 4, 1, 1, 1, 1, 16, 0, 0, 0, 16, 0, 0, 0, 0x12, 7, 0]
theorem wit_TransferCommandsIssue : ∃ i k d a b s r s', xeOf i = some (k, d, a, b) ∧ State.current s = some r ∧
    inTurn (xeTurn k d a b r) r.key r.todo s = some s' := by
  obtain ⟨r, s', h⟩ := turn_witness (s := memS 0x2020 0 copyCells)
    (eff := xeTurn ((xeOf (.xeCopy 6#7 10#7 (.code 120#7))).get rfl).1 6#7 10#7 (.code 120#7)) (by decide +kernel)
  exact ⟨.xeCopy 6#7 10#7 (.code 120#7), _, _, _, _, _, r, s', rfl, h⟩
theorem wit_EngineWordsIssue : ∃ i eff s r s', engineOf i = some eff ∧ State.current s = some r ∧
    inTurn (eff r) r.key r.todo s = some s' := by
  obtain ⟨r, s', h⟩ := turn_witness (s := memS 0 0) (eff := (engineOf (.srd 6#7 4#7 (.lit 0))).get rfl) (by decide +kernel)
  exact ⟨.srd 6#7 4#7 (.lit 0), _, _, r, s', rfl, h⟩
theorem wit_StoreFrame : ∃ i policy size kind op d a o s r t s1 k dst s2, storeOf i = some (policy, size, kind, op, d, a, o) ∧
    State.current s = some r ∧ r.todo = [t] ∧ (s.thread t).helper = false ∧
    access s t (s.actEa (s.crew t.cid).wid (eaOf (s.env r t.cid) (s.thread t) a o size)) size kind = some (s1, k, dst) ∧
    storeAfter s1 t k size dst = some s2 ∧ inGlobal dst = false ∧ keyRegion k = regScratch (s1.crewCol t.cid) ∧
    (∀ w ∈ s2.wgs, w.stash = []) ∧ MemoryOk s2 ∧ (s.crew t.cid).storeQ.length < 256 := by
  let s := memS (inPad 0x1000) 0
  have h : (s.current.any fun r => r.todo == [⟨0, 0⟩] && !(s.thread ⟨0, 0⟩).helper &&
      (access s ⟨0, 0⟩ (s.actEa (s.crew 0).wid (eaOf (s.env r 0) (s.thread ⟨0, 0⟩) 10#7 1#7 4)) 4 .store).any fun x =>
        (storeAfter x.1 ⟨0, 0⟩ x.2.1 4 x.2.2).any fun y =>
          decide (inGlobal x.2.2 = false ∧ keyRegion x.2.1 = regScratch (x.1.crewCol 0) ∧
            (∀ w ∈ y.wgs, w.stash = []) ∧ (Memory.wf y.mem = true ∧ Memory.wf y.keep = true) ∧
            (s.crew 0).storeQ.length < 256)) = true := by decide +kernel
  obtain ⟨r, hr, hx⟩ := of_any h
  simp only [Bool.and_eq_true, beq_iff_eq, Bool.not_eq_true'] at hx
  obtain ⟨x, ha, hy⟩ := of_any hx.2
  obtain ⟨y, hs, hy⟩ := of_any hy
  have hz := of_decide_eq_true hy
  exact ⟨.st 2#3 0#2 4#7 10#7 1#7, _, _, _, _, _, _, _, s, r, ⟨0, 0⟩, x.1, x.2.1, x.2.2, y, rfl, hr, hx.1.1, hx.1.2, ha,
    hs, hz⟩
theorem wit_CrossLaneQueues : ∃ i c s r s1 s', crossQueued i = some c ∧ i.wf = true ∧ noQueue i = false ∧
    State.current s = some r ∧ (∀ t ∈ r.todo, (s.thread t).qout = none) ∧
    poppedAll r (queueCodes (readCodes i)) r.todo s = some s1 ∧
    inTurn (crossEnded i r) r.key (s1.run r.key).todo
      { s1 with threads := crossThreads s1 r (s1.run r.key).todo c } = some s' := by
  let i : Instr := .xlPick 6#7 104#7 (.code 4#7) 120#7
  let c := (crossQueued i).get rfl
  have h : (queueS.current.any fun r => r.todo.all (fun t => (queueS.thread t).qout == none) &&
      (poppedAll r (queueCodes (readCodes i)) r.todo queueS).any fun s1 =>
        (inTurn (crossEnded i r) r.key (s1.run r.key).todo
          { s1 with threads := crossThreads s1 r (s1.run r.key).todo c }).any fun _ => true) = true := by decide +kernel
  obtain ⟨r, hr, h⟩ := of_any h
  obtain ⟨h1, h⟩ := Bool.and_eq_true_iff.mp h
  obtain ⟨s1, hs, h⟩ := of_any h
  obtain ⟨s', h', -⟩ := of_any h
  exact ⟨i, c, queueS, r, s1, s', rfl, by decide, by decide, hr, by simpa using h1, hs, h'⟩

/-! ### Uniform words -/

/-- A crew run, or the sequencer, with g6 and g7. -/
def uniS (x y : DWord) (seq : Bool := false) : State :=
  let s := memS 0 0
  let s1 := (s.updCrew 0 fun c => { c with g := (c.g.set 6 x).set 7 y }).updCol 0 fun c => { c with
    seqr := { c.seqr with holder := some 0, running := true, g := (c.seqr.g.set 6 x).set 7 y } }
  { s1 with
    runs := s1.runs.map fun r => { r with crewRun := some 0 }
    turn := if seq then .seq 0 else s1.turn }
theorem crew_agent (x y : DWord) : ∃ r, (uniS x y).agent = some (.crew r 0) := by
  refine ⟨((uniS x y).agent.bind fun a => match a with | .crew r _ => some r | _ => none).getD (.empty ⟨0, 0, 0⟩), ?_⟩
  rfl
theorem seq_agent (x y : DWord) : (uniS x y true).agent = some (.seq 0) := rfl

theorem wit_UniformResults : ∃ i d lo n f s a, uniformOf i = some (d, lo, n, f) ∧ State.agent s = some a :=
  ⟨.uniformAdd 6#8 (.reg 7#8) false, _, _, _, _, _, _, rfl, (crew_agent 1 2).choose_spec⟩
theorem wit_UniformTransfers :
    (∃ i o taken s a, uBranchOf i = some (o, taken) ∧ State.agent s = some a) ∧
    (∃ s a, State.agent s = some a ∧ (s.uVal a (.reg 6#8)).toNat % 4 = 0) ∧
    (∃ s r cid, State.agent s = some (.crew r cid) ∧ (s.uVal (.crew r cid) (.reg 6#8)).toNat % 4 ≠ 0) ∧
    ∃ s c, State.agent s = some (.seq c) ∧ (s.uVal (.seq c) (.reg 6#8)).toNat % 4 ≠ 0 := by
  refine ⟨⟨.bz 6#8 5#13, _, _, _, _, rfl, (crew_agent 0 0).choose_spec⟩,
    ⟨uniS 0x40 0 true, .seq 0, seq_agent _ _, by decide +kernel⟩, ?_, uniS 0x42 0 true, 0, seq_agent _ _, by decide +kernel⟩
  obtain ⟨a, ha, h⟩ := of_any (o := (uniS 0x42 0).agent)
    (p := fun a => match a with
      | .crew r cid => decide (((uniS 0x42 0).uVal (.crew r cid) (.reg 6#8)).toNat % 4 ≠ 0)
      | .seq _ => false) (by decide +kernel)
  cases a with
  | crew r cid => exact ⟨_, r, cid, ha, of_decide_eq_true h⟩
  | seq c => cases h
theorem wit_UniformAccesses :
    (∃ i size f kind d b lo s a s1 k dst s2 s3 base, uLoadOf i = some (size, f, kind, d, b, lo) ∧ State.agent s = some a ∧
      uReach s a (s.uVal a b) size .load = some (s1, k, dst) ∧ uReads s1 a kind k size = some s2 ∧
      (s2.acquired (s1.uCol a) kind.acquire).readBase (s1.uCol a) a.ref.cid (s2.uWid a) (s2.uAddr a) a.word kind dst
        (s.actEa (s.uWid a) (s.uVal a b)) k size = .ok s3 base) ∧
    ∃ i rel size d b s a s1 k dst s2, uStoreOf i = some (rel, size, d, b) ∧ State.agent s = some a ∧
      s.uSealedOwn a = none ∧ uReach s a (s.uVal a b) size .store = some (s1, k, dst) ∧ s1.uUnsealed a = [] ∧
      uStored s1 a rel (s.actEa (s.uWid a) (s.uVal a b)) k dst (toLe size (s.ug a d).toNat) = some s2 := by
  let s := uniS 0x1000 0 true
  let a : UAgent := .seq 0
  let p := s.actEa (s.uWid a) 0x1000
  constructor
  · have h : ((uReach s a 0x1000 4 .load).any fun x => (uReads x.1 a {} x.2.1 4).any fun s2 =>
        match (s2.acquired (x.1.uCol a) 0).readBase (x.1.uCol a) a.ref.cid (s2.uWid a) (s2.uAddr a) a.word {} x.2.2 p
          x.2.1 4 with
        | .ok .. => true
        | _ => false) = true := by decide +kernel
    obtain ⟨⟨s1, k, g⟩, hx, h⟩ := of_any h
    obtain ⟨s2, hs, h⟩ := of_any h
    dsimp only at h
    split at h
    · next s3 base he =>
      exact ⟨.uniformLd 2#3 8#8 (.reg 6#8) false, _, _, _, _, _, _, s, a, s1, k, g, s2, s3, base, rfl, seq_agent _ _, hx,
        hs, he⟩
    · cases h
  · have h : ((uReach s a 0x1000 4 .store).any fun x => (x.1.uUnsealed a).isEmpty &&
        (uStored x.1 a false p x.2.1 x.2.2 (toLe 4 (s.ug a 7#8).toNat)).any fun _ => true) = true := by decide +kernel
    obtain ⟨⟨s1, k, g⟩, hx, h⟩ := of_any h
    simp only [Bool.and_eq_true, List.isEmpty_iff] at h
    obtain ⟨s2, hs, -⟩ := of_any h.2
    exact ⟨.uniformSt 2#3 7#8 (.reg 6#8), _, _, _, _, s, a, s1, k, g, s2, rfl, seq_agent _ _, by decide +kernel, hx,
      h.1, hs⟩
theorem wit_SystemRegisters :
    (∃ n s a v, State.agent s = some a ∧ s.readSys a n = some v) ∧
    (∃ n s c v, State.agent s = some (.seq c) ∧ s.readSys (.seq c) n = some v) ∧
    (∃ n s r cid v, State.agent s = some (.crew r cid) ∧ s.readSys (.crew r cid) n = some v) ∧
    (∃ b s a, State.agent s = some a ∧ s.uWaitsFor a = none ∧ t64ToNs (s.uVal a b) ≤ t64ToNs s.time) ∧
    (∃ b s a, State.agent s = some a ∧ s.uWaitsFor a = none ∧ t64ToNs s.time < t64ToNs (s.uVal a b)) ∧
    ∃ s a at_ v, State.agent s = some a ∧ s.uWaitsFor a = some (at_, some v) := by
  have h : ((uniS 0 0).agent.any fun a => ((uniS 0 0).readSys a 5).any fun _ => match a with
    | .crew .. => true
    | _ => false) = true := by decide +kernel
  obtain ⟨a, ha, h⟩ := of_any h
  obtain ⟨v, hv, h⟩ := of_any h
  have h2 : (((uniS 0 0 true).readSys (.seq 0) 33).any fun _ => true) = true := by decide +kernel
  obtain ⟨w, hw, -⟩ := of_any h2
  refine ⟨⟨5, _, a, v, ha, hv⟩, ⟨33, _, 0, w, seq_agent _ _, hw⟩, ?_,
    ⟨.reg 6#8, uniS 0 0 true, .seq 0, seq_agent _ _, by decide +kernel⟩,
    ⟨.reg 6#8, uniS 0x0000000100000000 0 true, .seq 0, seq_agent _ _, by decide +kernel⟩,
    (uniS 0 0 true).updCol 0 fun x => { x with seqr := { x.seqr with waitsFor := some (5, some 9) } }, .seq 0, 5, 9, rfl,
    by decide +kernel⟩
  cases a with
  | crew r cid => exact ⟨5, _, r, cid, v, ha, hv⟩
  | seq c => cases h
theorem wit_CrewWords : ∃ i s r cid t, State.agent s = some (.crew r cid) ∧ crewWordOf r cid s i = some t := by
  have h : ((uniS 0 0).agent.any fun a => match a with
    | .crew r cid => (crewWordOf r cid (uniS 0 0) (.trap 5#13)).any fun _ => true
    | _ => false) = true := by decide +kernel
  obtain ⟨a, ha, h⟩ := of_any h
  cases a with
  | crew r cid => obtain ⟨t, ht, -⟩ := of_any h; exact ⟨.trap 5#13, _, r, cid, t, ha, ht⟩
  | seq c => cases h
theorem wit_SequencerWords : ∃ s c n, State.agent s = some (.seq c) ∧ ¬ (32 ≤ n ∧ n ≤ 36) ∧ n ≠ 48 ∧ n ≠ 49 :=
  ⟨uniS 0 0 true, 0, 37, seq_agent _ _, by decide, by decide, by decide⟩

/-! ### Matrix words -/

/-- The sequencer with the matrix descriptor g16:g17. -/
def mxS (base w : DWord) : State :=
  let s := uniS 0 0 true
  s.updCol 0 fun c => { c with seqr := { c.seqr with g := (c.seqr.g.set 16 base).set 17 w } }
theorem wit_MatrixWords : ∃ i, ∃ s : State, ∃ c t, s.turn = .seq c ∧ matrixOf s c i = some t := by
  have h : ((matrixOf (mxS (inPad 0x1000) 0xc0) 0 (.azero 2#3)).any fun _ => true) = true := by decide +kernel
  obtain ⟨t, ht, -⟩ := of_any h
  exact ⟨_, _, 0, t, rfl, ht⟩
theorem wit_MatrixRefusals :
    (∃ s : State, ∃ c n adv, s.turn = .seq c ∧ 4 ≤ n.toNat ∧ (s.mxDesc c n).bad 192 adv true = some 1#8) ∧
    (∃ s : State, ∃ c n adv, s.turn = .seq c ∧ (s.mxDesc c n).bad 32 adv false = some 1#8) ∧
    (∃ s : State, ∃ c n, s.turn = .seq c ∧ ptrOff (s.ug (.seq c) n) % 32 ≠ 0) ∧
    (∃ s : State, ∃ c n, s.turn = .seq c ∧ 64 < (s.ug (.seq c) (n + 1)).toNat) ∧
    ∃ s : State, ∃ c wid, (s.col c).seqr.holder = some wid ∧ (s.wg wid).fault = none ∧ ∃ w ∈ s.wgs, w.wid = wid :=
  let s := mxS 0x1004 0x45
  ⟨⟨s, 0, 16#8, true, by decide +kernel⟩, ⟨s, 0, 16#8, true, by decide +kernel⟩, ⟨s, 0, 16#8, by decide +kernel⟩,
   ⟨s, 0, 16#8, by decide +kernel⟩, mxS 0 0, 0, 0, by decide +kernel⟩
/-! ### Curd programs and launches -/

theorem of_dev {o : DevOut} (h : (match o with | .ok .. => true | _ => false) = true) : ∃ s1 bs, o = .ok s1 bs := by
  cases o with
  | ok s1 bs => exact ⟨s1, bs, rfl⟩
  | bad => cases h
  | fault => cases h
theorem of_eng {o : EngOut} (h : (match o with | .ok .. => true | _ => false) = true) : ∃ s1 bs, o = .ok s1 bs := by
  cases o with
  | ok s1 bs => exact ⟨s1, bs, rfl⟩
  | fail => cases h
  | wait => cases h
  | fault => cases h

/-- Context 0 open, its page 0 cached. -/
def opened (s : State) : State :=
  { s with contexts := [{ openContext with num := 0 }], tlb := [{ ctx := 0, page := 0, level := 3, leaf := 0xf#64 }] }
def runW : CurdRun := { index := 0 }
/-- Queue 0 in a packet run. -/
def curS (park : CurdPark := .running) (f : Queue → Queue := id) : State :=
  (opened (State.reset.withCurd 0)).updQueue 0 fun q => { f q with run := some { runW with park := park } }
theorem cur_run : (curS.queue 0).run = some runW := by decide +kernel

theorem wit_CurdWords : ∃ i, ∃ s : State, ∃ q r t, s.turn = .curd q ∧ (s.queue q).run = some r ∧ curdOf s q r i = some t :=
  ⟨.curdLdi 5#4 9#16, curS, 0, _, _, rfl, cur_run, rfl⟩

def cmdC (op : Byte) (arg : Word) : Command := { op := op, arg := arg, src := 0, len := 0, dst := 0, reg := 5 }
theorem wit_CommandsComplete : ∃ i, ∃ s : State, ∃ q r c n t, (s.queue q).run = some r ∧ r.park = .command ∧
    r.cmd = some c ∧ c.op.toNat = n ∧ commandOf s r c i = some (q, n, some t) := by
  let r : CurdRun := { runW with park := .command, cmd := some (cmdC 2 4) }
  let s := (curS.updQueue 0 fun q => { q with run := some r }).updQueue 4 fun q => { q with installed := true, stopped := true }
  have h : ((commandOf s r (cmdC 2 4) (.queueRestart 0)).any fun x => x.1 == 0 && x.2.1 == 2 && x.2.2.isSome) = true := by
    decide +kernel
  obtain ⟨⟨q, n, o⟩, hx, h⟩ := of_any h
  simp only [Bool.and_eq_true, beq_iff_eq] at h
  obtain ⟨⟨rfl, rfl⟩, h⟩ := h
  obtain ⟨t, rfl⟩ := Option.isSome_iff_exists.mp h
  exact ⟨_, s, 0, r, _, 2, t, by decide +kernel, rfl, rfl, rfl, hx⟩

theorem wit_CurdErrors :
    (∃ s : State, ∃ q r, s.turn = .curd q ∧ (s.queue q).run = some r ∧ (s.queue q).admin = false ∧
      (∀ b, ((s.queue q).handles.find? fun y => y.1 == ((s.queue q).reg b).toNat) = none) ∧
      recordOk (s.queue q).record = false) ∧
    (∃ s : State, ∃ q r b n, s.turn = .curd q ∧ (s.queue q).run = some r ∧
      ((s.queue q).reg b + (n : BitVec 16).signExtend 64).toNat % 8 ≠ 0) ∧
    ∃ s : State, ∃ q r, s.turn = .curd q ∧ (s.queue q).run = some r ∧ r.park = .running ∧ r.budget = 0 :=
  ⟨⟨curS .running fun q => { q with record := List.replicate 128 0xff }, 0, runW, by decide +kernel⟩,
   ⟨curS, 0, runW, 3#4, 0xfff9#16, by decide +kernel⟩,
   curS.updQueue 0 fun q => { q with run := some { runW with budget := 0 } }, 0, { runW with budget := 0 }, by decide +kernel⟩
/-- Queue 0 with a ring of two slots of which one is full, no run in progress. -/
def idleS (f : Queue → Queue := id) : State :=
  (opened (State.reset.withCurd 0)).updQueue 0 fun q => { f q with run := none, ring := 0x1000, slots := 2 }
theorem wit_CurdRuns :
    (∃ s : State, ∃ q s1 bs, s.canTake (s.queue q) = true ∧ s.nextServed q = true ∧ s.curdIdle = true ∧
      ({ s with lastServed := q } : State).devRead (s.queue q).ctx
        (ptrAdd (s.queue q).ring (128 * ((s.queue q).head.toNat % (s.queue q).slots))) 128 true = .ok s1 bs) ∧
    (∃ s : State, ∃ q h st rest e, (s.queue q).completions = (h, st) :: rest ∧ q < 256 ∧
      (s.program (s.queue q).program).entryDone = some e ∧ (s.queue q).installed = true ∧
      (s.queue q).stopped = false ∧ (s.queue q).run = none ∧ s.handing = false ∧ s.curdIdle = true) ∧
    (∃ s : State, ∃ q r n v, (s.queue q).run = some r ∧ (s.queue q).errWait = [] ∧ s.handing = false ∧ r.park = .sem n v ∧
      serialGe (s.sem n) v = true) ∧
    (∃ s : State, ∃ q r v, (s.queue q).run = some r ∧ (s.queue q).errWait = [] ∧ s.handing = false ∧ r.park = .time v ∧
      t64ToNs v ≤ t64ToNs s.time) ∧
    ∃ s : State, ∃ q r h, (s.queue q).run = some r ∧ (s.queue q).errWait = [] ∧ s.handing = false ∧ r.park = .launch h ∧
      s.launchBound (s.queue q) h = true := by
  refine ⟨?_, ?_, ⟨curS (.sem 3 0), 0, { runW with park := .sem 3 0 }, 3, 0, by decide +kernel⟩,
    ⟨curS (.time 0), 0, { runW with park := .time 0 }, 0, by decide +kernel⟩,
    curS (.launch 0), 0, { runW with park := .launch 0 }, 0, by decide +kernel⟩
  · let s := idleS fun q => { q with tail := 1 }
    obtain ⟨s1, bs, h⟩ := of_dev (o := ({ s with lastServed := 0 } : State).devRead (s.queue 0).ctx
      (ptrAdd (s.queue 0).ring (128 * ((s.queue 0).head.toNat % (s.queue 0).slots))) 128 true) (by decide +kernel)
    have hs : s.canTake (s.queue 0) = true ∧ s.nextServed 0 = true ∧ s.curdIdle = true := by decide +kernel
    exact ⟨s, 0, s1, bs, hs.1, hs.2.1, hs.2.2, h⟩
  · let s0 := idleS fun q => { q with completions := [(3, 0)] }
    let s : State := { s0 with programs := s0.programs.map fun p => { p with entryDone := some 0 } }
    exact ⟨s, 0, 3, 0, [], 0, by decide +kernel⟩
/-- A launch in context 0, whose record has DONE_AT at an address. -/
def launchS (f : Launch → Launch := id) : State :=
  { opened State.reset with launches := [f { lid := 3, queue := 0, record := List.replicate 128 0 }] }
theorem wit_LaunchesProceed :
    (∃ s : State, ∃ lid f fs s1 bs, (s.launch lid).bounds = f :: fs ∧ (s.launch lid).phase = .binding ∧
      serialGe (s.sem f.sem) f.target = true ∧ s.engFree lid = true ∧ (s.eng lid).failed = none ∧
      s.devRead (s.launch lid).ctx f.ptr 8 true = .ok s1 bs) ∧
    (∃ s : State, ∃ lid, (s.launch lid).phase = .queued ∧ (s.launch lid).refused = none ∧
      s.attached (s.launch lid) = true ∧ t64ToNs (s.launch lid).notBefore ≤ s.timeNs) ∧
    (∃ s : State, ∃ lid s2 bs, (∃ x ∈ s.launches, x.lid = lid) ∧ s.launchOver (s.launch lid) = true ∧
      s.recordWaits (s.launch lid) = false ∧
      let l := s.launch lid
      let s0 := l.cores.foldl (fun acc c => acc.drain c) s
      let st := l.status.getD (s0.statusWord l)
      let s1 := s0.updLaunch l.lid fun x => { x with status := some st }
      s.handing = false ∧ (s.doneHeld = [] ∨ s.doneHeld.head? = some lid) ∧ s1.engFree lid = true ∧
      (s1.eng lid).failed = none ∧ l.doneAt ≠ 0 ∧ s1.devWrite l.ctx l.doneAt (toLe 8 st.toNat) true = .ok s2 bs) ∧
    ∃ s : State, ∃ lid, (∃ x ∈ s.launches, x.lid = lid) ∧ s.launchOver (s.launch lid) = true ∧
      s.recordWaits (s.launch lid) = false ∧ s.handing = true ∧ lid ∉ s.doneHeld := by
  let done := launchS fun l => { l with phase := .done, refused := some 1, record := setBytes l.record 96 [0, 0x10] }
  refine ⟨?_, ⟨launchS fun l => { l with phase := .queued, record := List.replicate 112 0 ++ [255] }, 3, by decide +kernel⟩,
    ?_, { done with staged := some {}, queues := (curS.updQueue 0 fun q => { q with
      run := some { runW with park := .command, cmd := some (cmdC 10 1) } }).queues }, 3, ?_⟩
  · let s := launchS fun l => { l with bounds := [⟨0x1000, 0, 3, 0⟩] }
    obtain ⟨s1, bs, h⟩ := of_dev (o := s.devRead (s.launch 3).ctx 0x1000 8 true) (by decide +kernel)
    have hs : serialGe (s.sem 3) 0 = true ∧ s.engFree 3 = true ∧ (s.eng 3).failed = none := by decide +kernel
    exact ⟨s, 3, _, [], s1, bs, rfl, rfl, hs.1, hs.2.1, hs.2.2, h⟩
  · let s := done
    let l := s.launch 3
    let s0 := l.cores.foldl (fun acc c => acc.drain c) s
    let st := l.status.getD (s0.statusWord l)
    let s1 := s0.updLaunch l.lid fun x => { x with status := some st }
    obtain ⟨s2, bs, h⟩ := of_dev (o := s1.devWrite l.ctx l.doneAt (toLe 8 st.toNat) true) (by decide +kernel)
    have hs : (∃ x ∈ s.launches, x.lid = 3) ∧ s.launchOver l = true ∧ s.recordWaits l = false ∧ s.handing = false ∧
      (s.doneHeld = [] ∨ s.doneHeld.head? = some 3) ∧ s1.engFree 3 = true ∧ (s1.eng 3).failed = none ∧ l.doneAt ≠ 0 := by
      decide +kernel
    obtain ⟨a, b, c, d, e, f, g, k⟩ := hs
    exact ⟨s, 3, s2, bs, a, b, c, d, e, f, g, k, h⟩
  · decide +kernel

/-! ### Streams, time and ropes -/

/-- A receive stream 0 with a frame, a transmit stream 1 with a packet to send, a rope of members 0 and 1. -/
def streamS : State :=
  let rope : Rope := { enable := true, mask := 3, num := 1000, next := 200 }
  { opened State.reset with
    timeNs := 200000000
    streams :=
      [{ num := 0, transmit := false, desc := List.replicate 128 0, ctx := 0,
         frames := [{ rtp := 0, buffer := 0, first := 0, pres := 0, number := 0, obj := 0 }] },
       { num := 1, transmit := true, ctx := 0, sends := [{ instant := 0, ik := 0, obj := none, buf := 0x1000 }]
         desc := List.replicate 7 0 ++ [0xff] ++ toLe 2 4 ++ toLe 2 2 ++ toLe 2 10 ++ List.replicate 34 0 ++ toLe 4 60 ++
           toLe 4 1 ++ List.replicate 72 0 }]
    ropes := (State.reset.ropes.set 0 rope).set 1 { rope with expelled := [{ member := 0, first := 1 }] } }
theorem wit_TimeAndStreamEvents :
    (∃ p, ∃ s : State, s.barLive p = true) ∧ (∃ p : Packet, p.sumOk = true) ∧
    (∃ s : State, ∃ n x f, s.stream? false n = some x ∧ f ∈ x.frames ∧ f.first + 100000000 ≤ s.timeNs) ∧
    (∃ s : State, ∃ n x k, s.stream? true n = some x ∧
      instantAt (s.cadence x).1 (s.cadence x).2 (s.timeNs + 2000) = some k ∧
      (∀ t, x.lastIk = some t → t < instantOf (s.cadence x).1 (s.cadence x).2 k) ∧
      (x.rope < 4 → ((s.rope x.rope).presents k).isSome = true)) ∧
    ∃ s : State, ∃ n x h hs ts, s.stream? true n = some x ∧ x.sends = hs ++ h :: ts ∧
      (∀ e ∈ hs, e.sent = 0 ∧ s.timeNs < e.ik + x.offsetNs) ∧ (h.sent ≠ 0 ∨ h.ik + x.offsetNs ≤ s.timeNs) := by
  have ht : ((streamS.stream? true 1).any fun x => decide (instantAt (streamS.cadence x).1 (streamS.cadence x).2
      (streamS.timeNs + 2000) = some 12 ∧ x.lastIk = none ∧ 4 ≤ x.rope)) = true := by decide +kernel
  obtain ⟨y, hy, h⟩ := of_any ht
  obtain ⟨h1, h2, h3⟩ := of_decide_eq_true h
  let later : TxSend := { instant := 9, ik := 300000000, obj := none, buf := 0x1000 }
  let s : State := { streamS with streams := streamS.streams.map fun x => { x with sends := later :: x.sends } }
  refine ⟨⟨.a, { State.reset with phase := .live, portAUp := true }, rfl⟩,
    ⟨{ dst := 0, src := 0, port := 0, sumOk := true, seq := 0, rtp := 0, rows := [], payload := [] }, rfl⟩,
    ⟨streamS, 0, _, _, rfl, List.mem_singleton.mpr rfl, by decide⟩,
    ⟨streamS, 1, y, 12, hy, h1, by simp [h2], fun h => absurd h (by omega)⟩, s, 1, _, _, [later], [], rfl, rfl, ?_⟩
  decide +kernel
theorem wit_RopeEvents :
    (∃ s : State, ∃ n m k, (s.rope n).active = true ∧ (s.rope n).others.contains m = true ∧
      (s.rope n).isDecided k = false ∧ s.timeNs ≤ (s.rope n).instant k - 2000) ∧
    (∃ s : State, ∃ n k, (s.rope n).active = true ∧ (s.rope n).instant k - 2000 ≤ s.timeNs ∧ k = (s.rope n).due) ∧
    (∃ s : State, ∃ n m, (s.rope n).active = true ∧ (s.rope n).others.contains m = true ∧ n < 4) ∧
    ∃ p, ∃ s : State, ∃ n j, s.barLive p = true ∧ n < 4 ∧ (s.rope n).frameAt s.timeNs = some j ∧
      ((s.rope n).expelled.any fun e => e.member == (s.rope n).self && e.back.isNone) = true :=
  ⟨⟨streamS, 0, 1, 201, by decide +kernel⟩, ⟨streamS, 0, 200, by decide +kernel⟩, ⟨streamS, 0, 1, by decide +kernel⟩,
   .a, { streamS with phase := .live, portAUp := true }, 1, 200, by decide +kernel⟩
/-! ### Engines -/

def xeC : XeCmd :=
  { id := 9, cid := 0, kind := .fill, tb := none, wend := 0, seq := 0
    desc := { src := 0, dst := 0x1000, aux := 0, chanAt := 0, ext := [], spitch := [], dpitch := [], ctl := 0, pad := 0,
              resv := false } }
/-- A transaction barrier at scratchpad offset 0x100, a command of no element on channel 0, a table on its way to
slot 0, a push and a draw, a ray of a scene of one leaf that it misses. -/
def engS : State :=
  let s := memS 0x1000 0 (cells 0x2000 [0x2040, 0, 0x3000, 0, 1, 1] ++ cells 0x2040 [0, 0, 0, 0, 0, 0, 0x80000001, 0])
  { s with
    tbs := [mkKey (regScratch 0) 0x100]
    xe := [{ wid := 0, chans := Vector.set (.replicate 8 {}) 0 { cmds := [xeC] }
             luts := Vector.set (.replicate 4 {}) 0 { loads := [⟨10, 0, 0x1000, 1⟩] } }]
    smps := [{ key := 1, cfg := {}, work := [.push 11 0 ⟨0, 0x1000⟩ 0x1000] },
             { key := 2, cfg := { topp := 0x3f800000, temp := 0x3f800000 }
               work := [.draw 12 ⟨0, 0⟩ ⟨0, 0x1100⟩], logits := [0] }]
    rays := [{ id := 13, cid := 0, tid := 0, q := 0, scene := 0x2000, flags := 0
               regs := [0x40400000, 0x40400000, 0x40400000, 0, 0x3f800000, 0, 0, 0x42c80000] }] }
theorem wit_TransferEvents :
    (∃ s : State, ∃ c off, s.tbs.contains (mkKey (regScratch c) off) = true ∧
      (s.tb (mkKey (regScratch c) off)).pending = 0 ∧ (s.tb (mkKey (regScratch c) off)).sectors = 0 ∧
      (s.col c).awake = true) ∧
    (∃ s : State, ∃ wid ch c cs, (s.chan wid ch).cmds = c :: cs ∧ s.engFree c.id = true ∧ c.failed = none ∧
      c.lut = none ∧ (s.eng c.id).failed = none ∧ c.tableBad = false) ∧
    (∃ s : State, ∃ wid ch c cs s0 bs, (s.chan wid ch).cmds = c :: cs ∧ c.lut = none ∧
      (c.desc.count ≤ c.pos ∨ c.failed.isSome = true) ∧ s.engFree c.id = true ∧ (s.eng c.id).failed = none ∧
      sidesCan wid (c.sides !((c.sectorsFrom 0).filter fun x => !c.posted.contains x).isEmpty) s = .ok s0 bs) ∧
    ∃ s : State, ∃ wid slot l ls s1 bs, (s.lutSlot wid slot).loads = l :: ls ∧ s.engFree l.id = true ∧
      (s.eng l.id).failed = none ∧ s.engRead wid l.ptr (16 * l.vlen) = .ok s1 bs := by
  let c1 : XeCmd := { xeC with pos := 1 }
  let s : State := { engS with xe := engS.xe.map fun x => { x with chans := x.chans.map fun y =>
    { y with cmds := y.cmds.map fun k => { k with pos := 1 } } } }
  obtain ⟨s0, bs0, h0⟩ := of_eng (o := sidesCan 0 (c1.sides !((c1.sectorsFrom 0).filter fun x =>
    !c1.posted.contains x).isEmpty) s) (by decide +kernel)
  have hc : (s.chan 0 0).cmds = [c1] ∧ c1.lut = none ∧ (c1.desc.count ≤ c1.pos ∨ c1.failed.isSome = true) ∧
    s.engFree c1.id = true ∧ (s.eng c1.id).failed = none := by decide +kernel
  obtain ⟨s1, bs, h⟩ := of_eng (o := engS.engRead 0 0x1000 16) (by decide +kernel)
  have hl : (engS.lutSlot 0 0).loads = [⟨10, 0, 0x1000, 1⟩] ∧ engS.engFree 10 = true ∧ (engS.eng 10).failed = none := by
    decide +kernel
  exact ⟨⟨engS, 0, 0x100, by decide +kernel⟩, ⟨engS, 0, 0, xeC, [], by decide +kernel⟩,
    ⟨s, 0, 0, c1, [], s0, bs0, hc.1, hc.2.1, hc.2.2.1, hc.2.2.2.1, hc.2.2.2.2, h0⟩,
    engS, 0, 0, ⟨10, 0, 0x1000, 1⟩, [], s1, bs, hl.1, hl.2.1, hl.2.2, h⟩
theorem of_poke {o : PokeOut} (h : (match o with | .ok => true | _ => false) = true) : o = .ok := by
  cases o with
  | ok => rfl
  | wait => cases h
  | fault => cases h
theorem wit_SamplingEvents :
    (∃ id, ∃ s : State, ∃ c cid a addr s1 bs, s.smpOf id = some c ∧
      SmpCtx.nextPush c.full c.work = some (.push id cid a addr) ∧ s.engFree id = true ∧ (s.eng id).failed = none ∧
      (∀ x ∈ c.lost, x.1 ≠ id) ∧ (c.cfg.total - c.logits.length = 0 ∨ ptrOff addr % 4 = 0) ∧
      s.engRead a.wid addr (4 * (c.cfg.total - c.logits.length)) = .ok s1 bs ∧ s1.smpCan a = .ok) ∧
    ∃ id, ∃ s : State, ∃ c t a s1 ctx s2 w, s.smpOf id = some c ∧ c.nextDraw = some (id, t, a) ∧ s.engFree id = true ∧
      (s.eng id).failed = none ∧ (∀ x ∈ c.lost, x.1 ≠ id) ∧ c.failed = false ∧ s.engRead a.wid a.ptr 20 = .ok s1 ctx ∧
      s1.evalDraw a.wid c ctx = .ok s2 w ∧ s2.smpCan a = .ok := by
  constructor
  · let c := (engS.smpOf 11).get rfl
    have hx : (match engS.engRead 0 0x1000 4 with
      | .ok s1 _ => (match s1.smpCan ⟨0, 0x1000⟩ with | .ok => true | _ => false)
      | _ => false) = true := by decide +kernel
    have hc : SmpCtx.nextPush c.full c.work = some (.push 11 0 ⟨0, 0x1000⟩ 0x1000) ∧ engS.engFree 11 = true ∧
      (engS.eng 11).failed = none ∧ (∀ x ∈ c.lost, x.1 ≠ 11) := by decide +kernel
    split at hx
    · next s1 bs he => exact ⟨11, engS, c, 0, ⟨0, 0x1000⟩, 0x1000, s1, bs, rfl, hc.1, hc.2.1, hc.2.2.1, hc.2.2.2,
        .inr (by decide +kernel), he, of_poke hx⟩
    · cases hx
  · let c := (engS.smpOf 12).get rfl
    have hx : (match engS.engRead 0 0x1100 20 with
      | .ok s1 ctx => (match s1.evalDraw 0 c ctx with
        | .ok s2 _ => (match s2.smpCan ⟨0, 0x1100⟩ with | .ok => true | _ => false)
        | _ => false)
      | _ => false) = true := by decide +kernel
    have hc : c.nextDraw = some (12, ⟨0, 0⟩, ⟨0, 0x1100⟩) ∧ engS.engFree 12 = true ∧ (engS.eng 12).failed = none ∧
      (∀ x ∈ c.lost, x.1 ≠ 12) ∧ c.failed = false := by decide +kernel
    obtain ⟨h1, h2, h3, h4, h5⟩ := hc
    split at hx
    · next s1 ctx hs =>
      split at hx
      · next s2 w h => exact ⟨12, engS, c, ⟨0, 0⟩, ⟨0, 0x1100⟩, s1, ctx, s2, w, rfl, h1, h2, h3, h4, h5, hs, h, of_poke hx⟩
      · cases hx
    · cases hx
theorem of_scene {o : SceneOut} (h : (match o with | .ok .. => true | _ => false) = true) : ∃ s w, o = .ok s w := by
  cases o with
  | ok s w => exact ⟨s, w, rfl⟩
  | bad => cases h
  | wait => cases h
  | fault => cases h
theorem wit_TraversalEvents :
    (∃ c ray, ∃ s : State, ∃ y g s1 hits, (s.rays.find? fun y => y.id == ray && s.crewCol y.cid == c) = some y ∧
      y.phase = .traced ∧ (s.col c).gated = false ∧ (s.col c).powered = true ∧ s.engFree ray = true ∧
      rayGeo y.regs = some g ∧ (s.eng ray).failed = none ∧ s.sceneHits (s.crew y.cid).wid y.scene g = .ok s1 hits) ∧
    (∃ c ray, ∃ s : State, ∃ y w ws, (s.rays.find? fun y => y.id == ray && s.crewCol y.cid == c) = some y ∧
      y.phase = .sending ∧ (s.col c).gated = false ∧ (s.col c).powered = true ∧ s.firstRay y = true ∧
      y.cands = w :: ws ∧ (s.wg (s.crew y.cid).wid).fault = none) ∧
    ∃ c ray, ∃ s : State, ∃ y, (s.rays.find? fun y => y.id == ray && s.crewCol y.cid == c) = some y ∧
      y.phase = .sending ∧ (s.col c).gated = false ∧ (s.col c).powered = true ∧ s.firstRay y = true ∧ y.cands = [] := by
  let sending (ws : List (List Word)) : State :=
    { engS with rays := engS.rays.map fun y => { y with phase := .sending, cands := ws } }
  let ray (ws : List (List Word)) : Ray := ((sending ws).rays.head?).getD (((engS.rays.head?).get rfl))
  refine ⟨?_, ⟨0, 13, sending [[1]], ray [[1]], [1], [], by decide +kernel⟩, 0, 13, sending [], ray [], by decide +kernel⟩
  have h : (engS.rays.find? fun y => y.id == 13 && engS.crewCol y.cid == 0).any (fun y => (rayGeo y.regs).any fun g =>
      decide (y.phase = .traced ∧ (engS.col 0).gated = false ∧ (engS.col 0).powered = true ∧ engS.engFree 13 = true ∧
        (engS.eng 13).failed = none) &&
      match engS.sceneHits (engS.crew y.cid).wid y.scene g with | .ok .. => true | _ => false) = true := by decide +kernel
  obtain ⟨y, hy, h⟩ := of_any h
  obtain ⟨g, hg, h⟩ := of_any h
  rw [Bool.and_eq_true, decide_eq_true_eq] at h
  obtain ⟨⟨h1, h2, h3, h4, h5⟩, h⟩ := h
  obtain ⟨s1, hits, hs⟩ := of_scene h
  exact ⟨0, 13, engS, y, g, s1, hits, hy, h1, h2, h3, h4, hg, h5, hs⟩
/-- A collective of cards 0 and 1 over 32 words, from which card 1 has been heard; processor 2 has an image. -/
def collS (heard : List (Nat × List Byte)) : State :=
  { engS with
    timeNs := 3000000
    colls := [{ id := 14, ctx := 0, table := 0, index := 0, cid := 0, readiedAt := 0, heard := heard
                fields := toLe 8 0x1000 ++ toLe 8 0x1800 ++ toLe 8 0 ++ toLe 4 3 ++ [0, 3, 0xff, 0] ++ toLe 4 32 ++
                  List.replicate 28 0 }]
    linkStaged := Vector.set (.replicate 4 none) 2 (some {})
    inwins := Vector.set (.replicate 16 {}) 0 { limit := 0x100000#64, ctl := 0x000000020000008f#64 } }
theorem wit_CollectiveAndLinkEvents :
    (∃ e card, ∃ s : State, ∃ x, s.coll e = some x ∧ card ≠ s.cardId ∧ x.members.contains card = true ∧
      (x.heard.any fun h => h.1 == card) = false ∧ s.lostMember x card = true ∧ x.ending = none) ∧
    (∃ e, ∃ s : State, ∃ x s1 mine, s.coll e = some x ∧ s.engFree e = true ∧ (s.eng e).failed = none ∧ x.ending = none ∧
      x.mine = none ∧ tilePtrErr x.local_ = none ∧ tilePtrErr x.result = none ∧
      s.engRead (s.crew x.cid).wid x.local_ x.bytes = .ok s1 mine ∧
      ∃ k ∈ x.members, k ≠ s.cardId ∧ (x.heard.any fun h => h.1 == k) = false) ∧
    (∃ e, ∃ s : State, ∃ x mine s2 bs, s.coll e = some x ∧ s.engFree e = true ∧ (s.eng e).failed = none ∧ x.ending = none ∧
      (∀ k ∈ x.members, k = s.cardId ∨ (x.heard.any fun h => h.1 == k) = true) ∧ x.mine = some mine ∧
      writePieces (s.crew x.cid).wid x.result (x.results ((s.cardId, mine) :: x.heard)) s = .ok s2 bs) ∧
    (∃ n i, ∃ s : State, n < 4 ∧ s.linkStaged[n]? = some (some i) ∧ s.colls = []) ∧
    (∃ card addr a, ∃ s : State, (s.inwins.toList.find? fun w => w.admits card addr a) = none) ∧
    ∃ card addr a, ∃ s : State, ∃ w, (s.inwins.toList.find? fun w => w.admits card addr a) = some w ∧
      addr + peerSize a ≤ w.region.2 := by
  have hw : ((collS []).inwins.toList.find? fun w => w.admits 1 0x40 (.read 8)).any (fun w =>
      decide (0x40 + peerSize (.read 8) ≤ w.region.2)) = true := by decide +kernel
  obtain ⟨w, hw, hr⟩ := of_any hw
  refine ⟨⟨14, 1, collS [], ((collS []).coll 14).get rfl, by decide +kernel⟩, ?_, ?_,
    ⟨2, {}, { collS [] with colls := [] }, by decide +kernel⟩, ⟨2, 0x40, .read 8, collS [], by decide +kernel⟩,
    1, 0x40, .read 8, collS [], w, hw, of_decide_eq_true hr⟩
  · let s := collS []
    let x := (s.coll 14).get rfl
    obtain ⟨s1, mine, h⟩ := of_eng (o := s.engRead (s.crew x.cid).wid x.local_ x.bytes) (by decide +kernel)
    have hx : s.engFree 14 = true ∧ (s.eng 14).failed = none ∧ x.ending = none ∧ x.mine = none ∧
      tilePtrErr x.local_ = none ∧ tilePtrErr x.result = none := by decide +kernel
    obtain ⟨a, b, c, d, e, f⟩ := hx
    exact ⟨14, s, x, s1, mine, rfl, a, b, c, d, e, f, h, by decide +kernel⟩
  · let s0 := collS [(1, [])]
    let s : State := { s0 with colls := s0.colls.map fun y => { y with mine := some [] } }
    let x := (s.coll 14).get rfl
    obtain ⟨s2, bs, h⟩ := of_eng (o := writePieces (s.crew x.cid).wid x.result
      (x.results ((s.cardId, []) :: x.heard)) s) (by decide +kernel)
    have hx : s.engFree 14 = true ∧ (s.eng 14).failed = none ∧ x.ending = none ∧
      (∀ k ∈ x.members, k = s.cardId ∨ (x.heard.any fun h => h.1 == k) = true) ∧ x.mine = some [] := by decide +kernel
    obtain ⟨a, b, c, d, e⟩ := hx
    exact ⟨14, s, x, [], s2, bs, rfl, a, b, c, d, e, h⟩

/-! ### The host's registers, pages, recovery, power -/

/-- A live card. -/
def liveS (f : State → State := id) : State := f { opened State.reset with phase := .live, portAUp := true }
def pageS (r0 r1 : DWord) (f : State → State := id) : State :=
  liveS fun s => f { s with pgA := { r0 := r0, r1 := r1 } }
theorem wit_HostRegisters :
    (∃ p off size, ∃ s : State, ∃ r, s.barLive p = true ∧ bar0Acc off size = .whole r) ∧
    (∃ p off, ∃ s : State, ∃ r, s.barLive p = true ∧ bar0Acc off 4 = .lower r ∧ bar0Acc (off + 4) 4 = .upper r) ∧
    (∃ p n, ∃ s : State, s.barLive p = true ∧ n < 64) ∧
    (∃ p q v, ∃ s : State, s.barLive p = true ∧ q < 256 ∧ s.ownerOk p (s.queue q) = true ∧
      (s.queue q).tail.toNat ≤ (v : DWord).toNat ∧ v.toNat ≤ (s.queue q).head.toNat + (s.queue q).slots) ∧
    (∃ p q v, ∃ s : State, s.barLive p = true ∧ q < 256 ∧ ¬ (s.ownerOk p (s.queue q) = true ∧
      (s.queue q).tail.toNat ≤ (v : DWord).toNat ∧ v.toNat ≤ (s.queue q).head.toNat + (s.queue q).slots)) ∧
    (∃ p v, ∃ s : State, s.barLive p = true ∧ s.fqHead ≤ (v : DWord).toNat ∧ v.toNat ≤ s.fqTail) ∧
    (∃ p v, ∃ s : State, s.barLive p = true ∧ ¬ (s.fqHead ≤ (v : DWord).toNat ∧ v.toNat ≤ s.fqTail)) ∧
    (∃ p c v, ∃ s : State, s.barLive p = true ∧ c < 96 ∧ (v : DWord).getLsbD 0 = true ∧ (s.col c).gated = false ∧
      ∀ y, (s.col c).sealing = some y → y.reason ≠ 1#8) ∧
    (∃ s : State, MemoryOk s ∧ s.barLive .a = true ∧ ∀ w ∈ s.wgs, w.stash = []) ∧
    ∃ (addr size i : Nat) (s : State), s.barLive .a = true ∧ i < size ∧ addr + i < dramSize ∧
      codeWord (mkKey regDram (addr + i)) ∉ s.bad := by
  have h : (match bar0Acc 0x2000 8, bar0Acc 0x2000 4, bar0Acc 0x2004 4 with
    | .whole _, .lower a, .upper b => a == b
    | _, _, _ => false) = true := by decide +kernel
  let queued := liveS fun s => s.updQueue 0 fun q => { q with installed := true, slots := 2 }
  have hs : (liveS.col 0).sealing = none := by decide +kernel
  split at h
  · next r a b h1 h2 h3 =>
    obtain rfl := eq_of_beq h
    exact ⟨⟨.a, _, _, liveS, r, rfl, h1⟩, ⟨.a, _, liveS, a, rfl, h2, h3⟩, ⟨.a, 63, liveS, by decide +kernel⟩,
      ⟨.a, 0, 1, queued, by decide +kernel⟩, ⟨.a, 0, 3, queued, by decide +kernel⟩, ⟨.a, 0, liveS, by decide +kernel⟩,
      ⟨.a, 1, liveS, by decide +kernel⟩,
      ⟨.a, 0, 1, liveS, rfl, by decide, by decide, by decide +kernel, fun y hy => by rw [hs] at hy; cases hy⟩,
      ⟨liveS, ⟨rfl, rfl⟩, rfl, by decide +kernel⟩, 0x1dffffffff, 2, 0, liveS, by decide +kernel⟩
  · cases h
theorem wit_PageCommandsAndSplit :
    (∃ p, ∃ s : State, s.barLive p = true ∧ fieldNat (s.pg p).r0 15 8 = 1 ∧ (s.pg p).busy = false ∧
      bits (s.pg p).r0 63 32 ≠ s.genOf (fieldNat (s.pg p).r0 7 0) ∧
      (bits (s.pg p).r0 63 32 - s.genOf (fieldNat (s.pg p).r0 7 0)).toNat < 2 ^ 31) ∧
    (∃ p, ∃ s : State, s.barLive p = true ∧ fieldNat (s.pg p).r0 15 8 = 1 ∧ (s.pg p).busy = false ∧
      bits (s.pg p).r0 63 32 = s.genOf (fieldNat (s.pg p).r0 7 0)) ∧
    (∃ p, ∃ s : State, s.barLive p = true ∧ fieldNat (s.pg p).r0 15 8 = 2 ∧ (s.pg p).busy = false ∧
      (s.pending.any fun e => e.id == fieldNat (s.pg p).r1 31 0) = false) ∧
    (∃ p, ∃ s : State, ∃ e, s.barLive p = true ∧ fieldNat (s.pg p).r0 15 8 = 2 ∧ (s.pg p).busy = false ∧
      s.pending.find? (fun e => e.id == fieldNat (s.pg p).r1 31 0) = some e ∧
      (s.genOf e.ctx - bits (s.pg p).r0 63 32).toNat < 2 ^ 31) ∧
    (∃ p, ∃ s : State, ∃ e, s.barLive p = true ∧ fieldNat (s.pg p).r0 15 8 = 2 ∧ (s.pg p).busy = false ∧
      s.pending.find? (fun e => e.id == fieldNat (s.pg p).r1 31 0) = some e ∧
      2 ^ 31 ≤ (s.genOf e.ctx - bits (s.pg p).r0 63 32).toNat ∧ (s.held.filter fun h => h.pair == e.unit % 8).length < 64) ∧
    (∃ p, ∃ s : State, ∃ e, s.barLive p = true ∧ fieldNat (s.pg p).r0 15 8 = 2 ∧ (s.pg p).busy = false ∧
      s.pending.find? (fun e => e.id == fieldNat (s.pg p).r1 31 0) = some e ∧
      2 ^ 31 ≤ (s.genOf e.ctx - bits (s.pg p).r0 63 32).toNat ∧ 64 ≤ (s.held.filter fun h => h.pair == e.unit % 8).length) ∧
    (∃ s : State, ∃ id h, s.held.find? (fun h => h.id == id && decide (h.since + 1000000 ≤ s.timeNs)) = some h) ∧
    (∃ p c v, ∃ s : State, s.barLive p = true ∧ c < 96 ∧ (s.col c).poolBusy = false ∧ (v : Word).toNat % 16 ≤ 8) ∧
    (∃ p c v, ∃ s : State, s.barLive p = true ∧ c < 96 ∧ ((s.col c).poolBusy = true ∨ 8 < (v : Word).toNat % 16)) ∧
    ∃ c, ∃ s : State, c < 96 ∧ (s.col c).poolBusy = true ∧
      s.transferInto c (min (s.col c).poolCurrent (s.col c).poolTarget * 524288)
        (max (s.col c).poolCurrent (s.col c).poolTarget * 524288) = false := by
  let e : FaultEntry := { id := 7, ctx := 0, unit := 1, attached := [] }
  let h : HeldReplay := ⟨7, 0, false, 0, 1⟩
  let replay (g : DWord) (hs : List HeldReplay) : State :=
    pageS (g * 2 ^ 32 + 0x200) 7 fun s => { s with pending := [e], held := hs }
  exact ⟨⟨.a, pageS 0x0000000500000100#64 0, by decide +kernel⟩, ⟨.a, pageS 0x0000000000000100#64 0, by decide +kernel⟩,
    ⟨.a, pageS 0x200#64 7, by decide +kernel⟩, ⟨.a, replay 0 [], e, by decide +kernel⟩,
    ⟨.a, replay 5 [], e, by decide +kernel⟩, ⟨.a, replay 5 (List.replicate 64 h), e, by decide +kernel⟩,
    ⟨liveS fun s => { s with held := [h], timeNs := 1000000 }, 7, h, by decide +kernel⟩,
    ⟨.a, 95, 8, liveS, by decide +kernel⟩, ⟨.a, 95, 9, liveS, by decide +kernel⟩,
    0, liveS fun s => s.updCol 0 fun x => { x with poolBusy := true, poolTarget := 4 }, by decide +kernel⟩
/-- The state of `memS` with a seal of column 0 taken and another in progress. -/
def sealS (f : Column → Column := id) : State :=
  let s := (memS 0x1000 0).captureSeal 0 3
  s.updCol 0 fun x => f (match x.sealing with
    | some y => { x with seals := [{ y with valid := true }] }
    | none => x)
theorem wit_CoreRecoveryEvents :
    (∃ c, ∃ s : State, (s.col c).powered = true ∧ (s.col c).gated = false ∧ (s.col c).sealing = none) ∧
    (∃ c, ∃ s : State, (s.col c).powered = true ∧ (s.col c).gated = false ∧ (s.col c).sealing.isSome = true) ∧
    (∃ c, ∃ s : State, (s.col c).powered = false) ∧
    (∃ c reason, ∃ s : State, c < 96 ∧ (s.col c).acts = true ∧ (s.col c).sealing = none ∧
      s.sealWanted c reason = true ∧ ∀ r ∈ s.runs, r.key.col = c → ∃ w, r.parked = some w ∧ w ≠ .miss) ∧
    (∃ c, ∃ s : State, ∃ y, c < 96 ∧ (s.col c).sealing = some y) ∧
    (∃ c, ∃ s : State, c < 96 ∧ (s.col c).gated = true ∧ (s.col c).gateReq = false ∧ (s.col c).powered = true) ∧
    (∃ c, ∃ s : State, c < 96 ∧ (s.col c).powered = false ∧ (s.col c).best = none) ∧
    (∃ c, ∃ s : State, ∃ y, c < 96 ∧ (s.col c).powered = false ∧ (s.col c).best = some y) ∧
    (∃ c, ∃ s : State, ∃ y, c < 96 ∧ (s.col c).powered = true ∧ (s.col c).gated = false ∧ (s.col c).best = some y ∧
      s.phase = .live ∧ s.colWgs c = []) ∧
    (∃ t : Thread, t.sealing = none) ∧ (∃ t : Thread, ∃ y, t.sealing = some y ∧ y.pc ≠ trapSeal) ∧
    ∃ t : Thread, ∃ y, t.sealing = some y ∧ y.pc = trapSeal := by
  let down (x : Column) : Column := { x with powered := false }
  let empty : State := { sealS with wgs := [], phase := .live }
  have hs : (sealS.col 0).sealing.isSome = true := by decide +kernel
  have hd : ((sealS down).col 0).best.isSome = true := by decide +kernel
  have he : (empty.col 0).best.isSome = true := by decide +kernel
  obtain ⟨y, hy⟩ := Option.isSome_iff_exists.mp hs
  obtain ⟨yd, hd⟩ := Option.isSome_iff_exists.mp hd
  obtain ⟨ye, he⟩ := Option.isSome_iff_exists.mp he
  have hp : ((sealS down).col 0).powered = false := by decide +kernel
  have hq : (empty.col 0).powered = true ∧ (empty.col 0).gated = false ∧ empty.phase = .live ∧ empty.colWgs 0 = [] := by
    decide +kernel
  let t : Thread := { cid := 0, tid := 0 }
  exact ⟨⟨0, State.reset, by decide +kernel⟩, ⟨0, sealS, by decide +kernel⟩, ⟨0, sealS down, hp⟩,
    ⟨95, 3, State.reset, by decide +kernel⟩, ⟨0, sealS, y, by decide, hy⟩,
    ⟨0, State.reset.updCol 0 fun x => { x with gated := true }, by decide +kernel⟩,
    ⟨0, State.reset.updCol 0 down, by decide +kernel⟩, ⟨0, sealS down, yd, by decide, hp, hd⟩,
    ⟨0, empty, ye, by decide, hq.1, hq.2.1, he, hq.2.2.1, hq.2.2.2⟩, ⟨t, rfl⟩,
    ⟨{ t with sealing := some { pc := 0 } }, _, rfl, by decide⟩, { t with sealing := some { pc := trapSeal } }, _, rfl, rfl⟩
/-- A released store of a byte. -/
def relR : Released := ⟨1, 0, { tid := 0, key := 0, op := .write [1], ea := 0 }, false, false⟩
/-- Column 95 with a bus whose last pattern failed. -/
def busS (retired : BitVec 9) : State := State.reset.updCol 95 fun x => { x with lastFail := 0x100, retired := retired }
theorem wit_MemoryEventsComplete :
    (∃ c, ∃ s : State, ∃ r rs, (s.col c).banked = r :: rs) ∧
    (∃ c, ∃ s : State, ∃ r rs, (s.col c).banked = [] ∧ (s.col c).released = r :: rs ∧ (s.col c).powered = true ∧
      (s.col c).gated = false ∧ r.hold = false) ∧
    (∃ c, ∃ s : State, (s.col c).banked = [] ∧ (s.col c).gated = true) ∧
    (∃ s : State, ∃ i w, s.keepQ[i]? = some w ∧ s.mayDurable i w = true ∧
      ∀ j v, j < i → s.keepQ[j]? = some v → s.mayDurable j v = false) ∧
    (∃ s : State, ∀ j v, s.keepQ[j]? = some v → s.mayDurable j v = false) ∧
    (∃ a, ∃ s : State, a < dramSize ∧ mkKey regDram (a / 32 * 32) ∈ s.bad) ∧
    (∃ a, ∃ s : State, a < dramSize ∧ mkKey regDram (a / 32 * 32) ∉ s.bad ∧ mkKey regDram (a / 32 * 32) ∈ s.weak) ∧
    (∃ a, ∃ s : State, a < dramSize ∧ mkKey regDram (a / 32 * 32) ∉ s.bad ∧ mkKey regDram (a / 32 * 32) ∉ s.weak) ∧
    (∃ c bus, ∃ s : State, c < 96 ∧ bus < 9 ∧ (s.col c).lastFail.getLsbD bus = false) ∧
    (∃ c bus, ∃ s : State, c < 96 ∧ bus < 9 ∧ (s.col c).lastFail.getLsbD bus = true ∧ (s.col c).retired.getLsbD bus = true) ∧
    (∃ c bus, ∃ s : State, c < 96 ∧ bus < 9 ∧ (s.col c).lastFail.getLsbD bus = true ∧
      (s.col c).retired.getLsbD bus = false ∧ (s.col c).retired = 0) ∧
    ∃ c bus, ∃ s : State, c < 96 ∧ bus < 9 ∧ (s.col c).lastFail.getLsbD bus = true ∧
      (s.col c).retired.getLsbD bus = false ∧ (s.col c).retired ≠ 0 ∧ (s.col c).withdrawn = false := by
  let k : KeepWrite := { key := 5, data := [1] }
  exact ⟨⟨0, State.reset.updCol 0 fun x => { x with banked := [relR] }, relR, [], by decide +kernel⟩,
    ⟨0, State.reset.updCol 0 fun x => { x with released := [relR] }, relR, [], by decide +kernel⟩,
    ⟨0, State.reset.updCol 0 fun x => { x with gated := true }, by decide +kernel⟩,
    ⟨{ State.reset with keepQ := [k] }, 0, k, rfl, by decide +kernel, fun _ _ h => absurd h (by omega)⟩,
    ⟨State.reset, fun _ _ h => by simp [State.reset] at h⟩, ⟨0x20, { State.reset with bad := [0x20] }, by decide⟩,
    ⟨0x20, { State.reset with weak := [0x20] }, by decide⟩, ⟨0x1dffffffff, State.reset, by decide⟩,
    ⟨95, 8, State.reset, by decide +kernel⟩, ⟨95, 8, busS 0x100, by decide +kernel⟩, ⟨95, 8, busS 0, by decide +kernel⟩,
    95, 8, busS 1, by decide +kernel⟩
theorem wit_StoreAndScrubEvents :
    (∃ c, ∃ s : State, ∃ r rs bs, c < 96 ∧ (s.col c).banked = [] ∧ (s.col c).released = r :: rs ∧ (s.col c).awake = true ∧
      r.hold = false ∧ r.store.op = .write bs ∧ s.peerFails r.store.key bs.length = false ∧
      s.hostFails r.store.key bs.length = false ∧ (∀ w ∈ s.wgs, w.stash = []) ∧ MemoryOk s) ∧
    (∃ s : State, ∃ w rest, s.keepQ = w :: rest ∧ ∀ t, w.by_ = some t → s.keepPending t w.epoch = false) ∧
    (∃ a, ∃ s : State, a < dramSize ∧ mkKey regDram (a / 32 * 32) ∈ s.bad) ∧
    (∃ c bus, ∃ s : State, c < 96 ∧ bus < 9 ∧ (s.col c).lastFail.getLsbD bus = true ∧ (s.col c).retired = 0) ∧
    ∃ c bus, ∃ s : State, c < 96 ∧ bus < 9 ∧ (s.col c).lastFail.getLsbD bus = true ∧ (s.col c).retired ≠ 0 ∧
      (s.col c).retired.getLsbD bus = false ∧ (s.col c).withdrawn = false := by
  let s : State := State.reset.updCol 0 fun x => { x with released := [relR] }
  have hs : (s.col 0).banked = [] ∧ (s.col 0).released = [relR] ∧ (s.col 0).awake = true ∧ relR.hold = false ∧
    relR.store.op = .write [1] ∧ s.peerFails relR.store.key 1 = false ∧ s.hostFails relR.store.key 1 = false ∧
    (∀ w ∈ s.wgs, w.stash = []) ∧ Memory.wf s.mem = true ∧ Memory.wf s.keep = true := by decide +kernel
  obtain ⟨a, b, c, d, e, f, g, h⟩ := hs
  exact ⟨⟨0, s, relR, [], [1], by decide, a, b, c, d, e, f, g, h⟩,
    ⟨{ State.reset with keepQ := [{ key := 5, data := [1] }] }, { key := 5, data := [1] }, [], rfl, fun _ h => nomatch h⟩,
    ⟨0x20, { State.reset with bad := [0x20] }, by decide⟩, ⟨95, 8, busS 0, by decide +kernel⟩,
    95, 8, busS 1, by decide +kernel⟩
theorem wit_PowerEvents :
    (∃ s : State, s.merged = false ∧ s.portAUp = true ∧ s.portBUp = true) ∧
    (∃ s : State, s.merged = false ∧ s.portAUp = false ∧ s.portBUp = false) ∧ (∃ s : State, s.merged = true) ∧
    (∃ s : State, s.phase ≠ .off) ∧ (∃ s : State, s.phase = .off) ∧
    (∃ s : State, s.tempCut ≤ s.cardTemp ∨ ∃ c, c < 96 ∧ s.tempCut ≤ (s.col c).temp) ∧
    (∃ s : State, s.cardTemp < s.tempCut ∧ ∀ c, c < 96 → (s.col c).temp < s.tempCut) ∧
    (∃ s : State, ∃ b, s.phase = .held ∧ 500 ≤ s.limitW ∧ s.bootBank = some b) ∧
    (∃ s : State, s.phase = .held ∧ 500 ≤ s.limitW ∧ s.bootBank = none) ∧
    (∃ s : State, s.phase = .held ∧ s.limitW < 500) ∧ ∃ s : State, s.phase ≠ .held := by
  let held (w : Nat) : State := { State.reset with limitW := w }
  let up (s : State) : State := { s with portAUp := true, portBUp := true }
  have hc : ∀ c, c < 96 → (State.reset.col c).temp < State.reset.tempCut := by decide +kernel
  obtain ⟨b, hb⟩ := Option.isSome_iff_exists.mp (show (held 600).bootBank.isSome = true by decide +kernel)
  exact ⟨⟨up State.reset, by decide⟩, ⟨State.reset, by decide⟩, ⟨{ State.reset with merged := true }, rfl⟩,
    ⟨State.reset, by decide⟩, ⟨{ State.reset with phase := .off }, rfl⟩,
    ⟨{ State.reset with cardTemp := 120 }, .inl (by decide)⟩, ⟨State.reset, by decide, hc⟩,
    ⟨held 600, b, by decide, by decide, hb⟩, ⟨{ held 600 with banks := .replicate 2 { head := [0] } }, by decide +kernel⟩,
    ⟨State.reset, by decide⟩, { State.reset with phase := .off }, by decide⟩
/-! ### Runs, placement, the ends of workgroups -/

/-- A cache line at address 0: a word and a trailer. -/
def lineW (w : Nat) : Nat × List Byte := (0, toLe 4 w ++ toLe 4 0x7ffe3c78 ++ List.replicate 120 0)
/-- A thread that stands at address 0. -/
def standS (f : Thread → Thread := id) (ic : List (Nat × List Byte) := [lineW 0x00010082]) : State :=
  let s := memS 0x1000 0
  { (s.updThread ⟨0, 0⟩ f).updCol 0 fun x => { x with icache := ic } with runs := [], turn := .idle }
def key0 : RunKey := ⟨0, 0, 2⟩
def parkS (w : ParkWhy) : State :=
  let s := memS 0x1000 0
  { s with runs := s.runs.map fun r => { r with parked := some w } }


/-- The run that PICK_RUN begins. -/
def runOf (s : State) (k : RunKey) (x : Cand) : Run :=
  { key := k, start := x.t.pc, words := x.words, members := s.gather k x, lane := k.port % 2
    crewRun := if x.uniform then some x.t.cid else none }
theorem wit_RunAndColumnEvents :
    (∃ k, ∃ s : State, ∃ x, (s.col k.col).acts = true ∧ s.run? k = none ∧ s.portFree k.col k.part (k.port % 2) = true ∧
      s.choose k = some x ∧ ((runOf s k x).ports = 2 → s.portFree k.col k.part 0 = true ∧ s.portFree k.col k.part 1 = true)) ∧
    (∃ t, ∃ s : State, ∃ a l ia s1 ws, s.standing (s.thread t) = true ∧ (s.col (s.crewCol t.cid)).acts = true ∧
      s.fetchIa (s.crewLaunch (s.thread t).cid).ctx (s.thread t).pc = .ok a ∧
      s.fetchRun (s.crewLaunch (s.thread t).cid) (s.crewCol (s.thread t).cid) (s.thread t).pc = .missing l ia ∧
      s.fillLine (s.crewCol (s.thread t).cid) (ptrAdd (s.thread t).pc (ia - a)) ia = (.words ws, s1)) ∧
    (∃ t, ∃ s : State, ∃ ps p qs s1, (s.col (s.crewCol t.cid)).acts = true ∧ (s.thread t).pend = ps ++ p :: qs ∧
      (∀ q ∈ ps, s.landOne t q = none) ∧ s.landOne t p = some s1) ∧
    (∀ w, ∃ k, ∃ s : State, ∃ r i, s.run? k = some r ∧ r.parked = some w ∧ (s.col k.col).acts = true ∧
      (∀ m ∈ r.members, (s.wg (s.crew m.cid).wid).fault = none) ∧ s.portAgain r = some i) ∧
    (∃ c, ∃ s : State, (s.col c).acts = true ∧ (s.col c).seqr.running = true) ∧
    (∃ ctx ia sp w, ∃ s : State, ∃ s1 k, s.translate (ctx % 256 * 2 ^ 52 + ia % 2 ^ 52) (BitVec.toNat (w := 4) sp) w = .at s1 k) ∧
    (∃ ctx ia sp w, ∃ s : State, ∃ k i e, s.translate (ctx % 256 * 2 ^ 52 + ia % 2 ^ 52) (BitVec.toNat (w := 4) sp) w = .pageFault k i e) ∧
    (∃ (c pt : Nat) (s : State), ((s.col c).halved[pt]?.getD 0 + 1) * 1024 ≤ (s.col c).clock) ∧
    (∃ (c pt : Nat) (s : State), (s.col c).clock < ((s.col c).halved[pt]?.getD 0 + 1) * 1024) ∧
    (∃ c, ∃ s : State, c < 96 ∧
      ((s.col c).railOver = true ∨ s.tempLimit < (s.col c).temp ∨ min s.limitW s.wattLimit < s.powerW)) ∧
    (∃ c, ∃ s : State, c < 96 ∧
      ¬ ((s.col c).railOver = true ∨ s.tempLimit < (s.col c).temp ∨ min s.limitW s.wattLimit < s.powerW)) ∧
    (∃ s : State, s.framePeriod ≠ 0 ∧ s.periodAt = none) ∧
    ∃ s : State, s.periodAt = some 5 ∧ s.timeNs / s.framePeriod * s.framePeriod ≤ 5 := by
  refine ⟨?_, ?_, ?_, ?_, ⟨0, (uniS 0 0 true), by decide +kernel⟩, ?_, ?_,
    ⟨95, 7, State.reset.updCol 95 fun x => { x with clock := 1024 }, by decide +kernel⟩, ⟨0, 0, State.reset, by decide +kernel⟩,
    ⟨0, State.reset.updCol 0 fun x => { x with temp := 106 }, by decide +kernel⟩, ⟨95, State.reset, by decide +kernel⟩,
    ⟨{ State.reset with framePeriod := 5 }, by decide⟩, { State.reset with framePeriod := 5, timeNs := 9, periodAt := some 5 },
    by decide⟩
  · have h : ((standS.choose key0).any fun x => (runOf standS key0 x).ports != 2) = true := by decide +kernel
    have hs : (standS.col key0.col).acts = true ∧ standS.run? key0 = none ∧
      standS.portFree key0.col key0.part (key0.port % 2) = true := by decide +kernel
    obtain ⟨x, hx, h⟩ := of_any h
    exact ⟨key0, standS, x, hs.1, hs.2.1, hs.2.2, hx, fun e => absurd e (by simpa using h)⟩
  · let s := standS id []
    have h : (match s.fetchIa (s.crewLaunch 0).ctx 0, s.fetchRun (s.crewLaunch 0) 0 0, s.fillLine 0 (ptrAdd 0 0) 0 with
      | .ok 0, .missing _ 0, (.words _, _) => true
      | _, _, _ => false) = true := by decide +kernel
    have hs : s.standing (s.thread ⟨0, 0⟩) = true ∧ (s.col (s.crewCol 0)).acts = true := by decide +kernel
    split at h
    · next l ws s1 ha hm hf => exact ⟨⟨0, 0⟩, s, 0, l, 0, s1, ws, hs.1, hs.2, ha, hm, hf⟩
    · cases h
  · let p : Pend := ⟨6, 1, .words [5]⟩
    let s := standS fun t => { t with pend := [⟨7, 1, .atomic 3⟩, p] }
    obtain ⟨s1, h⟩ : ∃ s1, s.landOne ⟨0, 0⟩ p = some s1 := Option.isSome_iff_exists.mp (by decide +kernel)
    exact ⟨⟨0, 0⟩, s, [⟨7, 1, .atomic 3⟩], p, [], s1, by decide +kernel, by decide +kernel, fun q hq => by
      obtain rfl := List.mem_singleton.mp hq; rfl, h⟩
  · intro w
    have h : ((parkS w).run? key0).any (fun r => decide (r.parked = some w ∧ ((parkS w).col 0).acts = true ∧
        (∀ m ∈ r.members, ((parkS w).wg ((parkS w).crew m.cid).wid).fault = none) ∧ (parkS w).portAgain r = some 0)) = true := by
      cases w <;> decide +kernel
    obtain ⟨r, hr, h⟩ := of_any h
    exact ⟨key0, parkS w, r, 0, hr, of_decide_eq_true h⟩
  · have h : (match (memS 0 0).translate (0 % 256 * 2 ^ 52 + 0x1000 % 2 ^ 52) 0 false with | .at .. => true | _ => false) = true := by
      decide +kernel
    split at h
    · next s1 k he => exact ⟨0, 0x1000, 0, false, _, s1, k, he⟩
    · cases h
  · have h : (match (memS 0 0).translate (0 % 256 * 2 ^ 52 + 0x10000000000 % 2 ^ 52) 0 false with | .pageFault .. => true | _ => false) = true := by
      decide +kernel
    split at h
    · next k i e he => exact ⟨0, 0x10000000000, 0, false, _, k, i, e, he⟩
    · cases h
theorem wit_BoundaryTraps : ∃ t, ∃ s : State, ∃ ti, (s.col (s.crewCol t.cid)).acts = true ∧ (s.thread t).boundary = some ti ∧
    (s.thread t).exited = false ∧ s.runOf t = none ∧ (s.thread t).raised = none ∧ ti.cause = 0x45 :=
  ⟨⟨0, 0⟩, standS fun t => { t with boundary := some ⟨0x45, 0, 0, 0⟩ }, ⟨0x45, 0, 0, 0⟩, by decide +kernel⟩
/-- A launch with one workgroup to place. -/
def gridL : Launch :=
  { lid := 3, queue := 0, phase := .eligible, total := 1, lastCol := some 0, record := List.replicate 16 0 ++ toLe 4 1 ++ toLe 4 1 ++ toLe 4 1 ++ List.replicate 100 0 }
def recT : Record := { code := 0x40, frame := 0, join := 0, threads := 1, flags := 1, deadline := 0, lid := 3 }
def placeS (f : State → State := id) : State := f { opened State.reset with launches := [gridL] }
/-- A workgroup of launch 5 on column 0 that uses the whole pool and may yield, below a launch that needs it. -/
def preemptS : State :=
  let w : Workgroup := { wid := 20, lid := 5, col := 0, scratchSize := 0x400000, record := { recT with lid := 5 } }
  let s : State := { placeS with
    columns := State.reset.columns.map fun x => { x with powered := false }
    launches := [{ gridL with record := setBytes gridL.record 115 [4], roles := { scratch := 0x1000 } },
      { gridL with lid := 5, placed := [(0, 0)], record := setBytes gridL.record 115 [0x40] }]
    wgs := [w], crews := [{ cid := 21, wid := 20 }], threads := [{ cid := 21, tid := 0 }] }
  s.updCol 0 fun x => { x with powered := true }
def dequeS (c : Nat) : State :=
  let s : State := { placeS with launches := [{ gridL with placed := [(0, 0)] }] }
  s.updCol c fun x => { x with deque := [recT] }
theorem wit_PlacementEvents :
    (∃ lid idx, ∃ s : State, ∃ k ps, s.offer? (s.launch lid) idx = some (k, ps)) ∧
    (∃ c, ∃ s : State, ∃ lid k ps, s.offerTo c = some (lid, k, ps)) ∧
    (∃ c, ∃ s : State, ∃ r, s.offerTo c = none ∧ (s.col c).deque.getLast? = some r ∧ s.takes c r = true) ∧
    (∃ c, ∃ s : State, ∃ cand v, s.idleThief c = true ∧ s.visit c (s.visits c) [] = (cand, some v)) ∧
    (∃ c, ∃ s : State, ∃ cand v, s.idleThief c = true ∧ s.visit c (s.visits c) [] = (cand, none) ∧
      s.bestVictim cand = some v) ∧
    ∃ cid, ∃ s : State, s.yieldDue cid = true ∧ (s.crew cid).yieldReq = false := by
  refine ⟨?_, ?_, ⟨5, dequeS 5, recT, by decide +kernel⟩,
    ⟨4, (dequeS 5).updCol 5 fun x => { x with passedBy := [4] }, [], 5, by decide +kernel⟩,
    ⟨4, dequeS 5, [5], 5, by decide +kernel⟩,
    21, preemptS, by decide +kernel⟩
  · have h : ((placeS.offer? (placeS.launch 3) 0).any fun _ => true) = true := by decide +kernel
    obtain ⟨⟨k, ps⟩, h, -⟩ := of_any h
    exact ⟨3, 0, placeS, k, ps, h⟩
  · have h : ((placeS.offerTo 0).any fun _ => true) = true := by decide +kernel
    obtain ⟨⟨l, k, ps⟩, h, -⟩ := of_any h
    exact ⟨0, placeS, l, k, ps, h⟩

/-- A workgroup of a launch, none of whose threads runs. -/
def endS (f : Workgroup → Workgroup := id) (l : Launch := gridL) (more : List Workgroup := []) : State :=
  { placeS with launches := [l], wgs := f { wid := 20, lid := 3, col := 0, index := some 0, record := recT } :: more }
/-- A deterministic launch; with RED_MODE 1 each of its workgroups is redundant. -/
def detL (red : Nat) : Launch :=
  { gridL with record := setBytes gridL.record 115 [0x20], det := { redMode := red, redStride := 1, logSlots := 1 } }
def copyW (k : Nat) (log : List LogEntry := []) : Workgroup :=
  { wid := 20 + k, lid := 3, col := k, index := some 0, record := recT, copy := k, log := log }
def entryE (x : Byte) : LogEntry := { crew := 0, tid := 0, ea := 0, key := 0, op := .write [x], count := 0 }
/-- The first two copies of a redundant workgroup are quiet and without fault. -/
abbrev Copies (wid : Nat) (s : State) (a b : Workgroup) : Prop :=
  (s.wg wid).task = false ∧ (s.launch (s.wg wid).lid).redundant (s.wg wid).index = true ∧ (s.wg wid).judged = false ∧
  s.copyOf (s.wg wid) 0 = some a ∧ s.copyOf (s.wg wid) 1 = some b ∧ s.quiet a = true ∧ a.fault = none ∧
  s.quiet b = true ∧ b.fault = none
theorem wit_WorkgroupEvents :
    (∃ wid, ∃ s : State, (s.wg wid).fault = none) ∧
    (∃ wid, ∃ s : State, ∃ f, (s.wg wid).fault = some f ∧ (s.wg wid).faulted = false ∧ s.running wid = false ∧
      (s.launch (s.wg wid).lid).deterministic = false) ∧
    (∃ wid, ∃ s : State, ∃ f, (s.wg wid).fault = some f ∧ (s.wg wid).faulted = false ∧ s.running wid = false ∧
      (s.launch (s.wg wid).lid).deterministic = true) ∧
    (∃ wid faulted, ∃ s0 : State, let s := s0.drain (s0.wg wid).col
      s.mayEnd (s.wg wid) = true ∧ (∀ e ∈ (s.col (s.wg wid).col).pendingStores, s.crewIn wid e.cid = false ∧
        e.cid ≠ noCid + (s.wg wid).col) ∧ (s.wg wid).faulted = faulted ∧ faulted = false) ∧
    (∃ wid faulted, ∃ s0 : State, let s := s0.drain (s0.wg wid).col
      s.mayEnd (s.wg wid) = true ∧ (∀ e ∈ (s.col (s.wg wid).col).pendingStores, s.crewIn wid e.cid = false ∧
        e.cid ≠ noCid + (s.wg wid).col) ∧ (s.wg wid).faulted = faulted ∧ faulted = true) ∧
    (∃ wid, ∃ s : State, (s.launch (s.wg wid).lid).deterministic = true ∧ (s.wg wid).fault = none ∧
      (s.wg wid).applied = false ∧ s.quiet (s.wg wid) = true ∧ s.lowerEnded (s.wg wid) = true ∧
      (s.launch (s.wg wid).lid).redundant (s.wg wid).index = false) ∧
    (∃ wid, ∃ s : State, (s.launch (s.wg wid).lid).deterministic = true ∧ (s.wg wid).fault = none ∧
      (s.wg wid).applied = false ∧ s.quiet (s.wg wid) = true ∧ s.lowerEnded (s.wg wid) = true ∧
      (s.launch (s.wg wid).lid).redundant (s.wg wid).index = true ∧ (s.wg wid).judged = true ∧ (s.wg wid).chosen = false) ∧
    (∃ wid, ∃ s : State, ∃ a b c, Copies wid s a b ∧ a.logCrc ≠ b.logCrc ∧ s.copyOf (s.wg wid) 2 = some c ∧
      s.quiet c = true ∧ c.fault = none ∧ c.logCrc ≠ a.logCrc ∧ c.logCrc = b.logCrc) ∧
    (∃ wid, ∃ s : State, ∃ a b, Copies wid s a b ∧ a.logCrc = b.logCrc) ∧
    (∃ wid, ∃ s : State, ∃ a b, Copies wid s a b ∧ a.logCrc ≠ b.logCrc ∧ s.copyOf (s.wg wid) 2 = none ∧ a.part = 0) ∧
    ∃ wid, ∃ s : State, ∃ a b, Copies wid s a b ∧ a.logCrc ≠ b.logCrc ∧ s.copyOf (s.wg wid) 2 = none ∧ a.part ≠ 0 ∧
      (s.col a.col).hasRoom = true ∧ ∀ c, c < 96 → ∀ r ∈ (s.col c).deque,
        ¬ (r.lid = a.lid ∧ r.index = a.index ∧ r.part = a.part ∧ r.copy = 2 ∧ r.task = false) := by
  let f : WgFault := { cause := 0xb1 }
  let one := [entryE 1]
  let part (w : Workgroup) : Workgroup := { w with part := 1 }
  exact ⟨⟨20, endS, by decide +kernel⟩, ⟨20, endS fun w => { w with fault := some f }, f, by decide +kernel⟩,
    ⟨20, endS (fun w => { w with fault := some f }) (detL 0), f, by decide +kernel⟩,
    ⟨20, false, endS, by decide +kernel⟩,
    ⟨20, true, endS fun w => { w with fault := some f, faulted := true }, by decide +kernel⟩,
    ⟨20, endS id (detL 0), by decide +kernel⟩, ⟨20, endS (fun w => { w with judged := true }) (detL 1), by decide +kernel⟩,
    ⟨20, endS id (detL 1) [copyW 1 one, copyW 2 one], copyW 0, copyW 1 one, copyW 2 one, by decide +kernel⟩,
    ⟨20, endS id (detL 1) [copyW 1], copyW 0, copyW 1, by decide +kernel⟩,
    ⟨20, endS id (detL 1) [copyW 1 one], copyW 0, copyW 1 one, by decide +kernel⟩,
    20, endS part (detL 1) [part (copyW 1 one)], part (copyW 0), part (copyW 1 one), by decide +kernel⟩
/-! ### Traps, accesses, steps -/

/-- A thread that took a trap of cause 5, whose vector word at 0x28 is 0x100 or nothing. -/
def trapS (level : Bool) (m : List Host.Cell) : State :=
  let s := standS fun t => { t with raised := some ⟨5, 0x44, 0, 0⟩, trapLevel := level }
  { s with mem := m }
theorem wit_TrapEntry : ∃ s : State, ∃ cid h first, s.canEnter cid = true ∧
    (∀ t ∈ s.liveMembers cid, t.raised.isSome = true → t.trapLevel = false) ∧
    (s.liveMembers cid).find? (fun t => (t.raised.getD ⟨0, s.resumeAddr t.ref, 0, 0⟩).cause != 0) = some first ∧
    ((settled s cid).readVector cid (first.raised.getD ⟨0, s.resumeAddr first.ref, 0, 0⟩).cause).map (·.2) =
      some (.handler h) ∧
    ∃ t ∈ s.liveMembers cid, ∀ u ∈ s.liveMembers cid, u.ref = t.ref → u = t := by
  let s := trapS false (cells 0x28 [0x100])
  have h : ((s.liveMembers 0).find? (fun t => (t.raised.getD ⟨0, s.resumeAddr t.ref, 0, 0⟩).cause != 0)).any (fun first =>
      match ((settled s 0).readVector 0 (first.raised.getD ⟨0, s.resumeAddr first.ref, 0, 0⟩).cause).map (·.2) with
      | some (Vector_.handler _) => true
      | _ => false) = true := by decide +kernel
  have hs : s.canEnter 0 = true ∧ (∀ t ∈ s.liveMembers 0, t.raised.isSome = true → t.trapLevel = false) ∧
    ∃ t ∈ s.liveMembers 0, ∀ u ∈ s.liveMembers 0, u.ref = t.ref → u = t := by decide +kernel
  obtain ⟨first, hf, h⟩ := of_any h
  split at h
  · next a ha => exact ⟨s, 0, a, first, hs.1, hs.2.1, hf, ha, hs.2.2⟩
  · cases h
theorem wit_TrapEntryFaults :
    (∃ s : State, ∃ cid, s.canEnter cid = true ∧ (s.wg (s.crew cid).wid).fault = none ∧
      (∃ w ∈ s.wgs, w.wid = (s.crew cid).wid) ∧ ∃ t ∈ s.liveMembers cid, t.raised.isSome = true ∧ t.trapLevel = true) ∧
    ∃ s : State, ∃ cid first, s.canEnter cid = true ∧ (s.wg (s.crew cid).wid).fault = none ∧
      (∃ w ∈ s.wgs, w.wid = (s.crew cid).wid) ∧
      (∀ t ∈ s.liveMembers cid, t.raised.isSome = true → t.trapLevel = false) ∧
      (s.liveMembers cid).find? (fun t => (t.raised.getD ⟨0, s.resumeAddr t.ref, 0, 0⟩).cause != 0) = some first ∧
      ((settled s cid).readVector cid (first.raised.getD ⟨0, s.resumeAddr first.ref, 0, 0⟩).cause).map (·.2) =
        some .bad := by
  refine ⟨⟨trapS true [], 0, by decide +kernel⟩, ?_⟩
  let s := trapS false []
  have h : ((s.liveMembers 0).find? (fun t => (t.raised.getD ⟨0, s.resumeAddr t.ref, 0, 0⟩).cause != 0)).any (fun first =>
      match ((settled s 0).readVector 0 (first.raised.getD ⟨0, s.resumeAddr first.ref, 0, 0⟩).cause).map (·.2) with
      | some Vector_.bad => true
      | _ => false) = true := by decide +kernel
  have hs : s.canEnter 0 = true ∧ (s.wg (s.crew 0).wid).fault = none ∧ (∃ w ∈ s.wgs, w.wid = (s.crew 0).wid) ∧
    ∀ t ∈ s.liveMembers 0, t.raised.isSome = true → t.trapLevel = false := by decide +kernel
  obtain ⟨first, hf, h⟩ := of_any h
  split at h
  · next ha => exact ⟨s, 0, first, hs.1, hs.2.1, hs.2.2.1, hs.2.2.2, hf, ha⟩
  · cases h
theorem wit_AccessesConfined :
    (∃ s : State, ∃ w p size need align wid off, 0 < size ∧ (s.wgs.map (·.wid)).Nodup ∧
      s.check w p size need align = .ok (.scratch wid off)) ∧
    ∃ s : State, ∃ w p size need align sp ia, 0 < size ∧ (s.wgs.map (·.wid)).Nodup ∧
      s.check w p size need align = .ok (.global sp ia) := by
  have hs : ((memS 0 0).wgs.map (·.wid)).Nodup := by decide +kernel
  constructor
  · have h : (match (memS 0 0).check ((memS 0 0).whoWg 0) (inPad 0x100) 8 permR true with
      | .ok (.scratch ..) => true
      | _ => false) = true := by decide +kernel
    split at h
    · next wid off hc => exact ⟨memS 0 0, _, _, _, _, _, wid, off, by decide, hs, hc⟩
    · cases h
  · have h : (match (memS 0 0).check ((memS 0 0).whoWg 0) 0x1000 8 permR true with
      | .ok (.global ..) => true
      | _ => false) = true := by decide +kernel
    split at h
    · next sp ia hc => exact ⟨memS 0 0, _, _, _, _, _, sp, ia, by decide, hs, hc⟩
    · cases h
theorem wit_MemoryOkKept : ∃ s t, MemoryOk s ∧ step s = .next t :=
  ⟨{ State.reset with agenda := [.elapse 1 1] }, _, ⟨by decide, by decide⟩, rfl⟩
theorem wit_CoresConfigureNothing : ∃ i : Instr, ∃ s t, i.cls = .lane ∧ exec i s = .next t := by
  have h : (match exec .nop laneS with | .next _ => true | _ => false) = true := by decide +kernel
  split at h
  · next t ht => exact ⟨.nop, laneS, t, rfl, ht⟩
  · cases h
theorem wit_DecodeEncode : ∃ i : Instr, i.wf = true ∧ i.cls = .lane := ⟨.add 4#7 1#7 (.code 2#7), by decide, rfl⟩
theorem wit_StepRuns :
    (∃ s : State, ∃ i ms, s.agenda = .event i :: ms ∧ i.cls = .event) ∧
    (∃ s : State, ∃ k r i n row t0 ts, s.agenda = [] ∧ s.turn = .run k ∧ s.run? k = some r ∧ r.parked = none ∧
      (s.col k.col).acts = true ∧ r.members = t0 :: ts ∧ ((s.wordClock k).crewLaunch t0.cid).decodeNum = 0 ∧
      isTrailer r.word = false ∧ r.pos + n < 24 ∧ findRow (setOpOf r.word) = some row ∧
      (row.xfer = true → isTrailer (r.wordAt (r.pos + 1 + n)) = true) ∧
      decodeWord r.word (r.wordAt (r.pos + 1)) (r.wordAt (r.pos + 2)) = .ok (i, n) ∧ i.cls ≠ .matrix ∧
      (∀ t ∈ r.todo, ((s.wordClock k).thread t).regErr r i = none) ∧
      (∀ m, i.uSrc = some (.latch m) → ∀ t ∈ r.members, ∀ w, ((s.wordClock k).thread t).latch m.toNat ≠ .lane w) ∧
      (i.commits = true → ∀ t ∈ r.todo, (s.wordClock k).mustSeal t r.wordAddr = false)) ∧
    (∃ s : State, ∃ c i n wid ia w e1 e2, s.agenda = [] ∧ s.turn = .seq c ∧ s.seqReady c = true ∧
      (s.col c).seqr.holder = some wid ∧ (s.launch (s.wg wid).lid).decodeNum = 0 ∧
      s.fetchIa (s.launch (s.wg wid).lid).ctx (s.col c).seqr.pc = .ok ia ∧
      icacheWord (s.col c).icache ia = some w ∧ isTrailer w = false ∧ 1024 ≤ setOpOf w ∧ crewOnly (setOpOf w) = false ∧
      (if 1 ≤ n then icacheWord (s.col c).icache (ia + 4) else some 0) = some e1 ∧
      (if 2 ≤ n then icacheWord (s.col c).icache (ia + 8) else some 0) = some e2 ∧
      decodeWord w e1 e2 = .ok (i, n) ∧ ∀ m, i.uSrc ≠ some (.latch m)) ∧
    ∃ s : State, ∃ q r w i, s.agenda = [] ∧ s.turn = .curd q ∧ (s.queue q).run = some r ∧ r.park = .running ∧
      r.budget ≠ 0 ∧ (s.program (s.queue q).program).ops[r.index]? = some w ∧ decodeCurd w = some i := by
  refine ⟨⟨{ State.reset with agenda := [.event .coldReset] }, .coldReset, [], rfl, rfl⟩, ?_, ?_,
    State.reset.withCurd 0x12000000, 0, runW, 0x12000000, .curdRecpkt, by decide +kernel⟩
  · let i : Instr := .add 4#7 1#7 (.code 2#7)
    have h : ((laneS.run? key0).any fun r => (findRow (setOpOf r.word)).any fun row =>
        (match decodeWord r.word (r.wordAt (r.pos + 1)) (r.wordAt (r.pos + 2)) with
          | .ok (j, 0) => j == i
          | _ => false) &&
        decide (r.parked = none ∧ (laneS.col key0.col).acts = true ∧ r.members = [⟨0, 0⟩] ∧
          ((laneS.wordClock key0).crewLaunch 0).decodeNum = 0 ∧ isTrailer r.word = false ∧ r.pos + 0 < 24 ∧
          (row.xfer = true → isTrailer (r.wordAt (r.pos + 1 + 0)) = true) ∧
          ∀ t ∈ r.todo, ((laneS.wordClock key0).thread t).regErr r i = none)) = true := by decide +kernel
    obtain ⟨r, hr, h⟩ := of_any h
    obtain ⟨row, hrow, h⟩ := of_any h
    rw [Bool.and_eq_true, decide_eq_true_eq] at h
    obtain ⟨hd, h1, h2, h3, h4, h5, h6, h7, h8⟩ := h
    split at hd
    · next j hj => exact ⟨laneS, key0, r, i, 0, row, ⟨0, 0⟩, [], rfl, rfl, hr, h1, h2, h3, h4, h5, h6, hrow, h7,
        eq_of_beq hd ▸ hj, by decide, h8, (by intro m hm; cases hm), (by intro hc; cases hc)⟩
    · cases hd
  · let s := State.reset.withSeq [0x80014160#32]
    have h : (match s.fetchIa (s.launch (s.wg 0).lid).ctx (s.col 0).seqr.pc with
      | .ok 0 => true
      | _ => false) = true := by decide +kernel
    have hs : s.seqReady 0 = true ∧ (s.col 0).seqr.holder = some 0 ∧ (s.launch (s.wg 0).lid).decodeNum = 0 ∧
      icacheWord (s.col 0).icache 0 = some 0x80014160 := by decide +kernel
    split at h
    · next he => exact ⟨s, 0, .uniformAdd 10#8 (.reg 11#8) false, 0, 0, 0, 0x80014160, 0, 0, rfl, rfl, hs.1, hs.2.1,
        hs.2.2.1, he, hs.2.2.2, rfl, by decide +kernel, rfl, rfl, rfl, decode_uniform, by intro m; simp [Instr.uSrc]⟩
    · cases h
/-! ## Single steps: results of the spec's examples -/

/-- The thread of a run with values in some registers. -/
def regS (vs : List (Nat × Word)) : State :=
  laneS.updThread ⟨0, 0⟩ fun t => vs.foldl (fun x p => x.setReg p.1 p.2) t
/-- What a register holds after an instruction. -/
def regAfter (i : Instr) (vs : List (Nat × Word)) (n : Nat) : Option Word :=
  match exec i (regS vs) with
  | .next s => some ((s.thread ⟨0, 0⟩).reg n)
  | _ => none
/-- What a predicate holds after an instruction. -/
def predAfter (i : Instr) (s : State) (n : BitVec 3) : Option Bool :=
  match exec i s with
  | .next s => some ((s.thread ⟨0, 0⟩).pred n)
  | _ => none

/-- R26's example: v1 = 5, v2 = 7. -/
theorem step_add : regAfter (.add 4#7 1#7 (.code 2#7)) [(1, 5), (2, 7)] 4 = some 12 := by decide +kernel
/-- R97's example: an LI operand is sign-extended and read unsigned. -/
theorem step_min : regAfter (.minN32Imm 1#7 2#7 0x7f#7) [(2, 9)] 1 = some 9 := by decide +kernel
/-- R102's example: shl by −1 saturates the amount. -/
theorem step_shl : regAfter (.shlImm 1#7 2#7 0x7f#7) [(2, 0xff)] 1 = some 0 := by decide +kernel
/-- R104's examples. -/
theorem step_bfe_n : regAfter (.bfeN32 1#7 2#7 (.lit 0x810)) [(2, 0xdeadbeef)] 1 = some 0xad := by decide +kernel
theorem step_bfe_i : regAfter (.bfeI32 1#7 2#7 (.lit 0x810)) [(2, 0xdeadbeef)] 1 = some 0xffffffad := by decide +kernel
theorem step_bfi : regAfter (.bfi 1#7 2#7 (.lit 0x81c)) [(2, 0xff)] 1 = some 0xf0000000 := by decide +kernel
theorem step_bfe_program : regAfter (.bfeI32 6#7 2#7 (.lit 0xc14)) [(2, 0xf2345678)] 6 = some 0xffffff23 := by
  decide +kernel
/-- R105's example. -/
theorem step_sext : regAfter (.sextImm 1#7 2#7 8#7) [(2, 0x180)] 1 = some 0xffffff80 := by decide +kernel
/-- R106's example: `lea.i.s2` with −1; both halves of the pair. -/
theorem step_lea : regAfter (.leaI 2#2 12#7 10#7 (.lit 0xffffffff)) [(10, 0x1000), (11, 0x40)] 12 = some 0xffc := by
  decide +kernel
theorem step_lea_high : regAfter (.lea 2#2 12#7 10#7 (.code 3#7)) [(10, 0x1000), (11, 0x40), (3, 5)] 13 = some 0x40 := by
  decide +kernel
/-- R107's example. -/
theorem step_dp4 : regAfter (.dp4I8 1#7 2#7 (.lit 0x02020304)) [(1, 10), (2, 0x80ff0102)] 1 = some 0xffffff13 := by
  decide +kernel
/-- R109's use in the program of 04. -/
theorem step_cmp : predAfter (.cmpInteger 0#2 2#3 2#4 6#7 (.code 120#7)) (regS [(6, 0xffffff23)]) 2#3 = some true := by
  decide +kernel
/-- R110's examples: the inverse of p2, and false. -/
theorem step_plut : predAfter (.plut 3#3 3#4 2#3 2#3) (laneS.updThread ⟨0, 0⟩ fun t => t.setPred 2#3 true) 3#3 = some false := by
  decide +kernel
theorem step_plut_clear : predAfter (.plut 1#3 0#4 7#3 7#3) (laneS.updThread ⟨0, 0⟩ fun t => t.setPred 1#3 true) 1#3 = some false := by
  decide +kernel
/-- R113's example: a call at position 6 of a run at L writes lr and goes to the target at the run's end. -/
theorem step_call : (match exec (.call 7#3 false 4#17) laneS with
    | .next s => (s.thread ⟨0, 0⟩).reg 92 == 8 && (s.thread ⟨0, 0⟩).jump == some 0x10
    | _ => false) = true := by decide +kernel
/-- R133's example: the fma, the exact quotient narrowed once, and its way back. -/
theorem step_fma : regAfter (.fma .f32 0#3 3#7 1#7 (.code 2#7)) [(1, 0x3fc00000), (2, 0x40100000), (3, 0x3ec00000)] 3 =
    some 0x40700000 := by decide +kernel
theorem step_qnt : regAfter (.qnt false false 4#3 5#7 3#7 (.code 4#7)) [(3, 0x40700000), (4, 0x3f400000)] 5 = some 6 := by
  decide +kernel
theorem step_dqnt : regAfter (.dqnt 4#3 6#7 5#7 (.code 4#7)) [(5, 6), (4, 0x3f400000)] 6 = some 0x40400000 := by
  decide +kernel
/-- R139's example: a black pair unpacked, and packed back. -/
theorem step_pxunpk : regAfter (.pxunpk 0#2 2#7 8#7 (.lit 1)) [(8, 0x00080480), (9, 0x40)] 2 = some 0x00400200 := by
  decide +kernel
theorem step_pxpack : regAfter (.pxpack 0#2 8#7 2#7 (.lit 1)) [(8, 0x00080480), (9, 0x40), (2, 0x00400200), (3, 0x200)] 8 =
    some 0x00080480 := by decide +kernel
/-- R88's table: narrowings to E2M1 and E4M3. -/
theorem narrow_e2m1 : [0x40a00000, 0x40200000, 0xbf400000, 0x40e00000, 0x7fc00000].map (fun w => e2m1.narrow .rn false (f32 w)) =
    [6, 4, 10, 7, 0] := by decide +kernel
theorem narrow_e4m3 : [(0x43e80000, false), (0x43e88000, false), (0x43e88000, true)].map
    (fun w => e4m3.narrow .rn w.2 (f32 w.1)) = [0x7e, 0x7f, 0x7e] := by decide +kernel
/-- R77's example: 5.25 s. -/
theorem time_example : nsToT64 5250000000 = 0x000000014ee6b280#64 := by decide +kernel
/-- R197's example: the object after the clock in which its phase completes. -/
theorem tb_example : TbObj.ofNat (0x000138eca4800000 * 2 ^ 64 + 0x0008000020000201) =
    { phase := 1, pending := 2, reload := 2, sectors := 8, doneNs := 5250000000 } := by decide +kernel
/-- R271's example: the range and the IA of a pointer. -/
theorem range_example : (match Context.check { num := 5, root := 0
                                               ranges := ((Vector.replicate 8 {}).set 0
                                                 { base := 0x20000000, limit := 0x2fff0000, ctl := 0x80 }).set 1
                                                 { base := 0x10000000, limit := 0x1fff0000, xlat := 0x0050004000000000#64
                                                   ctl := 0x83 }
                                               bounds := [{}, {}, {}, ⟨0x050004000000000, 0x0500040ffffffff, 0x87⟩] }
      0x0030000012345680 4 permR with
    | .ok ia => ia
    | .error _ => 0) = 0x050004012345680 := by decide +kernel
/-- R338's example: the victims of core 9 in order. -/
theorem victims_example : (victimOrder 9).take 12 = [10, 11, 8, 12, 13, 14, 15, 4, 5, 6, 7, 16] := by decide +kernel
/-- R410's example: the sums of three cards. -/
theorem sum_example :
    let e : CollEntry := { id := 0, ctx := 0, table := 0, index := 0, cid := 0, readiedAt := 0
                           fields := List.replicate 24 0 ++ [7, 0, 0, 0, 0, 0, 0xff, 0, 32] ++ List.replicate 31 0 }
    let card (ws : List Nat) : List Byte := (ws.flatMap (toLe 4)) ++ List.replicate 112 0
    let ds := [card [0x4b800000, 0x3cc00000, 0, 0x80000000], card [0x3f800000, 0, 0x7f800000, 0x80000000],
      card [0x3f800000, 0, 0xff800000, 0x80000000]]
    (List.range 5).map (e.reduce ds) = [0x4b800001, 0x3d000000, 0x7fc00000, 0x80000000, 0] := by decide +kernel

end Sys2Proof.Tests
end

/-!
PROOF. What the host writes and reads through BAR0 and BAR2 (16 R413 to R417, 00 R6, R7): the rules for a port's
writes, for the device cache's fills, and for bytes that go to G7 DRAM through BAR2, from which O39 is assembled.
-/

namespace Sys2Proof.Proofs

open Sys2Proof Sys2Proof.Machine Sys2Proof.Safety Sys2Proof.Laws

/-! ## A port's staged half (R417) -/

section
variable (p : Port) (s : State)

@[simp] theorem unstage_sem (n : Nat) : (s.unstage p).sem n = s.sem n := by cases p <;> rfl
@[simp] theorem unstage_queue (q : Nat) : (s.unstage p).queue q = s.queue q := by cases p <;> rfl
@[simp] theorem unstage_col (c : Nat) : (s.unstage p).col c = s.col c := by cases p <;> rfl
@[simp] theorem unstage_fqHead : (s.unstage p).fqHead = s.fqHead := by cases p <;> rfl
@[simp] theorem unstage_fqTail : (s.unstage p).fqTail = s.fqTail := by cases p <;> rfl
@[simp] theorem unstage_ownerOk (x : Queue) : (s.unstage p).ownerOk p x = s.ownerOk p x := by cases p <;> rfl
@[simp] theorem stage_barLive (off : Nat) (w : Word) : (s.stage p off w).barLive p = s.barLive p := by cases p <;> rfl
@[simp] theorem stage_staged (off : Nat) (w : Word) : (s.stage p off w).staged? p = some (off, w) := by cases p <;> rfl
@[simp] theorem stage_unstage (off : Nat) (w : Word) : (s.stage p off w).unstage p = s.unstage p := by cases p <;> rfl

end

/-- A write of a whole register by a port whose BARs are live acts once the port's staged half is gone. -/
theorem hostWrite_live {s : State} {p : Port} (h : s.barLive p = true) (f : State → State) :
    s.hostWrite p f = .next (f (s.unstage p)) := by
  rw [State.hostWrite, if_pos h]

/-! ## Registers written whole and by halves (R6, R7, R417) -/

theorem bar0Write_whole {s : State} {p : Port} {off size : Nat} {r : Reg} (v : DWord) (h : s.barLive p = true)
    (hr : bar0Acc off size = .whole r) : s.bar0Write p off size v = (s.unstage p).regPut p r v := by
  simp [State.bar0Write, h, hr]
theorem bar0Write_lower {s : State} {p : Port} {off size : Nat} {r : Reg} (v : DWord) (h : s.barLive p = true)
    (hr : bar0Acc off size = .lower r) : s.bar0Write p off size v = s.stage p off (v.setWidth 32) := by
  simp [State.bar0Write, h, hr]
theorem bar0Write_upper {s : State} {p : Port} {off size : Nat} {r : Reg} (v : DWord) (h : s.barLive p = true)
    (hr : bar0Acc off size = .upper r) : s.bar0Write p off size v =
      (s.unstage p).regPut p r (BitVec.ofNat 64 (v.toNat % 2 ^ 32 * 2 ^ 32 + s.lowerHalf p off r)) := by
  simp [State.bar0Write, h, hr]
/-- The lower half that a port has staged joins the upper half that lies next to it. -/
theorem lowerHalf_stage (s : State) (p : Port) (off : Nat) (w : Word) (r : Reg) :
    (s.stage p off w).lowerHalf p (off + 4) r = w.toNat := by
  simp [State.lowerHalf]
/-- Two halves joined as numbers are the halves appended. -/
theorem ofNat_halves (v : DWord) (w : Word) :
    BitVec.ofNat 64 (v.toNat % 2 ^ 32 * 2 ^ 32 + w.toNat) = (v.setWidth 32 : Word) ++ w := by
  apply BitVec.eq_of_toNat_eq
  have hw := w.isLt
  rw [BitVec.toNat_append, ← Nat.shiftLeft_add_eq_or_of_lt hw]
  simp only [BitVec.toNat_ofNat, BitVec.toNat_setWidth, Nat.shiftLeft_eq]
  omega

theorem registerWrite_whole {s : State} {p : Port} {off size : Nat} {r : Reg} (v : DWord) (h : s.barLive p = true)
    (hr : bar0Acc off size = .whole r) :
    exec (.registerWrite p off size v) s = .next ((s.unstage p).regPut p r v) :=
  congrArg _ (bar0Write_whole v h hr)
theorem lowerHalfWrite_stages {s : State} {p : Port} {off : Nat} {r : Reg} (w : Word) (h : s.barLive p = true)
    (hr : bar0Acc off 4 = .lower r) : exec (.bar0LowerHalfWrite p off w) s = .next (s.stage p off w) := by
  have hw : (w.setWidth 64).setWidth 32 = w := by simp
  calc exec (.bar0LowerHalfWrite p off w) s = .next (s.bar0Write p off 4 (w.setWidth 64)) := rfl
    _ = .next (s.stage p off w) := by rw [bar0Write_lower _ h hr, hw]
theorem registerWrite_upper_staged {s : State} {p : Port} {off : Nat} {r : Reg} (v : DWord) (w : Word)
    (h : s.barLive p = true) (hr : bar0Acc (off + 4) 4 = .upper r) :
    exec (.registerWrite p (off + 4) 4 v) (s.stage p off w) =
      .next ((s.unstage p).regPut p r ((v.setWidth 32 : Word) ++ w)) :=
  calc exec (.registerWrite p (off + 4) 4 v) (s.stage p off w)
      = .next ((s.stage p off w).bar0Write p (off + 4) 4 v) := rfl
    _ = .next ((s.unstage p).regPut p r ((v.setWidth 32 : Word) ++ w)) := by
      rw [bar0Write_upper v (by simpa using h) hr, stage_unstage, lowerHalf_stage, ofNat_halves]

/-! ## Semaphores (R414) -/

theorem sem_setSem {n : Nat} (s : State) (v : DWord) (h : n < 64) : (s.setSem n v).sem n = v := by
  simp [State.sem, State.setSem, h]
theorem sem_setSem_ne {n m : Nat} (s : State) (v : DWord) (h : m ≠ n) : (s.setSem n v).sem m = s.sem m := by
  simp [State.sem, State.setSem, h.symm]

/-- What a port's write of a semaphore leaves: the semaphore with its value, and everything else but the staged half. -/
theorem setSem_unstage (s : State) (p : Port) {n : Nat} (v : DWord) (h : n < 64) :
    (s.unstage p).setSem n v = { s.unstage p with sems := ((s.unstage p).setSem n v).sems } ∧
      ((s.unstage p).setSem n v).sem n = v ∧ ∀ m, m ≠ n → ((s.unstage p).setSem n v).sem m = s.sem m :=
  ⟨rfl, sem_setSem _ v h, fun m hm => by rw [sem_setSem_ne _ v hm, unstage_sem]⟩
theorem semValue_write {s : State} {p : Port} (n : Nat) (v : DWord) (h : s.barLive p = true) :
    exec (.semValue n ⟨p, v⟩) s = .next ((s.unstage p).setSem n v) :=
  hostWrite_live h fun s1 => s1.setSem n v
theorem semAdd_write {s : State} {p : Port} (n : Nat) (v : DWord) (h : s.barLive p = true) :
    exec (.semAdd n ⟨p, v⟩) s = .next ((s.unstage p).setSem n (s.sem n + v)) := by
  rw [← unstage_sem p s n]
  exact hostWrite_live h fun s1 => s1.setSem n (s1.sem n + v)

theorem sem_claimSem (s : State) (p : Port) {n : Nat} (h : n < 64) :
    (s.claimSem p n).sem n = if s.sem n = 0 then (if p = .a then 1#64 else 2#64) else s.sem n := by
  unfold State.claimSem
  split
  · cases p <;> exact sem_setSem s _ h
  · rfl
theorem sem_claimSem_ne (s : State) (p : Port) {n m : Nat} (h : m ≠ n) : (s.claimSem p n).sem m = s.sem m := by
  unfold State.claimSem
  split
  · exact sem_setSem_ne s _ h
  · rfl
@[simp] theorem claimSem_outbox (s : State) (p : Port) (n : Nat) : (s.claimSem p n).outbox = s.outbox := by
  unfold State.claimSem
  split <;> rfl
/-- The port is told the semaphore as it stood before the claim. -/
theorem claimSem_answered (s : State) (p : Port) (n : Nat) :
    ((s.claimSem p n).tellHost p (bar0 (0x2010 + 0x20 * n)) (toLe 8 (s.sem n).toNat)).outbox =
      s.outbox ++ [.hostRead p (bar0 (0x2010 + 0x20 * n)) (toLe 8 (s.sem n).toNat)] := by
  simp [State.tellHost]
theorem semClaim_read {s : State} {p : Port} {n : Nat} (h : s.barLive p = true) (hn : n < 64) :
    exec (.semClaim p n) s =
      .next ((s.claimSem p n).tellHost p (bar0 (0x2010 + 0x20 * n)) (toLe 8 (s.sem n).toNat)) :=
  congrArg _ (if_pos ⟨h, hn⟩)

/-! ## Tail writes (R320, R415) -/

/-- A queue takes a tail: its owner semaphore admits the port, and the tail neither falls nor passes the ring. -/
def TailOk (s : State) (p : Port) (q : Nat) (v : DWord) : Prop :=
  s.ownerOk p (s.queue q) = true ∧ (s.queue q).tail.toNat ≤ v.toNat ∧
    v.toNat ≤ (s.queue q).head.toNat + (s.queue q).slots

theorem qTail_write {s : State} {p : Port} {q : Nat} (v : DWord) (h : s.barLive p = true) (hq : q < 256) :
    exec (.qTail p q v) s = .next ((s.unstage p).putTail p q v) :=
  (hostWrite_live h fun s1 => if q < 256 then s1.putTail p q v else s1).trans (congrArg _ (if_pos hq))
theorem putTail_ok {s : State} {p : Port} {q : Nat} {v : DWord} (h : TailOk s p q v) :
    (s.unstage p).putTail p q v = (s.unstage p).updQueue q fun y => { y with tail := v } :=
  if_pos (by simpa [TailOk] using h)
theorem putTail_err {s : State} {p : Port} {q : Nat} {v : DWord} (h : ¬ TailOk s p q v) :
    (s.unstage p).putTail p q v = (s.unstage p).updQueue q fun y => { y with tailErr := true } :=
  if_neg (by simpa [TailOk] using h)

/-! ## The fault queue's registers (R351) -/

/-- A double word is the sum of its bits outside a mask and those inside it. -/
theorem and_not_add_and (v m : DWord) : (v &&& ~~~ m) + (v &&& m) = v := by
  have apart : v &&& ~~~ m &&& (v &&& m) = 0#64 := by
    ext i hi
    cases h : m[i] <;> simp [h]
  rw [BitVec.add_eq_or_of_and_eq_zero _ _ apart]
  ext i hi
  cases h : m[i] <;> simp [h]
/-- An address without the bits of its offset within 64 bytes. -/
theorem and_not_63 (v : DWord) : v &&& ~~~ 63#64 = v - v % 64 := by
  have low : v &&& 63#64 = v % 64 := BitVec.eq_of_toNat_eq (Nat.and_two_pow_sub_one_eq_mod v.toNat 6)
  rw [← low]
  exact eq_sub_of_add_eq (and_not_add_and v 63#64)

theorem fqHead_write {s : State} {p : Port} (v : DWord) (h : s.barLive p = true) :
    exec (.fqHead ⟨p, v⟩) s = .next ((s.unstage p).putFqHead v) := hostWrite_live h fun s1 => s1.putFqHead v
theorem putFqHead_ok {s : State} {p : Port} {v : DWord} (h : s.fqHead ≤ v.toNat ∧ v.toNat ≤ s.fqTail) :
    (s.unstage p).putFqHead v = { s.unstage p with fqHead := v.toNat }.retryQueue := by
  rw [State.putFqHead, if_pos (by simpa using h)]
theorem putFqHead_outside {s : State} {p : Port} {v : DWord} (h : ¬ (s.fqHead ≤ v.toNat ∧ v.toNat ≤ s.fqTail)) :
    (s.unstage p).putFqHead v = (s.unstage p).retryQueue := by
  rw [State.putFqHead, if_neg (by simpa using h)]
theorem fqBase_write {s : State} {p : Port} (v : DWord) (h : s.barLive p = true) :
    exec (.fqBase ⟨p, v⟩) s = .next ({ s.unstage p with fqBase := v - v % 64 }.retryQueue) := by
  rw [← and_not_63]
  exact hostWrite_live h fun s1 => s1.putFqBase v
theorem fqSize_write {s : State} {p : Port} (v : Word) (h : s.barLive p = true) :
    exec (.fqSize ⟨p, v⟩) s = .next ({ s.unstage p with fqLog2 := v.toNat % 32 }.retryQueue) :=
  hostWrite_live h fun s1 => s1.putFqSize v.toNat

/-! ## Gating requests (R361) -/

@[simp] theorem askSeal_gateReq (r : Byte) (x : Column) : (x.askSeal r).gateReq = x.gateReq := by
  unfold Column.askSeal; split <;> rfl
@[simp] theorem askSeal_lost (r : Byte) (x : Column) : (x.askSeal r).lost = x.lost := by
  unfold Column.askSeal; split <;> rfl
theorem askSeal_asks (r : Byte) (x : Column) : (x.askSeal r).sealReqs.contains r = true := by
  unfold Column.askSeal; split <;> simp_all

/-- A seal in progress with reason 1 stands in the way of another gating seal. -/
theorem no_gating_seal {x : Column} (h : ∀ y, x.sealing = some y → y.reason ≠ 1#8) :
    x.sealing.all (fun z => z.reason != 1#8) = true := by
  cases hx : x.sealing with
  | none => rfl
  | some y => simpa using h y hx

theorem putGate_gateReq (v : Word) (x : Column) : (x.putGate v).gateReq = v.getLsbD 0 := by
  unfold Column.putGate; dsimp only; split
  · exact askSeal_gateReq _ _
  · rfl
theorem putGate_lost (v : Word) (x : Column) : (x.putGate v).lost = (x.lost && !v.getLsbD 30) := by
  unfold Column.putGate; dsimp only; split
  · exact askSeal_lost _ _
  · rfl
theorem putGate_asks {v : Word} {x : Column} (hv : v.getLsbD 0 = true) (hg : x.gated = false)
    (hs : ∀ y, x.sealing = some y → y.reason ≠ 1#8) : (x.putGate v).sealReqs.contains 1#8 = true := by
  unfold Column.putGate
  rw [if_pos ⟨hv, by simp [hg], no_gating_seal hs⟩]
  exact askSeal_asks _ _
theorem putGate_quiet {v : Word} {x : Column} (hv : v.getLsbD 0 = false) : (x.putGate v).sealReqs = x.sealReqs := by
  unfold Column.putGate
  rw [if_neg fun h => by simp [show bit v 0 = false from hv] at h]

theorem colGateReq_write {s : State} {p : Port} {c : Nat} (v : Word) (h : s.barLive p = true) (hc : c < 96) :
    exec (.colGateReq c ⟨p, v⟩) s = .next ((s.unstage p).putGate c v) :=
  (hostWrite_live h fun s1 => if c < 96 then s1.putGate c v else s1).trans (congrArg _ (if_pos hc))
/-- The column after a write of its gating register. -/
theorem col_putGate (s : State) (p : Port) {c : Nat} (v : Word) (hc : c < 96) :
    ((s.unstage p).putGate c v).col c = (s.col c).putGate v := by
  rw [State.putGate, col_updCol _ _ _ hc, unstage_col]
/-- A write of a gating register changes its column only. -/
theorem putGate_eq_updCol (s : State) (p : Port) {c : Nat} (v : Word) (hc : c < 96) :
    (s.unstage p).putGate c v = (s.unstage p).updCol c fun _ => ((s.unstage p).putGate c v).col c := by
  rw [col_putGate s p v hc, ← unstage_col p s c]; rfl

/-! ## Fills of the device cache (R280, R295) -/

/-- A state that differs only in the device cache and in the single-bit errors of G7 DRAM that reads have corrected. -/
def CacheFilled (s t : State) : Prop :=
  ∃ dc wk ce, t = { s with dcache := dc, weak := wk, dramCe := ce }

theorem CacheFilled.refl (s : State) : CacheFilled s s := ⟨_, _, _, rfl⟩
theorem CacheFilled.trans {s t u : State} : CacheFilled s t → CacheFilled t u → CacheFilled s u := by
  rintro ⟨_, _, _, rfl⟩ ⟨dc, wk, ce, rfl⟩
  exact ⟨dc, wk, ce, rfl⟩
theorem CacheFilled.mem {s t : State} : CacheFilled s t → t.mem = s.mem := by rintro ⟨_, _, _, rfl⟩; rfl
theorem CacheFilled.bad {s t : State} : CacheFilled s t → t.bad = s.bad := by rintro ⟨_, _, _, rfl⟩; rfl
theorem CacheFilled.outbox {s t : State} : CacheFilled s t → t.outbox = s.outbox := by rintro ⟨_, _, _, rfl⟩; rfl
theorem CacheFilled.byte {s t : State} (k : Nat) : CacheFilled s t → t.byte k = s.byte k := by
  rintro ⟨_, _, _, rfl⟩; rfl

theorem correct_dram (s : State) {k : Nat} (hk : keyRegion k = regDram) : CacheFilled s (s.correct k) := by
  unfold State.correct
  split
  · rw [State.countCe, if_pos hk]; exact ⟨_, _, _, rfl⟩
  · exact .refl s
theorem dcInsert_filled (s : State) (k home : Nat) : CacheFilled s (s.dcInsert k home) := ⟨_, _, _, rfl⟩
theorem dcFill_dram (s : State) {k : Nat} (home : Nat) (hk : keyRegion k = regDram) :
    CacheFilled s (s.dcFill k home) := by
  unfold State.dcFill
  split_ifs
  · exact .refl s
  · exact dcInsert_filled s k home
  · exact .refl s
  · exact (correct_dram s hk).trans (dcInsert_filled _ k home)

/-- The key of a byte of G7 DRAM is its address. -/
@[simp] theorem mkKey_dram (a : Nat) : mkKey regDram a = a := by simp [mkKey, regDram]
/-- G7 DRAM is the region of the lowest keys. -/
theorem keyRegion_dram {k : Nat} : keyRegion k = regDram ↔ k < 2 ^ 60 := by
  rw [keyRegion, regDram]; omega
/-- A key of G7 DRAM is its own address. -/
theorem keyOff_dram {k : Nat} (h : keyRegion k = regDram) : keyOff k = k := Nat.mod_eq_of_lt (keyRegion_dram.mp h)
theorem dramSize_lt : dramSize < 2 ^ 60 := by decide

/-- The fills of an access that lies in G7 DRAM. -/
theorem dcFillAll_dram (s : State) {k n : Nat} (hk : k < dramSize) (hn : k + n ≤ dramSize) :
    CacheFilled s (s.dcFillAll k n) := by
  unfold State.dcFillAll
  refine List.foldlRecOn (motive := CacheFilled s) _ _ (.refl s) fun t ht i hi => ht.trans (dcFill_dram t _ ?_)
  have := List.mem_range.mp hi
  have := dramSize_lt
  exact keyRegion_dram.mpr (by omega)

/-! ## Memory behind no stash (R283) -/

/-- No workgroup has a stash entry. -/
def NoStash (s : State) : Prop := ∀ w ∈ s.wgs, w.stash = []

theorem NoStash.stashOf {s : State} (h : NoStash s) (k : Nat) : s.stashOf k = none :=
  List.findSome?_eq_none_iff.mpr fun w hw => by simp [h w hw]
theorem NoStash.route {s : State} (h : NoStash s) (k : Nat) : s.route k = k := by
  rw [State.route, h.stashOf]
theorem NoStash.byte {s : State} (h : NoStash s) (k : Nat) : s.byte k = memGet s.mem k := by
  rw [State.byte, h.route]
theorem NoStash.fillAt {s : State} (h : NoStash s) (k : Nat) : s.fillAt k = s :=
  if_pos (.inr (List.all_eq_true.mpr fun w hw => by simp [h w hw]))

/-- A state that differs only in memory and in the copies of it that a write of G7 DRAM reaches. -/
def DramWritten (s t : State) : Prop :=
  ∃ m dc wk ce lg pl, t = { s with mem := m, dcache := dc, weak := wk, dramCe := ce, lags := lg, peerLines := pl }

theorem CacheFilled.written {s t : State} : CacheFilled s t → DramWritten s t := by
  rintro ⟨dc, wk, ce, rfl⟩
  exact ⟨_, dc, wk, ce, _, _, rfl⟩
theorem DramWritten.refl (s : State) : DramWritten s s := (CacheFilled.refl s).written
theorem DramWritten.trans {s t u : State} : DramWritten s t → DramWritten t u → DramWritten s u := by
  rintro ⟨_, _, _, _, _, _, rfl⟩ ⟨m, dc, wk, ce, lg, pl, rfl⟩
  exact ⟨m, dc, wk, ce, lg, pl, rfl⟩
theorem DramWritten.noStash {s t : State} : DramWritten s t → NoStash s → NoStash t := by
  rintro ⟨_, _, _, _, _, _, rfl⟩ h; exact h
/-- The form in which the statements name what a write changes. -/
theorem DramWritten.eq {s t : State} : DramWritten s t → t = { s with
    mem := t.mem, dcache := t.dcache, weak := t.weak, dramCe := t.dramCe, lags := t.lags
    peerLines := t.peerLines } := by
  rintro ⟨_, _, _, _, _, _, rfl⟩; rfl

/-- A write to G7 DRAM behind no stash: memory, the stores that a span does not see yet, and the copies of the bytes. -/
theorem put_dram_eq {s : State} (h : NoStash s) {k : Nat} (hk : keyRegion k = regDram) (bs : List Byte) :
    s.put k bs = { s with
      mem := memSetBytes s.mem k bs
      peerLines := peerPut k bs s.peerLines
      lags := s.lags.filter fun l => !l.touches k bs.length
      dcache := dcWrite k ((List.range 16).map fun i => memGet s.mem (k / 16 * 16 + i)) s.dcache } := by
  have notScratch : ¬ 40 ≤ keyRegion k := by simp [hk, regDram]
  have notKeep : keyRegion k ≠ regKeep := by simp [hk, regDram, regKeep]
  simp only [State.put, State.putBy, h.stashOf, h.route, notScratch, false_and, if_false, if_neg notKeep]
theorem put_dram {s : State} (h : NoStash s) {k : Nat} (hk : keyRegion k = regDram) (bs : List Byte) :
    DramWritten s (s.put k bs) ∧ (s.put k bs).mem = memSetBytes s.mem k bs := by
  rw [put_dram_eq h hk]
  exact ⟨⟨_, _, _, _, _, _, rfl⟩, rfl⟩

/-! ## BAR2 (R413) -/

/-- The bytes that lie in G7 DRAM are written, and the others dropped. -/
theorem bar2Put_dram {s : State} (h : NoStash s) (a : Nat) (bs : List Byte) :
    DramWritten s (bar2Put s a bs) ∧ (bar2Put s a bs).mem = memSetBytes s.mem a (bs.take (dramSize - a)) := by
  induction bs generalizing s a with
  | nil => exact ⟨.refl s, by simp [bar2Put, memSetBytes]⟩
  | cons b bs ih =>
    rw [bar2Put, mkKey_dram, h.fillAt]
    by_cases ha : dramSize ≤ a
    · obtain ⟨written, mem⟩ := ih h (a + 1)
      rw [if_pos ha]
      refine ⟨written, ?_⟩
      rw [mem, Nat.sub_eq_zero_of_le ha, Nat.sub_eq_zero_of_le (Nat.le_succ_of_le ha)]
      rfl
    · have hk : keyRegion a = regDram := keyRegion_dram.mpr (by have := dramSize_lt; omega)
      obtain ⟨first, memFirst⟩ := put_dram h hk [b]
      obtain ⟨rest, memRest⟩ := ih (first.noStash h) (a + 1)
      rw [if_neg ha]
      refine ⟨first.trans rest, ?_⟩
      rw [memRest, memFirst, show dramSize - a = dramSize - (a + 1) + 1 by omega]
      rfl

/-- The state in which an access of BAR2 finds its sectors at their home slices. -/
def bar2Filled (s : State) (addr n : Nat) : State :=
  if dramSize ≤ addr then s else s.dcFillAll (mkKey regDram addr) (min n (dramSize - addr))

theorem bar2Filled_filled (s : State) (addr n : Nat) : CacheFilled s (bar2Filled s addr n) := by
  unfold bar2Filled
  split
  · exact .refl s
  · rw [mkKey_dram]; exact dcFillAll_dram s (by omega) (by omega)

/-- The bytes that BAR2 answers. -/
def bar2Bytes (s : State) (addr size : Nat) : List Byte := (List.range size).map fun i => s.bar2Byte addr i
/-- The state after BAR2's answer to a port: a free value is drawn for each byte, used or not. -/
def bar2Answered (s : State) (p : Port) (addr size : Nat) : State :=
  { s with freeCtr := s.freeCtr + size }.tellHost p addr (bar2Bytes s addr size)

theorem bar2Bytes_length (s : State) (addr size : Nat) : (bar2Bytes s addr size).length = size := by
  simp [bar2Bytes]
theorem bar2Bytes_getD (s : State) (addr : Nat) {size i : Nat} (h : i < size) :
    (bar2Bytes s addr size).getD i 0 = s.bar2Byte addr i := by
  simp [bar2Bytes, h]
theorem bar2Answered_outbox (s : State) (p : Port) (addr size : Nat) :
    (bar2Answered s p addr size).outbox = s.outbox ++ [.hostRead p addr (bar2Bytes s addr size)] := rfl
theorem bar2Answered_mem (s : State) (p : Port) (addr size : Nat) : (bar2Answered s p addr size).mem = s.mem := rfl

theorem bar2_write {s : State} {p : Port} (addr size : Nat) (data : List Byte) (h : s.barLive p = true) :
    exec (.hostBar2Access p true addr size data) s =
      .next (bar2Put (bar2Filled s addr (max size data.length)) addr data) :=
  congrArg _ (if_neg (not_not.mpr h))
theorem bar2_read {s : State} {p : Port} (addr size : Nat) (data : List Byte) (h : s.barLive p = true) :
    exec (.hostBar2Access p false addr size data) s =
      .next (bar2Answered (bar2Filled s addr (max size data.length)) p addr size) :=
  congrArg _ (if_neg (not_not.mpr h))

/-- What a write through BAR2 changes, and what each byte then reads as. -/
theorem bar2Put_spec {s : State} (addr n : Nat) (data : List Byte) (ok : MemoryOk s) (h : NoStash s) :
    DramWritten s (bar2Put (bar2Filled s addr n) addr data) ∧
      ∀ k, (bar2Put (bar2Filled s addr n) addr data).byte k =
        if keyRegion k = regDram ∧ addr ≤ keyOff k ∧ keyOff k < dramSize ∧ keyOff k < addr + data.length
        then data.getD (keyOff k - addr) 0 else s.byte k := by
  have filled := bar2Filled_filled s addr n
  obtain ⟨written, mem⟩ := bar2Put_dram (filled.written.noStash h) addr data
  have all := filled.written.trans written
  refine ⟨all, fun k => ?_⟩
  rw [(all.noStash h).byte, h.byte, mem, filled.mem, get_memSetBytes ok.1]
  have size := dramSize_lt
  have cond : (addr ≤ k ∧ k < addr + (data.take (dramSize - addr)).length) ↔
      (keyRegion k = regDram ∧ addr ≤ keyOff k ∧ keyOff k < dramSize ∧ keyOff k < addr + data.length) := by
    rw [List.length_take]
    constructor
    · intro hk
      have region := keyRegion_dram.mpr (show k < 2 ^ 60 by omega)
      rw [keyOff_dram region]
      exact ⟨region, by omega⟩
    · rintro ⟨region, hk⟩
      rw [keyOff_dram region] at hk
      omega
  refine ite_congr (propext cond) (fun hk => ?_) fun _ => rfl
  obtain ⟨region, lo, hi, -⟩ := hk
  rw [keyOff_dram region] at lo hi ⊢
  rw [List.getD_eq_getElem?_getD, List.getElem?_take_of_lt (by omega), List.getD_eq_getElem?_getD]

/-- An uncorrectable error at one byte is one of its sector. -/
theorem eccAt_one (s : State) (k : Nat) : (s.eccAt k 1).isSome = s.badAt (k / 16 * 16) := by
  cases h : s.badAt (k / 16 * 16) <;> simp [State.eccAt, h]
/-- A byte of G7 DRAM and the start of its sector lie in one code word. -/
theorem codeWord_sector {k : Nat} (h : keyRegion k = regDram) : codeWord (k / 16 * 16) = codeWord k := by
  have hs : keyRegion (k / 16 * 16) = regDram := keyRegion_dram.mpr (by have := keyRegion_dram.mp h; omega)
  rw [codeWord, codeWord, if_pos hs, if_pos h]
  omega

theorem bar2Byte_above (s : State) {a i : Nat} (h : dramSize ≤ a + i) : s.bar2Byte a i = 0xff#8 := if_pos h
theorem bar2Byte_dram {s : State} {a i : Nat} (h : a + i < dramSize)
    (good : codeWord (mkKey regDram (a + i)) ∉ s.bad) :
    s.bar2Byte a i = s.byte (mkKey regDram (a + i)) := by
  have region : keyRegion (a + i) = regDram := keyRegion_dram.mpr (h.trans dramSize_lt)
  rw [mkKey_dram] at good
  have clean : s.badAt ((a + i) / 16 * 16) = false := by
    simp [State.badAt, codeWord_sector region, good]
  rw [State.bar2Byte, if_neg (by omega), mkKey_dram, eccAt_one, clean]
  rfl

/-- What BAR2 reads at each byte, once the sectors are at their home slices: all ones above G7 DRAM, and the byte that
stood there where its code word has no uncorrectable error. -/
theorem bar2Filled_reads (s : State) (addr n : Nat) {size i : Nat} (hi : i < size) :
    (dramSize ≤ addr + i → (bar2Bytes (bar2Filled s addr n) addr size).getD i 0 = 0xff) ∧
      (addr + i < dramSize → codeWord (mkKey regDram (addr + i)) ∉ s.bad →
        (bar2Bytes (bar2Filled s addr n) addr size).getD i 0 = s.byte (mkKey regDram (addr + i))) := by
  have filled := bar2Filled_filled s addr n
  rw [bar2Bytes_getD _ _ hi]
  refine ⟨bar2Byte_above _, fun h good => ?_⟩
  rw [bar2Byte_dram h (by rwa [filled.bad]), filled.byte]

/-! ## The statement -/

/-- Settles O39, clause by clause: BAR0's registers from the rules of a port's writes, BAR2 from those of the device
cache's fills and of bytes written to G7 DRAM. -/
theorem hostRegisters : Obligations.HostRegisters := by
  unfold Obligations.HostRegisters
  refine ⟨?whole, ?halves, ?semValue, ?semAdd, ?semClaim, ?tail, ?faultQueue, ?faultQueueSize, ?gate, ?bar2⟩
  case whole => exact fun p off size v s r h hr => registerWrite_whole v h hr
  case halves =>
    exact fun p off v w s r h hl hu => ⟨lowerHalfWrite_stages w h hl, registerWrite_upper_staged v w h hu⟩
  case semValue => exact fun p n v s h hn => ⟨_, semValue_write n v h, setSem_unstage s p v hn⟩
  case semAdd => exact fun p n v s h hn => ⟨_, semAdd_write n v h, setSem_unstage s p _ hn⟩
  case semClaim =>
    exact fun p n s h hn => ⟨_, semClaim_read h hn, claimSem_answered s p n, sem_claimSem s p hn,
      fun m hm => sem_claimSem_ne s p hm⟩
  case tail =>
    intro p q v s h hq
    dsimp only
    rw [qTail_write v h hq]
    exact ⟨fun ok => congrArg _ (putTail_ok ok), fun bad => congrArg _ (putTail_err bad)⟩
  case faultQueue =>
    intro p v s h
    rw [fqHead_write v h]
    exact ⟨fun within => congrArg _ (putFqHead_ok within), fun outside => congrArg _ (putFqHead_outside outside),
      fqBase_write v h⟩
  case faultQueueSize => exact fun p v s h => fqSize_write v h
  case gate =>
    intro p c v s h hc
    refine ⟨_, colGateReq_write v h hc, putGate_eq_updCol s p v hc, ?_⟩
    rw [col_putGate s p v hc]
    exact ⟨putGate_gateReq v _, putGate_lost v _, putGate_asks, putGate_quiet⟩
  case bar2 =>
    intro p addr data size s h
    have filled := bar2Filled_filled s addr (max size data.length)
    refine ⟨⟨_, bar2_write addr size data h, fun ok noStash => ?_⟩, _,
      bar2Bytes (bar2Filled s addr (max size data.length)) addr size, bar2_read addr size data h, ?_⟩
    · obtain ⟨written, bytes⟩ := bar2Put_spec addr (max size data.length) data ok noStash
      exact ⟨written.eq, bytes⟩
    · rw [bar2Answered_outbox, bar2Answered_mem, filled.outbox, filled.mem]
      exact ⟨rfl, rfl, bar2Bytes_length _ _ _, fun i hi => bar2Filled_reads s addr _ hi⟩

end Sys2Proof.Proofs

/-!
PROOF. The floating-point lane words (05 R123 to R135, R140, R141, 03 R87): each is a word on its thread's registers
that writes the result of `floatOf` and counts its draws, from which O5 is assembled.
-/

namespace Sys2Proof.Proofs

open Sys2Proof Sys2Proof.Machine Sys2Proof.Safety Sys2Proof.Laws

/-! ## Operand codes (R39, R41) -/

/-- The codes in the fields of a b operand, however wide it is. -/
@[simp] theorem field_codes (b : BSrc) (n : Nat) : (b.field n).map (·.1) = bCodes b := by cases b <;> rfl

/-- The codes of a word with the fields d, a and b. -/
theorem codes_dab {i : Instr} {d a : Code} {b : BSrc} {k m n : Nat} (h : i.fields = (d, k) :: (a, m) :: b.field n) :
    i.fields.map (·.1) = d :: a :: bCodes b := by
  rw [h, List.map_cons, List.map_cons, field_codes]

/-- cvt names b only in the forms that read it (R132). -/
theorem codes_cvt (k : BitVec 5) (sat : Bool) (d a : Code) (b : BSrc) :
    (Instr.cvt k sat d a b).fields.map (·.1) = d :: a :: if cvtReadsB k then bCodes b else [] := by
  change d :: a :: (if cvtReadsB k then b.field 1 else []).map (·.1) = _
  rw [apply_ite (List.map _), field_codes, List.map_nil]

/-- A word names no queue register exactly where none of its operand codes is one. -/
theorem noQueue_iff (i : Instr) : noQueue i = true ↔ (i.fields.map (·.1)).any isQueueCode = false := by
  simp [noQueue]

/-! ## Draws (R87) -/

/-- A word that rounds no element leaves STOCH_COUNT as it is. -/
@[simp] theorem counted_zero (e : LaneEnv) (r : BitVec 3) (t : Thread) : counted e r 0 t = t := by simp [counted]

/-- What a floating-point word does to a thread: its result is written, then its draws are counted. -/
def floatTook (w : FloatRes) (e : LaneEnv) (t : Thread) : Thread :=
  counted e w.idx w.n (t.write32 e w.d (w.val e t))

/-- A result written to a register that is no queue register, in the terms of the obligations. -/
theorem floatTook_eq (w : FloatRes) (e : LaneEnv) (t : Thread) (h : isQueueCode w.d = false) :
    floatTook w e t = counted e w.idx w.n (took32 e.pos w.d (w.val e t) t) := by
  rw [floatTook, write32_eq _ _ _ _ h]

/-! ## The shapes of a floating-point word -/

/-- The word is one on registers: it reads `srcs` besides its d field, names no other code, and does to each thread what
`w` says. -/
structure Computes (i : Instr) (srcs : List Code) (w : FloatRes) : Prop where
  runs : ∀ s, exec i s = s.alu srcs w.d (floatTook w)
  names : i.fields.map (·.1) = w.d :: srcs

section
variable {i : Instr} {d a : Code} {b : BSrc} {srcs : List Code} {w : FloatRes}

/-- A word that rounds nothing only writes its result. -/
theorem unrounded_computes (hn : w.n = 0)
    (runs : ∀ s, exec i s = s.alu srcs w.d fun e t => t.write32 e w.d (w.val e t))
    (names : i.fields.map (·.1) = w.d :: srcs) : Computes i srcs w := by
  have took : (fun e t => t.write32 e w.d (w.val e t)) = floatTook w := by
    funext e t
    rw [floatTook, hn, counted_zero]
  exact ⟨took ▸ runs, names⟩

/-- Packed elements, each rounded once (R126). -/
theorem packedRes_computes {ty : FTy} {r : BitVec 3} {f : Bool → Ex → Ex → Ex → Ex}
    (hw : packedRes ty r d a b f = some w) (runs : ∀ s, exec i s = s.floatOp ty r f d a b)
    (fields : i.fields = (d, 1) :: (a, 1) :: b.field 1) : Computes i (a :: bCodes b) w := by
  cases hw
  exact ⟨runs, codes_dab fields⟩

/-- Element codes, without rounding (R127). -/
theorem codesRes_computes {ty : FTy} {f : Fmt → Nat → Nat → Nat} (hw : codesRes ty d a b f = some w)
    (runs : ∀ s, exec i s = s.codeOp ty f d a b) (fields : i.fields = (d, 1) :: (a, 1) :: b.field 1) :
    Computes i (a :: bCodes b) w := by
  cases hw
  exact unrounded_computes rfl runs (codes_dab fields)

/-- One FP32 result, rounded once (R124). -/
theorem fp32Res_computes {r : BitVec 3} {f : LaneEnv → Thread → Rnd → Ex} (hw : fp32Res r d f = some w)
    (runs : ∀ s, exec i s = s.fp32Op srcs r d f) (names : i.fields.map (·.1) = d :: srcs) : Computes i srcs w := by
  cases hw
  exact ⟨runs, names⟩

end

/-! ## The words -/

/-- qnt rounds one element under MODE, or takes its draw from its key and counts none (R133, R134). -/
theorem qnt_computes {sat rs : Bool} {f : BitVec 3} {d a : Code} {b : BSrc} {w : FloatRes}
    (h : floatOf (.qnt sat rs f d a b) = some w) : Computes (.qnt sat rs f d a b) (a :: bCodes b) w := by
  cases h
  cases rs with
  | true => exact unrounded_computes rfl (fun _ => rfl) (codes_dab rfl)
  | false => exact ⟨fun _ => rfl, codes_dab rfl⟩

/-- Every word of `floatOf` is a word on registers with that result, each by its shape. -/
theorem floatOf_computes {i : Instr} {w : FloatRes} (h : floatOf i = some w) : ∃ srcs, Computes i srcs w := by
  cases i with
  | floatAdd | floatSub | floatMul | fma =>
    rw [floatOf] at h
    exact ⟨_, packedRes_computes h (fun _ => rfl) rfl⟩
  | floatMin | floatMax | minnum | maxnum =>
    rw [floatOf] at h
    exact ⟨_, codesRes_computes h (fun _ => rfl) rfl⟩
  | dot2Bf16x2 | dot2F16x2 | cscM3 | dqnt =>
    rw [floatOf] at h
    exact ⟨_, fp32Res_computes h (fun _ => rfl) (codes_dab rfl)⟩
  | rndF32 =>
    rw [floatOf] at h
    exact ⟨_, fp32Res_computes h (fun _ => rfl) rfl⟩
  | absF32 | negF32 | absPacked | negPacked =>
    cases h
    exact ⟨_, unrounded_computes rfl (fun _ => rfl) rfl⟩
  | cscClip =>
    cases h
    exact ⟨_, fun _ => rfl, codes_dab rfl⟩
  | cvt =>
    cases h
    exact ⟨_, fun _ => rfl, codes_cvt ..⟩
  | qnt => exact ⟨_, qnt_computes h⟩
  | _ => nomatch h

/-! ## The statement -/

/-- Settles O5: a floating-point word without queue registers acts on every thread of the run at once, and its result is
written as the obligations say. -/
theorem laneFloat : Obligations.LaneFloat := by
  unfold Obligations.LaneFloat
  intro i w hw hq s r hr
  obtain ⟨srcs, runs, names⟩ := floatOf_computes hw
  have noCode : (w.d :: srcs).any isQueueCode = false := names ▸ (noQueue_iff i).mp hq
  have noDst : isQueueCode w.d = false := (Bool.or_eq_false_iff.mp noCode).1
  rw [runs, alu_eq hr srcs w.d _ noCode]
  exact congrArg _ (onMembers_eq s r fun t => floatTook_eq w _ t noDst)

end Sys2Proof.Proofs

/-!
PROOF. The lane sums, products, logic and comparisons (04 R97, R98, R101): the rule of a word on its thread's registers,
the model's values in the terms of the obligations, and O1 from the two.
-/

namespace Sys2Proof.Proofs

open Sys2Proof Sys2Proof.Machine Sys2Proof.Safety Sys2Proof.Laws

/-! ## Sums and products (R101, R106) -/

section
variable {w : Nat}

theorem mul_eq_ofNat (a b : BitVec w) : a * b = BitVec.ofNat w (a.toNat * b.toNat) := by
  simp [BitVec.ofNat_mul]
theorem add_mul_eq_ofNat (d a b : BitVec w) : d + a * b = BitVec.ofNat w (d.toNat + a.toNat * b.toNat) := by
  simp [BitVec.ofNat_add, BitVec.ofNat_mul]
theorem neg_eq_ofInt (a : BitVec w) : -a = BitVec.ofInt w (-a.toNat) := by
  simp [BitVec.ofInt_neg]
theorem sub_eq_ofInt (a b : BitVec w) : a - b = BitVec.ofInt w (a.toNat - b.toNat) := by
  rw [BitVec.sub_eq_add_neg, neg_eq_ofInt, Int.sub_eq_add_neg, BitVec.ofInt_add]
  simp
end

/-- A sign-extended operand is its signed value. -/
theorem toInt_extended (a : Word) : (a.signExtend 64).toInt = a.toInt := BitVec.toInt_signExtend_of_le (by decide)

/-- The signed product of two words, as 64 bits hold it. -/
theorem toInt_product (a b : Word) : (a.signExtend 64 * b.signExtend 64).toInt = a.toInt * b.toInt := by
  have lo : -(2 ^ 62) ≤ a.toInt * b.toInt := BitVec.le_toInt_mul_toInt
  have hi : a.toInt * b.toInt ≤ 2 ^ 62 := BitVec.toInt_mul_toInt_le
  rw [BitVec.toInt_mul, toInt_extended, toInt_extended]
  exact Int.bmod_eq_of_le (by omega) (by omega)

/-- The high half of 64 bits, from their signed value. -/
theorem extractLsb_high_eq_ofInt (x : DWord) : x.extractLsb' 32 32 = BitVec.ofInt 32 (x.toInt / 2 ^ 32) := by
  apply BitVec.eq_of_toNat_eq
  rw [BitVec.extractLsb'_toNat, BitVec.toNat_ofInt, BitVec.toInt_eq_toNat_cond, Nat.shiftRight_eq_div_pow]
  have := x.isLt
  split <;> omega

theorem mulHiS_eq_prodHiS (a b : Word) : mulHiS a b = prodHiS a b := by
  rw [mulHiS, prodHiS, ← toInt_product, ← extractLsb_high_eq_ofInt]
theorem mulHiU_eq_prodHiU (a b : Word) : mulHiU a b = prodHiU a b := by
  have below : a.toNat * b.toNat < 2 ^ 32 * 2 ^ 32 := Nat.mul_lt_mul'' a.isLt b.isLt
  apply BitVec.eq_of_toNat_eq
  simp [mulHiU, prodHiU, Nat.shiftRight_eq_div_pow]
  omega

theorem andNot_eq_and_not (a b : Word) : andNot a b = a &&& ~~~b := rfl
theorem minS_eq_lessS (a b : Word) : minS a b = lessS a b := by
  simp only [minS, lessS, BitVec.slt, decide_eq_true_eq, ← Int.not_le, ite_not]
theorem minU_eq_lessU (a b : Word) : minU a b = lessU a b := by
  simp only [minU, lessU, BitVec.ult, decide_eq_true_eq, ← Nat.not_le, ite_not]
theorem maxS_eq_moreS (a b : Word) : maxS a b = moreS a b := by
  simp only [maxS, moreS, BitVec.slt, decide_eq_true_eq, Int.le_iff_lt_or_eq]
  by_cases h : a.toInt = b.toInt
  · simp [BitVec.eq_of_toInt_eq h]
  · simp [h]
theorem maxU_eq_moreU (a b : Word) : maxU a b = moreU a b := by
  simp only [maxU, moreU, BitVec.ult, decide_eq_true_eq, Nat.le_iff_lt_or_eq]
  by_cases h : a.toNat = b.toNat
  · simp [BitVec.eq_of_toNat_eq h]
  · simp [h]

/-! ## The shape of a register word -/

/-- The word does `f` to the registers of each thread of its run, and reads and writes no operand but its own. -/
structure Alters (i : Instr) (d : Code) (srcs : List Code) (f : LaneEnv → Thread → Thread) : Prop where
  runs : ∀ s, exec i s = s.alu srcs d f
  names : d :: srcs ⊆ i.fields.map (·.1)

/-- Without queue registers such a word acts on every thread of the run at once. -/
theorem Alters.next {i : Instr} {d : Code} {srcs : List Code} {f : LaneEnv → Thread → Thread} (h : Alters i d srcs f)
    (hq : noQueue i = true) {s : State} {r : Run} (hr : s.current = some r) {g : Thread → Thread}
    (hg : isQueueCode d = false → ∀ t, f (s.env r t.cid) t = g t) : exec i s = .next (laneDone s r g) := by
  have plain : ∀ c ∈ d :: srcs, isQueueCode c = false := fun c hc => by
    simpa using List.any_eq_false.mp ((noQueue_iff i).mp hq) c (h.names hc)
  rw [h.runs, alu_eq hr srcs d f (List.any_eq_false.mpr fun c hc => by simp [plain c hc]),
    onMembers_eq s r (hg (plain d (List.mem_cons_self ..)))]

/-- The word writes one 32-bit result. -/
def Writes32 (i : Instr) (d : Code) (val : LaneEnv → Thread → Word) : Prop :=
  ∃ srcs, Alters i d srcs fun e t => t.write32 e d (val e t)

theorem Writes32.next {i : Instr} {d : Code} {val : LaneEnv → Thread → Word} (h : Writes32 i d val)
    (hq : noQueue i = true) {s : State} {r : Run} (hr : s.current = some r) :
    exec i s = .next (laneDone s r fun t => took32 r.pos d (val (s.env r t.cid) t) t) := by
  obtain ⟨srcs, alters⟩ := h
  exact alters.next hq hr fun hd t => write32_eq t _ d _ hd

section
variable {i : Instr} {d a c : Code} {b : BSrc} {imm : BitVec 7} {val : LaneEnv → Thread → Word}

/-- A result from a and b. -/
theorem writes_of2 {f g : Word → Word → Word} (fg : ∀ x y, f x y = g x y) (h : of2 d a b g = some (c, val))
    (runs : ∀ s, exec i s = s.bin f d a b) (fields : i.fields = (d, 1) :: (a, 1) :: b.field 1) : Writes32 i c val := by
  obtain rfl : f = g := funext fun x => funext (fg x)
  cases h
  exact ⟨_, runs, codes_dab fields ▸ List.Subset.refl _⟩

/-- A result from a and an immediate. -/
theorem writes_ofI {f g : Word → Word → Word} (fg : ∀ x y, f x y = g x y) (h : ofI d a imm g = some (c, val))
    (runs : ∀ s, exec i s = s.binImm f d a imm) (fields : i.fields = [(d, 1), (a, 1)]) : Writes32 i c val := by
  obtain rfl : f = g := funext fun x => funext (fg x)
  cases h
  exact ⟨_, runs, by simp [fields]⟩

/-- A result from d, a and b. -/
theorem writes_of3 {f g : Word → Word → Word → Word} (fg : ∀ x y z, f x y z = g x y z) (h : of3 d a b g = some (c, val))
    (runs : ∀ s, exec i s = s.tri f d a b) (fields : i.fields = (d, 1) :: (a, 1) :: b.field 1) : Writes32 i c val := by
  obtain rfl : f = g := funext fun x => funext fun y => funext (fg x y)
  cases h
  exact ⟨_, runs, codes_dab fields ▸ List.Subset.refl _⟩

/-- A result from a. -/
theorem writes_of1 {f g : Word → Word} (fg : ∀ x, f x = g x) (h : of1 d a g = some (c, val))
    (runs : ∀ s, exec i s = s.un f d a) (fields : i.fields = [(d, 1), (a, 1)]) : Writes32 i c val := by
  obtain rfl : f = g := funext fg
  cases h
  exact ⟨_, runs, by simp [fields]⟩

end

/-- mad with an immediate also reads d (R98). -/
theorem madImm_writes {d a c : Code} {imm : BitVec 7} {val : LaneEnv → Thread → Word}
    (h : arith32 (.madImm d a imm) = some (c, val)) : Writes32 (.madImm d a imm) c val := by
  cases h
  simp only [← add_mul_eq_ofNat]
  exact ⟨_, fun _ => rfl, List.Subset.refl _⟩

/-- Every word of `arith32` writes that result, each by its shape and its value. -/
theorem arith32_writes {i : Instr} {d : Code} {val : LaneEnv → Thread → Word} (h : arith32 i = some (d, val)) :
    Writes32 i d val := by
  cases i with
  | add => exact writes_of2 BitVec.add_def h (fun _ => rfl) rfl
  | addImm => exact writes_ofI BitVec.add_def h (fun _ => rfl) rfl
  | sub => exact writes_of2 sub_eq_ofInt h (fun _ => rfl) rfl
  | subImm => exact writes_ofI sub_eq_ofInt h (fun _ => rfl) rfl
  | mad => exact writes_of3 add_mul_eq_ofNat h (fun _ => rfl) rfl
  | madImm => exact madImm_writes h
  | mulLo => exact writes_of2 mul_eq_ofNat h (fun _ => rfl) rfl
  | mulLoImm => exact writes_ofI mul_eq_ofNat h (fun _ => rfl) rfl
  | mulHiI32 => exact writes_of2 mulHiS_eq_prodHiS h (fun _ => rfl) rfl
  | mulHiI32Imm => exact writes_ofI mulHiS_eq_prodHiS h (fun _ => rfl) rfl
  | mulHiN32 => exact writes_of2 mulHiU_eq_prodHiU h (fun _ => rfl) rfl
  | mulHiN32Imm => exact writes_ofI mulHiU_eq_prodHiU h (fun _ => rfl) rfl
  | and | or | xor => exact writes_of2 (fun _ _ => rfl) h (fun _ => rfl) rfl
  | andImm | orImm | xorImm => exact writes_ofI (fun _ _ => rfl) h (fun _ => rfl) rfl
  | andn => exact writes_of2 andNot_eq_and_not h (fun _ => rfl) rfl
  | andnImm => exact writes_ofI andNot_eq_and_not h (fun _ => rfl) rfl
  | minI32 => exact writes_of2 minS_eq_lessS h (fun _ => rfl) rfl
  | minI32Imm => exact writes_ofI minS_eq_lessS h (fun _ => rfl) rfl
  | maxI32 => exact writes_of2 maxS_eq_moreS h (fun _ => rfl) rfl
  | maxI32Imm => exact writes_ofI maxS_eq_moreS h (fun _ => rfl) rfl
  | minN32 => exact writes_of2 minU_eq_lessU h (fun _ => rfl) rfl
  | minN32Imm => exact writes_ofI minU_eq_lessU h (fun _ => rfl) rfl
  | maxN32 => exact writes_of2 maxU_eq_moreU h (fun _ => rfl) rfl
  | maxN32Imm => exact writes_ofI maxU_eq_moreU h (fun _ => rfl) rfl
  | _ => nomatch h

/-! ## The statement -/

/-- Settles O1: a word of `arith32` writes its result, for every thread of the run at once. -/
theorem laneArithmetic : Obligations.LaneArithmetic := by
  unfold Obligations.LaneArithmetic
  intro i d val h hq s r hr
  exact (arith32_writes h).next hq hr

end Sys2Proof.Proofs

/-!
PROOF. The lane shifts, fields, counts, byte products and moves (04 R102 to R105, R107, R108): their values in the terms
of the obligations, and O2 from the rule of a word with one 32-bit result.
-/

namespace Sys2Proof.Proofs

open Sys2Proof Sys2Proof.Machine Sys2Proof.Safety Sys2Proof.Laws

/-! ## Fields of an operand (R8) -/

/-- A bit field is a quotient and a remainder. -/
theorem fieldNat_eq {n : Nat} (x : BitVec n) (hi lo : Nat) :
    fieldNat x hi lo = x.toNat / 2 ^ lo % 2 ^ (hi - lo + 1) := by
  simp [fieldNat, bits, Nat.shiftRight_eq_div_pow]
theorem fieldNat_shiftAmount (b : Word) : fieldNat b 5 0 = b.toNat % 64 := by simp [fieldNat_eq]
theorem fieldNat_fldPos (b : Word) : fieldNat b 4 0 = fldPos b := by simp [fieldNat_eq, fldPos]
theorem fieldNat_fldLen (b : Word) : min (fieldNat b 13 8) 32 = fldLen b := by simp [fieldNat_eq, fldLen]
theorem fldLen_le (b : Word) : fldLen b ≤ 32 := Nat.min_le_right ..

/-! ## Shifts (R102) -/

theorem shlBy_eq_shiftL (a b : Word) : shlBy a (fieldNat b 5 0) = shiftL a b := by
  rw [shlBy, shiftL, fieldNat_shiftAmount, ← BitVec.toNat_inj]
  split <;> simp [Nat.shiftLeft_eq]
theorem shrBy_eq_shiftR (a b : Word) : shrBy a (fieldNat b 5 0) = shiftR a b := by
  have quotient : a >>> (b.toNat % 64) = BitVec.ofNat 32 (a.toNat / 2 ^ (b.toNat % 64)) := by
    rw [← Nat.shiftRight_eq_div_pow, ← BitVec.toNat_ushiftRight, BitVec.ofNat_toNat, BitVec.setWidth_eq]
  rw [shrBy, shiftR, fieldNat_shiftAmount, quotient]
theorem sarBy_eq_shiftA (a b : Word) : sarBy a (fieldNat b 5 0) = shiftA a b := by
  rw [sarBy, shiftA, fieldNat_shiftAmount, BitVec.sshiftRight_eq, Int.shiftRight_eq_div_pow]
  rfl
theorem rotateLeft_eq_rotL (a b : Word) : a.rotateLeft (fieldNat b 4 0) = rotL a b := by
  rw [fieldNat_fldPos, fldPos, BitVec.rotateLeft_mod_eq_rotateLeft, BitVec.rotateLeft_def, rotL]

/-! ## Low bits and their extensions (R104, R105) -/

section
variable {w : Nat}

/-- The mask of the low `n` bits. -/
theorem lowBits_eq_and (a : BitVec w) {n : Nat} (h : n ≤ w) : lowBits a n = a &&& BitVec.ofNat w (2 ^ n - 1) := by
  rw [lowBits]
  split
  · rfl
  · obtain rfl : n = w := by omega
    have ones : BitVec.ofNat n (2 ^ n - 1) = BitVec.allOnes n := by simp [← BitVec.toNat_inj]
    rw [ones, BitVec.and_allOnes]
theorem getLsbD_lowBits (a : BitVec w) {n : Nat} (h : n ≤ w) (i : Nat) :
    (lowBits a n).getLsbD i = (decide (i < n) && a.getLsbD i) := by
  rw [lowBits_eq_and a h, BitVec.getLsbD_and, BitVec.getLsbD_ofNat, Nat.testBit_two_pow_sub_one]
  by_cases hi : i < w
  · simp [hi, Bool.and_comm]
  · simp [BitVec.getLsbD_of_ge a i (by omega)]
theorem lowBits_eq_ofNat (a : BitVec w) {n : Nat} (h : n ≤ w) : lowBits a n = BitVec.ofNat w (a.toNat % 2 ^ n) := by
  apply BitVec.eq_of_getLsbD_eq
  intro i hi
  rw [getLsbD_lowBits a h, BitVec.getLsbD_ofNat, Nat.testBit_mod_two_pow, BitVec.getLsbD]
  simp [hi]
/-- The low `n` bits sign-extended are the `n`-bit pattern extended. -/
theorem sextBits_eq_signExtend (a : BitVec w) {n : Nat} (h : n ≠ 0) (hw : n ≤ w) :
    sextBits a n = (a.setWidth n).signExtend w := by
  apply BitVec.eq_of_getLsbD_eq
  intro i hi
  have msb : (a.setWidth n).msb = a.getLsbD (n - 1) := by simp [BitVec.msb_setWidth, h, Nat.pos_iff_ne_zero]
  rw [BitVec.getLsbD_signExtend, msb, BitVec.getLsbD_setWidth, sextBits, if_neg h]
  split
  · simp [hi, show i < n by omega]
  · split
    next sign =>
      rw [BitVec.getLsbD_or, getLsbD_lowBits a hw, BitVec.getLsbD_shiftLeft, BitVec.getLsbD_allOnes, sign]
      by_cases inside : i < n
      · simp [hi, inside]
      · simp [hi, inside, show i - n < w by omega]
    next sign =>
      rw [getLsbD_lowBits a hw]
      by_cases inside : i < n <;> simp [hi, inside, sign]
theorem signExtend_eq_signedOf {n : Nat} (x : BitVec n) : x.signExtend w = BitVec.ofInt w (signedOf n x.toNat) := by
  rw [BitVec.signExtend, BitVec.toInt_eq_toNat_cond, signedOf]
  push_cast
  rfl
theorem sextBits_eq_signedOf (a : BitVec w) {n : Nat} (h : n ≠ 0) (hw : n ≤ w) :
    sextBits a n = BitVec.ofInt w (signedOf n (a.toNat % 2 ^ n)) := by
  rw [sextBits_eq_signExtend a h hw, signExtend_eq_signedOf, BitVec.toNat_setWidth]
/-- The low `n` bits of a pattern are its signed value modulo 2^n. -/
theorem toNat_mod_eq_toInt (a : BitVec w) {n : Nat} (hw : n ≤ w) : a.toNat % 2 ^ n = (a.toInt % 2 ^ n).toNat := by
  have low : a.setWidth n = BitVec.ofInt n a.toInt := (BitVec.signExtend_eq_setWidth_of_le a hw).symm
  simpa using congrArg BitVec.toNat low

end

theorem sextBits_eq_sextR (a b : Word) : sextBits a (fieldNat b 5 0) = sextR a b := by
  rw [fieldNat_shiftAmount, sextR]
  split
  next zero => rw [zero]; rfl
  next nonzero =>
    split
    next full => rw [sextBits, if_neg nonzero, if_pos full]
    next part => exact sextBits_eq_signedOf a nonzero (by omega)
theorem lowBits_eq_zextR (a b : Word) : lowBits a (fieldNat b 5 0) = zextR a b := by
  rw [fieldNat_shiftAmount, zextR]
  split
  next zero => simp [zero, lowBits]
  next nonzero =>
    split
    next full => exact if_neg (by omega)
    next part => exact lowBits_eq_ofNat a (by omega)

/-! ## Extracts and the insertion (R104) -/

theorem bfeU_eq_extractU (a b : Word) : bfeU a (fieldNat b 4 0) (min (fieldNat b 13 8) 32) = extractU a b := by
  rw [fieldNat_fldPos, fieldNat_fldLen, bfeU, extractU, lowBits_eq_ofNat _ (fldLen_le b), BitVec.toNat_ushiftRight,
    Nat.shiftRight_eq_div_pow]
theorem bfeS_eq_extractS (a b : Word) : bfeS a (fieldNat b 4 0) (min (fieldNat b 13 8) 32) = extractS a b := by
  rw [fieldNat_fldPos, fieldNat_fldLen, bfeS, extractS]
  split
  next zero => rw [zero]; rfl
  next nonzero =>
    rw [sextBits_eq_signedOf _ nonzero (fldLen_le b), toNat_mod_eq_toInt _ (fldLen_le b), BitVec.toInt_sshiftRight,
      Int.shiftRight_eq_div_pow]
    norm_cast
theorem bfiAt_eq_insertF (d a b : Word) : bfiAt d a (fieldNat b 4 0) (min (fieldNat b 13 8) 32) = insertF d a b := by
  rw [fieldNat_fldPos, fieldNat_fldLen, bfiAt, insertF, lowBits_eq_and _ (fldLen_le b), lowBits_eq_and _ (fldLen_le b),
    BitVec.allOnes_and, ← BitVec.shiftLeft_and_distrib, BitVec.and_assoc, BitVec.and_self,
    BitVec.shiftLeft_and_distrib]

/-! ## Byte products (R107) -/

theorem toNat_byteOf (a : Word) (k : Nat) : (byteOf a k).toNat = byteNat a k := by
  simp [byteOf, byteNat, Nat.shiftRight_eq_div_pow]
theorem sx8_byteOf (a : Word) (k : Nat) : sx8 (byteOf a k) = BitVec.ofInt 32 (signedOf 8 (byteNat a k)) := by
  rw [sx8, signExtend_eq_signedOf, toNat_byteOf]
theorem zx8_byteOf (a : Word) (k : Nat) : zx8 (byteOf a k) = BitVec.ofInt 32 (Int.ofNat (byteNat a k)) := by
  rw [zx8, ← toNat_byteOf]
  exact ((BitVec.ofInt_natCast 32 _).trans (BitVec.ofNat_toNat ..)).symm
/-- The products of bytes, each extended as R107 says, added to d. -/
theorem dp4_eq_dotBytes {fa fb : Byte → Word} {ea eb : Nat → Int}
    (ha : ∀ a k, fa (byteOf a k) = BitVec.ofInt 32 (ea (byteNat a k)))
    (hb : ∀ b k, fb (byteOf b k) = BitVec.ofInt 32 (eb (byteNat b k))) (d a b : Word) :
    dp4 fa fb d a b = dotBytes ea eb d a b := by
  simp [dp4, dotBytes, List.range_succ, ha, hb, BitVec.ofInt_add, BitVec.ofInt_mul, BitVec.add_assoc]

/-! ## Counts (R103) -/

theorem absS_eq_ofInt (a : Word) : absS a = if a.msb then BitVec.ofInt 32 (-a.toNat) else a := by
  rw [absS, neg_eq_ofInt]
/-- The highest set bit of a word stands below its leading zeros. -/
theorem clz_eq_log2 (a : Word) : a.clz = BitVec.ofNat 32 (if a = 0 then 32 else 31 - a.toNat.log2) := by
  split
  next zero => rw [zero]; rfl
  next nonzero =>
    have below : a.toNat < 2 ^ (32 - a.clz.toNat) := BitVec.toNat_lt_two_pow_sub_clz
    have inside : a.clz.toNat < 32 := BitVec.clz_lt_iff_ne_zero.mpr nonzero
    have bit := BitVec.getLsbD_true_clz_of_ne_zero (by decide) nonzero
    have least : 2 ^ (31 - a.clz.toNat) ≤ a.toNat := Nat.ge_two_pow_of_testBit bit
    have top : a.toNat.log2 = 31 - a.clz.toNat :=
      (Nat.log2_eq_iff (by simpa [← BitVec.toNat_inj] using nonzero)).mpr
        ⟨least, by rwa [show 31 - a.clz.toNat + 1 = 32 - a.clz.toNat by omega]⟩
    rw [top, show 31 - (31 - a.clz.toNat) = a.clz.toNat by omega, BitVec.ofNat_toNat, BitVec.setWidth_eq]
/-- Set bits below `n`, counted from the top or filtered. -/
theorem cpopNatRec_eq_filter {w : Nat} (a : BitVec w) (n acc : Nat) :
    a.cpopNatRec n acc = acc + ((List.range n).filter a.getLsbD).length := by
  induction n generalizing acc with
  | zero => rfl
  | succ n ih =>
    rw [BitVec.cpopNatRec_succ, ih, List.range_succ, List.filter_append, List.length_append]
    cases bit : a.getLsbD n
    · simp [bit]
    · simp [bit]
      omega
theorem cpop_eq_filter (a : Word) : a.cpop = BitVec.ofNat 32 ((List.range 32).filter a.getLsbD).length := by
  rw [BitVec.cpop, cpopNatRec_eq_filter, Nat.zero_add]

/-! ## The words -/

/-- A moved literal (R108). -/
theorem movl_writes (d : Code) (w : Word) : Writes32 (.movl d w) d fun _ _ => w :=
  ⟨_, fun _ => rfl, List.Subset.refl _⟩
theorem movi_writes (d : Code) (i : BitVec 7) : Writes32 (.movi d i) d fun _ _ => i.signExtend 32 :=
  ⟨_, fun _ => rfl, List.Subset.refl _⟩
/-- The selection by a predicate (R108). -/
theorem sel_writes (n : BitVec 3) (d a : Code) (b : BSrc) :
    Writes32 (.sel n d a b) d fun e t => if t.pred n then e.read32 t a else e.readB t b :=
  ⟨_, fun _ => rfl, codes_dab (i := .sel n d a b) rfl ▸ List.Subset.refl _⟩

/-- Every word of `shift32` writes that result, each by its shape and its value. -/
theorem shift32_writes {i : Instr} {d : Code} {val : LaneEnv → Thread → Word} (h : shift32 i = some (d, val)) :
    Writes32 i d val := by
  cases i with
  | shl => exact writes_of2 shlBy_eq_shiftL h (fun _ => rfl) rfl
  | shlImm => exact writes_ofI shlBy_eq_shiftL h (fun _ => rfl) rfl
  | shrN => exact writes_of2 shrBy_eq_shiftR h (fun _ => rfl) rfl
  | shrNImm => exact writes_ofI shrBy_eq_shiftR h (fun _ => rfl) rfl
  | shrI => exact writes_of2 sarBy_eq_shiftA h (fun _ => rfl) rfl
  | shrIImm => exact writes_ofI sarBy_eq_shiftA h (fun _ => rfl) rfl
  | rot => exact writes_of2 rotateLeft_eq_rotL h (fun _ => rfl) rfl
  | rotImm => exact writes_ofI rotateLeft_eq_rotL h (fun _ => rfl) rfl
  | sext => exact writes_of2 sextBits_eq_sextR h (fun _ => rfl) rfl
  | sextImm => exact writes_ofI sextBits_eq_sextR h (fun _ => rfl) rfl
  | zext => exact writes_of2 lowBits_eq_zextR h (fun _ => rfl) rfl
  | zextImm => exact writes_ofI lowBits_eq_zextR h (fun _ => rfl) rfl
  | bfeN32 => exact writes_of2 bfeU_eq_extractU h (fun _ => rfl) rfl
  | bfeI32 => exact writes_of2 bfeS_eq_extractS h (fun _ => rfl) rfl
  | bfi => exact writes_of3 bfiAt_eq_insertF h (fun _ => rfl) rfl
  | dp4I8 => exact writes_of3 (dp4_eq_dotBytes sx8_byteOf sx8_byteOf) h (fun _ => rfl) rfl
  | dp4N8 => exact writes_of3 (dp4_eq_dotBytes zx8_byteOf zx8_byteOf) h (fun _ => rfl) rfl
  | dp4I8n8 => exact writes_of3 (dp4_eq_dotBytes sx8_byteOf zx8_byteOf) h (fun _ => rfl) rfl
  | absI32 => exact writes_of1 absS_eq_ofInt h (fun _ => rfl) rfl
  | negI32 => exact writes_of1 neg_eq_ofInt h (fun _ => rfl) rfl
  | clz => exact writes_of1 clz_eq_log2 h (fun _ => rfl) rfl
  | popc => exact writes_of1 cpop_eq_filter h (fun _ => rfl) rfl
  | brev | mov => exact writes_of1 (fun _ => rfl) h (fun _ => rfl) rfl
  | movl => cases h; exact movl_writes ..
  | movi => cases h; exact movi_writes ..
  | sel => cases h; exact sel_writes ..
  | _ => nomatch h

/-! ## The statement -/

/-- Settles O2: a word of `shift32` writes its result, for every thread of the run at once. -/
theorem laneShiftsAndFields : Obligations.LaneShiftsAndFields := by
  unfold Obligations.LaneShiftsAndFields
  intro i d val h hq s r hr
  exact (shift32_writes h).next hq hr

end Sys2Proof.Proofs

/-!
PROOF. The lane words with a pair or a quad for their result (04 R106, 05 R138, R139), and O3.
-/

namespace Sys2Proof.Proofs

open Sys2Proof Sys2Proof.Machine Sys2Proof.Safety Sys2Proof.Laws

/-! ## 64-bit values (R106, R138) -/

theorem fieldNat_pixel (b : Word) : fieldNat b 1 0 = b.toNat % 4 := by simp [fieldNat_eq]

section
variable (x : DWord)

theorem add_signExtend_eq_ofInt (i : BitVec 7) : x + i.signExtend 64 = BitVec.ofInt 64 (x.toNat + i.toInt) := by
  simp [BitVec.ofInt_add, BitVec.signExtend]
theorem sub_signExtend_eq_ofInt (i : BitVec 7) : x - i.signExtend 64 = BitVec.ofInt 64 (x.toNat - i.toInt) := by
  simp [BitVec.ofInt_add, BitVec.ofInt_neg, BitVec.signExtend, Int.sub_eq_add_neg, BitVec.sub_eq_add_neg]
theorem shiftLeft_eq_mul (n : Nat) : x <<< n = x * BitVec.ofNat 64 (2 ^ n) := by
  simp [← BitVec.toNat_inj, Nat.shiftLeft_eq]
theorem lea_eq_ofNat (y : Word) (n : Nat) :
    x + (y.setWidth 64 <<< n) = BitVec.ofNat 64 (x.toNat + y.toNat * 2 ^ n) := by
  rw [shiftLeft_eq_mul, BitVec.ofNat_add, BitVec.ofNat_mul, BitVec.ofNat_toNat, BitVec.ofNat_toNat, BitVec.setWidth_eq]
theorem leaI_eq_ofInt (y : Word) (n : Nat) :
    x + (y.signExtend 64 <<< n) = BitVec.ofInt 64 (x.toNat + y.toInt * 2 ^ n) := by
  rw [shiftLeft_eq_mul, BitVec.ofInt_add, BitVec.ofInt_mul, ← BitVec.ofInt_natCast, BitVec.signExtend]
  simp

end

/-! ## Pairs and quads (R23, R40) -/

theorem write64_eq (t : Thread) (e : LaneEnv) (d : Code) (x : DWord) : t.write64 e d x = took64 e.pos d x t := by
  unfold Thread.write64 took64 put32 latched Thread.posLatch Thread.setLatch Thread.setPair Thread.setReg
  split
  · rfl
  · rfl
theorem write128_eq (t : Thread) (e : LaneEnv) (d : Code) (x : QWord) : t.write128 e d x = took128 e.pos d x t := by
  have word0 : (x.setWidth 64).setWidth 32 = x.extractLsb' 0 32 := by
    rw [BitVec.setWidth_setWidth_of_le x (by decide), BitVec.setWidth_eq_extractLsb' (by decide)]
  have word1 : (x.setWidth 64).extractLsb' 32 32 = x.extractLsb' 32 32 := BitVec.extractLsb'_setWidth_of_le (by decide)
  have word2 : (x.extractLsb' 64 64).setWidth 32 = x.extractLsb' 64 32 := BitVec.setWidth_extractLsb'_of_le (by decide)
  have word3 : (x.extractLsb' 64 64).extractLsb' 32 32 = x.extractLsb' 96 32 := by
    apply BitVec.eq_of_toNat_eq
    simp [Nat.shiftRight_eq_div_pow]
    omega
  unfold Thread.write128 took128 latched Thread.posLatch Thread.setLatch Thread.setPair Thread.setReg
  simp only [word0, word1, word2, word3]

/-! ## The words -/

/-- The word writes one 64-bit result. -/
def Writes64 (i : Instr) (d : Code) (val : LaneEnv → Thread → DWord) : Prop :=
  ∃ srcs, Alters i d srcs fun e t => t.write64 e d (val e t)

theorem Writes64.next {i : Instr} {d : Code} {val : LaneEnv → Thread → DWord} (h : Writes64 i d val)
    (hq : noQueue i = true) {s : State} {r : Run} (hr : s.current = some r) :
    exec i s = .next (laneDone s r fun t => took64 r.pos d (val (s.env r t.cid) t) t) := by
  obtain ⟨srcs, alters⟩ := h
  exact alters.next hq hr fun _ t => write64_eq t _ d _

section
variable {i : Instr} {d a : Code} {b : BSrc} {k m n : Nat} {f val : LaneEnv → Thread → DWord}

/-- A 64-bit result from a and b. -/
theorem writes64_ab (fields : i.fields = (d, k) :: (a, m) :: b.field n)
    (runs : ∀ s, exec i s = s.alu (a :: bCodes b) d fun e t => t.write64 e d (f e t)) (fg : ∀ e t, f e t = val e t) :
    Writes64 i d val := by
  obtain rfl : f = val := funext fun e => funext (fg e)
  exact ⟨_, runs, codes_dab fields ▸ List.Subset.refl _⟩

/-- A 64-bit result from a. -/
theorem writes64_a (fields : i.fields = [(d, k), (a, m)])
    (runs : ∀ s, exec i s = s.alu [a] d fun e t => t.write64 e d (f e t)) (fg : ∀ e t, f e t = val e t) :
    Writes64 i d val := by
  obtain rfl : f = val := funext fun e => funext (fg e)
  exact ⟨_, runs, by simp [fields]⟩

end

/-- A pixel's components are unpacked from the quad a, which is no queue register (R138). -/
theorem pxunpk_writes (f : BitVec 2) (d a : Code) (b : BSrc) :
    Writes64 (.pxunpk f d a b) d fun e t => pxUnpack f (e.read128 t a) ((e.readB t b).toNat % 4) := by
  simp only [← fieldNat_pixel]
  exact ⟨bCodes b, fun _ => rfl, codes_dab (i := .pxunpk f d a b) rfl ▸ by simp⟩

/-- Every word of `pair64` writes that result, each by its shape and its value. -/
theorem pair64_writes {i : Instr} {d : Code} {val : LaneEnv → Thread → DWord} (h : pair64 i = some (d, val)) :
    Writes64 i d val := by
  cases i with
  | add64 => cases h; exact writes64_ab rfl (fun _ => rfl) fun _ _ => BitVec.add_def ..
  | add64Imm => cases h; exact writes64_a rfl (fun _ => rfl) fun _ _ => add_signExtend_eq_ofInt ..
  | sub64 => cases h; exact writes64_ab rfl (fun _ => rfl) fun _ _ => sub_eq_ofInt ..
  | sub64Imm => cases h; exact writes64_a rfl (fun _ => rfl) fun _ _ => sub_signExtend_eq_ofInt ..
  | lea => cases h; exact writes64_ab rfl (fun _ => rfl) fun _ _ => lea_eq_ofNat ..
  | leaI => cases h; exact writes64_ab rfl (fun _ => rfl) fun _ _ => leaI_eq_ofInt ..
  | pxunpk => cases h; exact pxunpk_writes ..
  | _ => nomatch h

/-- A pixel's components are packed into the quad d (R139). -/
theorem pxpack_alters (f : BitVec 2) (d a : Code) (b : BSrc) :
    Alters (.pxpack f d a b) d (bCodes b) fun e t =>
      t.write128 e d (pxPack f (e.read128 t d) (e.read64 t a) ((e.readB t b).toNat % 4)) := by
  simp only [← fieldNat_pixel]
  exact ⟨fun _ => rfl, codes_dab (i := .pxpack f d a b) rfl ▸ by simp⟩

/-! ## The statement -/

/-- Settles O3: the words of `pair64` write their pair, and pxpack its quad. -/
theorem lanePairs : Obligations.LanePairs := by
  unfold Obligations.LanePairs
  refine ⟨fun i d val h hq s r hr => (pair64_writes h).next hq hr, fun f d a b hq s r hr => ?_⟩
  exact (pxpack_alters f d a b).next hq hr fun _ t => write128_eq t _ d _

end Sys2Proof.Proofs

/-!
PROOF. Control transfers by a register (04 R113, R114), and O11.
-/

namespace Sys2Proof.Proofs

open Sys2Proof Sys2Proof.Machine Sys2Proof.Safety Sys2Proof.Laws

theorem fieldNat_alignment (a : DWord) : fieldNat a 1 0 = a.toNat % 4 := by simp [fieldNat_eq]

/-- The address of the word at a position, some bytes further. -/
theorem wordAddr_add (r : Run) (n : Nat) :
    r.wordAddr + BitVec.ofNat 64 n = BitVec.ofNat 64 (r.start.toNat + 4 * r.pos + n) := by
  simp [Run.wordAddr, Run.addrAt, BitVec.ofNat_add]

/-- A call by a register writes lr (R15, R113). -/
theorem setPair_lr_eq_setLr (r : Run) (x : Thread) : x.setPair x.lrNum (r.wordAddr + 8) = setLr r x := by
  have back := wordAddr_add r 8
  unfold setLr
  dsimp only
  rw [← back]
  rfl

/-- A transfer to an aligned target. -/
theorem jumpTo_aligned {g : LaneEnv → Thread → DWord} {r : Run} {s : State} {t : TRef} (f : Run → Thread → Thread)
    (h : (g (s.env r t.cid) (s.thread t)).toNat % 4 = 0) :
    jumpTo g f r s t = .ok (s.updThread t fun x =>
      { latched r.pos 0 (f r x) with jump := some (g (s.env r t.cid) (s.thread t)) }) := by
  unfold jumpTo
  dsimp only
  rw [fieldNat_alignment, if_neg (not_not.mpr h)]
  rfl
/-- A transfer to any other is BAD_TARGET (R114). -/
theorem jumpTo_misaligned {g : LaneEnv → Thread → DWord} {r : Run} {s : State} {t : TRef} (f : Run → Thread → Thread)
    (h : ¬ (g (s.env r t.cid) (s.thread t)).toNat % 4 = 0) :
    jumpTo g f r s t =
      .trap s ⟨0x0a#8, r.wordAddr, g (s.env r t.cid) (s.thread t), trapData r.word r.pos 0#8⟩ :=
  if_pos (by rwa [fieldNat_alignment])

/-- A register transfer thread by thread: the loop takes each to its target, or out of its run with the trap. -/
theorem laneLoop_jumpTo (g : LaneEnv → Thread → DWord) (f : Run → Thread → Thread) (r : Run) (ts : List TRef)
    (left : Bool) (s : State) : laneLoop (jumpTo g f r) r.key ts left s = jumpAll g f r ts left s := by
  induction ts generalizing left s with
  | nil => rfl
  | cons t ts ih =>
    by_cases aligned : (g (s.env r t.cid) (s.thread t)).toNat % 4 = 0
    · rw [laneLoop, jumpTo_aligned f aligned]
      exact (ih ..).trans (if_pos aligned).symm
    · rw [laneLoop, jumpTo_misaligned f aligned]
      exact (ih ..).trans (if_neg aligned).symm

/-- Where each thread's target is aligned the transfer is that thread's turn. -/
theorem jumpTurn_jumpTo {g : LaneEnv → Thread → DWord} {f : Run → Thread → Thread} {r : Run} {s s' : State} {t : TRef}
    (h : jumpTurn g f r s t = some s') : jumpTo g f r s t = .ok s' := by
  obtain ⟨aligned, done⟩ := Option.ite_none_right_eq_some.mp h
  cases done
  exact jumpTo_aligned f aligned

/-- The words of `jumpOf` are transfers thread by thread. -/
theorem jumpOf_lanes {i : Instr} {g : LaneEnv → Thread → DWord} {f : Run → Thread → Thread}
    (h : jumpOf i = some (g, f)) (s : State) : exec i s = s.lanes (jumpTo g f) := by
  cases i with
  | jmp | ret => cases h; rfl
  | callRegister a =>
    cases h
    exact congrArg (fun f => s.lanes (jumpTo (fun e x => e.read64 x a) f)) (funext fun r => funext (setPair_lr_eq_setLr r))
  | _ => nomatch h

/-! ## The statement -/

/-- Settles O11: a word of `jumpOf` goes thread by thread, each to its target or out of its run. -/
theorem registerTransfers : Obligations.RegisterTransfers := by
  unfold Obligations.RegisterTransfers
  refine ⟨fun i g f h s r s' hr turns => ?complete, fun i g f h s r hr => ?each⟩
  case complete =>
    rw [jumpOf_lanes h]
    exact lanes_inTurn hr (fun _ _ _ => jumpTurn_jumpTo) turns
  case each =>
    rw [jumpOf_lanes h, State.lanes, hr, ← laneLoop_jumpTo]

end Sys2Proof.Proofs

/-!
PROOF. st.rel, region, the fences, the stash words and prefetch (04 R120, 07 R180, R183, R188 to R193): what each does
for one thread is its turn, and O15 from the rule of a word thread by thread.
-/

namespace Sys2Proof.Proofs

open Sys2Proof Sys2Proof.Machine Sys2Proof.Safety Sys2Proof.Laws

/-! ## Words whose threads complete in their turn -/

/-- The word goes thread by thread, and completes for a thread with the state that its turn gives. -/
def InTurns (i : Instr) (eff : Turn1) : Prop :=
  ∃ f : Run → State → TRef → ThrRes, (∀ s, exec i s = s.lanes f) ∧ ∀ r s t s', eff r s t = some s' → f r s t = .ok s'

theorem InTurns.next {i : Instr} {eff : Turn1} (h : InTurns i eff) {s s' : State} {r : Run} (hr : s.current = some r)
    (turns : inTurn (eff r) r.key r.todo s = some s') : exec i s = .next (passed s' r) := by
  obtain ⟨f, runs, completes⟩ := h
  rw [runs]
  exact lanes_inTurn hr (completes r) turns

/-! ## Source queues (R99, R201) -/

/-- An element that the thread keeps for a code of the current word (R201). -/
def keptFor (r : Run) (c : Code) (p : DWord × Code × Word) : Bool := p.1 == r.wordAddr && p.2.1 == c
/-- The state with a kept element at the head of the thread's elements. -/
def keptAgain (r : Run) (t : TRef) (c : Code) (p : DWord × Code × Word) (s : State) : State :=
  s.updThread t fun x => { x with qin := p :: x.qin.filter fun y => !keptFor r c y }
/-- The state with a popped element handed to the thread. -/
def handed (r : Run) (t : TRef) (c : Code) (w : Word) (s : State) : State :=
  s.updThread t fun x => { x with qin := (r.wordAddr, c, w) :: x.qin }

section
variable {r : Run} {t : TRef} {s s' : State}

/- The two recursions on the codes, one code further. Their proofs stand in parentheses so that Lean does not try the
equations as definitional ones for `dsimp`, which would evaluate the pop. -/

theorem popped_cons (r : Run) (t : TRef) (c : Code) (cs : List Code) (s : State) :
    popped r t (c :: cs) s = match (s.thread t).qin.find? (keptFor r c) with
      | some p => popped r t cs (keptAgain r t c p s)
      | none => match (s.commitHere r t).popWord t (queueOf c) with
        | .ok s1 w => popped r t cs (handed r t c w s1)
        | _ => none := (rfl)
theorem popAll_cons (s0 : State) (r : Run) (t : TRef) (c : Code) (cs : List Code) (s : State) :
    popAll s0 r t (c :: cs) s = match (s.thread t).qin.find? (keptFor r c) with
      | some p => popAll s0 r t cs (keptAgain r t c p s)
      | none => match (s.commitHere r t).popWord t (queueOf c) with
        | .ok s1 w => popAll s0 r t cs (handed r t c w s1)
        | .wait => (s, some (queueRes s r t (queueOf c) .wait))
        | q => (s, some (queueRes s0 r t (queueOf c) q)) := (rfl)

/-- Where every queue gives its element, popping ends with them all. -/
theorem popAll_of_popped {cs : List Code} (h : popped r t cs s = some s') (s0 : State) :
    popAll s0 r t cs s = (s', none) := by
  induction cs generalizing s with
  | nil => exact congrArg (·, none) (Option.some.inj h)
  | cons c cs ih =>
    rw [popped_cons] at h
    rw [popAll_cons]
    cases kept : (s.thread t).qin.find? (keptFor r c) with
    | some p =>
      rw [kept] at h
      exact ih h
    | none =>
      rw [kept] at h
      dsimp only at h ⊢
      split at h
      next given => rw [given]; exact ih h
      next => nomatch h

/-- A word that pops first completes for a thread where its pops and then its turn do. -/
theorem popFirst_of_afterPops {srcs : List Code} {eff : Turn1} {f : Run → State → TRef → ThrRes}
    (hf : ∀ s s', eff r s t = some s' → f r s t = .ok s') (h : afterPops srcs eff r s t = some s') :
    popFirst srcs f r s t = .ok s' := by
  obtain ⟨s1, pops, h⟩ := Option.bind_eq_some_iff.mp h
  obtain ⟨s2, turn, rfl⟩ := Option.map_eq_some_iff.mp h
  have done := hf s1 s2 turn
  rw [popFirst, usedUp]
  split
  next noQueues =>
    rw [noQueues] at pops
    cases pops
    rw [if_pos noQueues, done]
  next queues =>
    rw [popAll_of_popped pops, if_neg queues]
    dsimp only
    rw [done]

end

/-- So does the whole word. -/
theorem InTurns.afterPops {i : Instr} {eff : Turn1} {srcs : List Code} {f : Run → State → TRef → ThrRes}
    (runs : ∀ s, exec i s = s.lanes (popFirst srcs f)) (hf : ∀ r s t s', eff r s t = some s' → f r s t = .ok s') :
    InTurns i (afterPops srcs eff) :=
  ⟨_, runs, fun r _ t _ => popFirst_of_afterPops fun s s' => hf r s t s'⟩

/-! ## Accesses (R173, R174) -/

/-- The effective address of a memory word, in the terms of the obligations. -/
theorem ea_eq_eaOf (e : LaneEnv) (x : Thread) (a o : Code) (size : Nat) : e.ea x a o size = eaOf e x a o size := by
  unfold LaneEnv.ea eaOf
  generalize e.read64 x a = p
  have moved : p.setWidth 52 + o.signExtend 52 * BitVec.ofNat 52 size =
      BitVec.ofInt 52 ((p.toNat % 2 ^ 52 : Nat) + o.toInt * size) := by
    rw [BitVec.ofInt_add, BitVec.ofInt_mul, BitVec.ofInt_natCast, BitVec.ofInt_natCast, BitVec.signExtend,
      ← BitVec.toNat_setWidth, BitVec.ofNat_toNat, BitVec.setWidth_eq]
  have top : (bits p 63 52).toNat = p.toNat / 2 ^ 52 := by
    have := p.isLt
    change fieldNat p 63 52 = _
    rw [fieldNat_eq]
    omega
  dsimp only
  rw [moved]
  generalize ((p.toNat % 2 ^ 52 : Nat) + o.toInt * size : Int) = y
  apply BitVec.eq_of_toNat_eq
  have low : (y % 2 ^ 52).toNat < 2 ^ 52 := by omega
  rw [BitVec.toNat_append, top, BitVec.toNat_ofInt, BitVec.toNat_ofNat,
    ← Nat.shiftLeft_add_eq_or_of_lt (by exact_mod_cast low), Nat.shiftLeft_eq]
  have := p.isLt
  push_cast
  omega
theorem data_eq_dataOf (e : LaneEnv) (x : Thread) (c : Code) (size : Nat) : e.data x c size = dataOf e x c size := rfl

/-- An access that the obligations grant passes the model's checks one after the other. -/
theorem access_some {s s1 : State} {t : TRef} {ea : DWord} {size k : Nat} {kind : AccKind} {dst : Dest}
    (h : access s t ea size kind = some (s1, k, dst)) :
    s.memCheck (s.crew t.cid).wid ea size kind = .ok dst ∧ s.poolDown dst = false ∧
      s.locate dst (kind != .load) = .at s1 k := by
  rw [access] at h
  split at h
  next => nomatch h
  next d check =>
    rw [check]
    split at h
    next => nomatch h
    next up =>
      split at h
      next place => cases h; exact ⟨rfl, by simpa using up, place⟩
      next => nomatch h

/-! ## st.rel (R180, R183, R304) -/

/-- Where the turn of st.rel completes, its checks pass, no seal comes first, and the store is released or, in a
scratchpad, made. -/
theorem releaseThread_of_turn {scope : Nat} {w : Bool} {d a o : Code} {r : Run} {s s' : State} {t : TRef}
    (h : releaseTurn scope w d a o r s t = some s') : releaseThread scope (wideSize w) d a o r s t = .ok s' := by
  unfold releaseTurn at h
  unfold releaseThread State.sealedTurn
  simp only [ea_eq_eaOf]
  dsimp only at h
  split at h
  next idle =>
    cases h
    rcases idle with helper | done
    · exact if_pos helper
    · obtain ⟨n, own⟩ := Option.isSome_iff_exists.mp done
      rw [own]
      exact ite_self _
  next fresh =>
    obtain ⟨helper, unsealed⟩ := not_or.mp fresh
    rw [if_neg helper, Option.not_isSome_iff_eq_none.mp unsealed]
    obtain ⟨⟨s1, k, dst⟩, located, h⟩ := Option.bind_eq_some_iff.mp h
    obtain ⟨check, up, placed⟩ := access_some located
    obtain ⟨unnumbered, h⟩ := Option.ite_none_left_eq_some.mp h
    obtain ⟨s4, sent, done⟩ := Option.map_eq_some_iff.mp h
    cases done
    unfold wideSize
    simp only [check, up, show s.locate dst true = .at s1 k from placed]
    cases dst with
    | global sp ia =>
      obtain ⟨s3, before, released⟩ := Option.map_eq_some_iff.mp sent
      cases released
      refine (if_neg Bool.false_ne_true).trans ((if_neg unnumbered).trans ?_)
      simp only [true_and, before, Option.bind_some, if_true]
      rfl
    | scratch wid o =>
      refine (if_neg Bool.false_ne_true).trans ((if_neg unnumbered).trans ?_)
      obtain ⟨s3, before, stored⟩ := Option.bind_eq_some_iff.mp sent
      simp only [Bool.false_eq_true, false_and, if_false, before, Option.bind_some, data_eq_dataOf, writeOp]
      unfold heldOf at stored
      rw [stored]
      rfl

theorem stRel_inTurns (e : BitVec 3) (w : Bool) (d a o : Code) :
    InTurns (.stRel e w d a o) (releaseTurn e.toNat w d a o) :=
  ⟨_, fun _ => rfl, fun _ _ _ _ => releaseThread_of_turn⟩

/-! ## The fences (R188 to R190) -/

section
variable {i : Instr} {eff : Turn1}

/-- region commits (R120). -/
theorem region_inTurns (h : fenceOf .region = some eff) : InTurns .region eff := by
  cases h
  exact ⟨_, fun _ => rfl, fun r s t s' h => congrArg _ (Option.some.inj h)⟩

theorem fence_inTurns {e : BitVec 3} (h : fenceOf (.fence e) = some eff) : InTurns (.fence e) eff := by
  cases h
  refine ⟨_, fun _ => rfl, fun r s t s' h => ?_⟩
  dsimp only at h ⊢
  split at h
  next helper => rw [if_pos helper]; exact congrArg _ (Option.some.inj h)
  next live =>
    rw [if_neg live]
    obtain ⟨s2, performed, h⟩ := Option.bind_eq_some_iff.mp h
    obtain ⟨clear, done⟩ := Option.ite_none_left_eq_some.mp h
    cases done
    rw [State.fenceAt, performed]
    dsimp only [Option.map_some]
    split
    next k ia ea stuck =>
      obtain ⟨wide, stuck⟩ := Option.ite_none_right_eq_some.mp stuck
      exact absurd ⟨wide, Option.isSome_of_eq_some stuck⟩ clear
    next => rfl

/-- pfence.rind asks for a seal (R189). -/
theorem pfenceRind_inTurns (h : fenceOf .pfenceRind = some eff) : InTurns .pfenceRind eff := by
  cases h
  refine ⟨_, fun _ => rfl, fun r s t s' h => ?_⟩
  dsimp only at h ⊢
  split at h
  next helper => rw [if_pos helper]; exact congrArg _ (Option.some.inj h)
  next live =>
    obtain ⟨s1, performed, done⟩ := Option.map_eq_some_iff.mp h
    cases done
    rw [if_neg live, performed]
    rfl

/-- pfence.rind.wait completes once a seal captured after its request is valid (R189). -/
theorem pfenceRindWait_inTurns (h : fenceOf .pfenceRindWait = some eff) : InTurns .pfenceRindWait eff := by
  cases h
  refine ⟨_, fun _ => rfl, fun r s t s' h => ?_⟩
  dsimp only at h ⊢
  split at h
  next helper => rw [if_pos helper]; exact congrArg _ (Option.some.inj h)
  next live =>
    rw [if_neg live, Run.keptOf]
    cases kept : (r.kept.find? fun p => p.1 == t).map (·.2) with
    | none =>
      rw [kept] at h
      nomatch h
    | some n =>
      rw [kept] at h
      obtain ⟨valid, done⟩ := Option.ite_none_right_eq_some.mp h
      cases done
      exact if_pos valid

/-- pfence.keep counts the thread's persist fences (R190). -/
theorem pfenceKeep_inTurns (h : fenceOf .pfenceKeep = some eff) : InTurns .pfenceKeep eff := by
  cases h
  exact ⟨_, fun _ => rfl, fun r s t s' h => congrArg _ (Option.some.inj h)⟩

/-- pfence.keep.wait completes once the thread's earlier persistent stores are durable (R190). -/
theorem pfenceKeepWait_inTurns (h : fenceOf .pfenceKeepWait = some eff) : InTurns .pfenceKeepWait eff := by
  cases h
  refine ⟨_, fun _ => rfl, fun r s t s' h => ?_⟩
  dsimp only at h ⊢
  rw [Run.keptOf]
  cases kept : (r.kept.find? fun p => p.1 == t).map (·.2) with
  | none =>
    rw [kept] at h
    obtain ⟨durable, done⟩ := Option.ite_none_left_eq_some.mp h
    cases done
    exact if_neg durable
  | some n =>
    rw [kept] at h
    obtain ⟨durable, done⟩ := Option.ite_none_left_eq_some.mp h
    cases done
    exact if_neg durable

/-! ## The stash words and prefetch (R191 to R193) -/

theorem fieldNat_lowHalf (v : DWord) : fieldNat v 31 0 = v.toNat % 2 ^ 32 := by simp [fieldNat_eq]
theorem fieldNat_highHalf (v : DWord) : fieldNat v 63 32 = v.toNat / 2 ^ 32 := by
  have := v.isLt
  rw [fieldNat_eq]
  omega

theorem stashMap_inTurns {d a : Code} {b : BSrc} (h : fenceOf (.stashMap d a b) = some eff) :
    InTurns (.stashMap d a b) eff := by
  cases h
  refine .afterPops (fun _ => rfl) fun r s t s' h => ?_
  unfold stashMapThread
  simp only [fieldNat_lowHalf, fieldNat_highHalf]
  dsimp only at h
  split at h
  next helper => rw [if_pos helper]; exact congrArg _ (Option.some.inj h)
  next live =>
    obtain ⟨passes, done⟩ := Option.ite_none_left_eq_some.mp h
    cases done
    rw [if_neg live, Option.not_isSome_iff_eq_none.mp passes]
    rfl

/-- stash.unmap and stash.flush write back what they select, unless a sector's page is not there (R192). -/
theorem stashEnd_of_turn {stays : Bool} {b : BSrc} {r : Run} {s s' : State} {t : TRef}
    (h : fenceOf.stashTurn stays b r s t = some s') : stashEnd stays b r s t = .ok s' := by
  unfold fenceOf.stashTurn at h
  unfold stashEnd
  dsimp only at h ⊢
  split at h
  next helper => rw [if_pos helper]; exact congrArg _ (Option.some.inj h)
  next live =>
    obtain ⟨passes, done⟩ := Option.ite_none_left_eq_some.mp h
    obtain ⟨named, resident⟩ := not_or.mp passes
    cases done
    rw [if_neg live, if_neg named, Option.not_isSome_iff_eq_none.mp resident]
    rfl

theorem stashUnmap_inTurns {b : BSrc} (h : fenceOf (.stashUnmap b) = some eff) : InTurns (.stashUnmap b) eff := by
  cases h
  exact .afterPops (fun _ => rfl) fun _ _ _ _ => stashEnd_of_turn
theorem stashFlush_inTurns {b : BSrc} (h : fenceOf (.stashFlush b) = some eff) : InTurns (.stashFlush b) eff := by
  cases h
  exact .afterPops (fun _ => rfl) fun _ _ _ _ => stashEnd_of_turn

theorem prefetch_inTurns {a : Code} {b : BSrc} (h : fenceOf (.prefetch a b) = some eff) :
    InTurns (.prefetch a b) eff := by
  cases h
  refine .afterPops (fun _ => rfl) fun r s t s' h => ?_
  unfold prefetchThread
  dsimp only at h ⊢
  generalize (if (s.thread t).helper then none
    else s.prefetchLine (s.crew t.cid).wid ((s.env r t.cid).read64 (s.thread t) a)) = line at h ⊢
  rcases line with _ | ⟨s1, ia, k⟩
  · exact congrArg _ (Option.some.inj h)
  · dsimp only at h ⊢
    simp only [List.isEmpty_iff]
    split at h
    next here => exact (if_pos here).trans (congrArg _ (Option.some.inj h))
    next absent =>
      obtain ⟨s2, missed, done⟩ := Option.map_eq_some_iff.mp h
      cases done
      refine (if_neg absent).trans ?_
      rw [missed]
      rfl

end

/-- Every word of `fenceOf` goes thread by thread, each by its own turn. -/
theorem fenceOf_inTurns {i : Instr} {eff : Turn1} (h : fenceOf i = some eff) : InTurns i eff := by
  cases i with
  | region => exact region_inTurns h
  | fence => exact fence_inTurns h
  | pfenceRind => exact pfenceRind_inTurns h
  | pfenceRindWait => exact pfenceRindWait_inTurns h
  | pfenceKeep => exact pfenceKeep_inTurns h
  | pfenceKeepWait => exact pfenceKeepWait_inTurns h
  | stashMap => exact stashMap_inTurns h
  | stashUnmap => exact stashUnmap_inTurns h
  | stashFlush => exact stashFlush_inTurns h
  | prefetch => exact prefetch_inTurns h
  | _ => nomatch h

/-! ## The statement -/

/-- Settles O15: each word goes thread by thread, and completes for a thread as its turn says. -/
theorem releasesAndFences : Obligations.ReleasesAndFences := by
  unfold Obligations.ReleasesAndFences
  refine ⟨fun e w d a o s r s' hr turns => ?release, fun i eff h s r s' hr turns => ?fence⟩
  case release => exact (stRel_inTurns e w d a o).next hr turns
  case fence => exact (fenceOf_inTurns h).next hr turns

end Sys2Proof.Proofs

/-!
PROOF. The cross-lane words (05 R142 to R147): the rule of a word whose threads compute from their groups, the lanes that
the words read from, and O7 from the two.
-/

namespace Sys2Proof.Proofs

open Sys2Proof Sys2Proof.Machine Sys2Proof.Safety Sys2Proof.Laws

/-! ## A word over groups (R142, R143) -/

/-- The current run is the one that stands at its port. -/
theorem run_of_current {s : State} {r : Run} (h : s.current = some r) : s.run r.key = r := by
  unfold State.current at h
  split at h
  next k _ =>
    have key : r.key = k := by simpa using List.find?_some h
    rw [State.run, key, h, Option.getD_some]
  next => nomatch h

/-- A word over groups that names no queue register completes for every thread at once. -/
theorem cross_eq {s : State} {r : Run} (h : s.current = some r) (srcs : List Code) (d m : Code)
    (f : LaneEnv → List Thread → Thread → Thread) (after : LaneEnv → Thread → Thread)
    (hq : (d :: srcs).any isQueueCode = false) :
    s.cross srcs d m f after = .next (crossDone s r (m, fun e g t => after e (f e g t))) := by
  unfold State.cross
  rw [h]
  simp only [hq, State.crossMap, run_of_current h]
  rfl

/-! ## The shape of a cross-lane word -/

/-- The word reads and writes no operand but its own, and gives each thread what `c` says, unless its destination is a
queue register. A word without a destination field has the code 120 for it. -/
structure Crosses (i : Instr) (d : Code) (srcs : List Code) (c : CrossRes) (f : LaneEnv → List Thread → Thread → Thread)
    (after : LaneEnv → Thread → Thread) : Prop where
  runs : ∀ s, exec i s = s.cross srcs d c.1 f after
  names : d :: srcs ⊆ 120#7 :: i.fields.map (·.1)
  gives : isQueueCode d = false → ∀ e g t, after e (f e g t) = c.2 e g t

/-- A cross-lane word of this result, whatever its operands. -/
def CrossWord (i : Instr) (c : CrossRes) : Prop := ∃ d srcs f after, Crosses i d srcs c f after

theorem CrossWord.next {i : Instr} {c : CrossRes} (h : CrossWord i c) (hq : noQueue i = true) {s : State} {r : Run}
    (hr : s.current = some r) : exec i s = .next (crossDone s r c) := by
  obtain ⟨d, srcs, f, after, runs, names, gives⟩ := h
  have operands : (120#7 :: i.fields.map (·.1)).any isQueueCode = false := (noQueue_iff i).mp hq
  have plain : ∀ x ∈ d :: srcs, ¬ isQueueCode x = true := fun x hx => List.any_eq_false.mp operands x (names hx)
  have noDst : isQueueCode d = false := by simpa using plain d (List.mem_cons_self ..)
  have result : (fun e g t => after e (f e g t)) = c.2 := by
    funext e g t
    exact gives noDst e g t
  rw [runs, cross_eq hr srcs d c.1 f after (List.any_eq_false.mpr plain), result]

section
variable {i : Instr} {d a m : Code} {b : BSrc} {c : CrossRes}

/-- A 32-bit result. -/
theorem crossWord_of_write32 {srcs : List Code} {val : LaneEnv → List Thread → Thread → Word}
    (runs : ∀ s, exec i s = s.cross srcs d m fun e g t => t.write32 e d (val e g t))
    (names : d :: srcs ⊆ i.fields.map (·.1)) : CrossWord i (m, fun e g t => took32 e.pos d (val e g t) t) :=
  ⟨d, srcs, _, _, runs, List.subset_cons_of_subset _ names, fun hd e _ t => write32_eq t e d _ hd⟩

/-- A 64-bit result. -/
theorem crossWord_of_write64 {srcs : List Code} {val : LaneEnv → List Thread → Thread → DWord}
    (runs : ∀ s, exec i s = s.cross srcs d m fun e g t => t.write64 e d (val e g t))
    (names : d :: srcs ⊆ i.fields.map (·.1)) : CrossWord i (m, fun e g t => took64 e.pos d (val e g t) t) :=
  ⟨d, srcs, _, _, runs, List.subset_cons_of_subset _ names, fun _ e _ t => write64_eq t e d _⟩

/-- A predicate written, in the terms of the obligations (R17, R23). -/
theorem writePred_eq (t : Thread) (e : LaneEnv) (p : BitVec 3) (x : Bool) : t.writePred e p x = tookPred e.pos p x t := by
  cases x <;> rfl

/-- A predicate result. -/
theorem crossWord_of_writePred {p : BitVec 3} {val : LaneEnv → List Thread → Thread → Bool}
    (runs : ∀ s, exec i s = s.cross [] 120#7 m fun e g t => t.writePred e p (val e g t)) :
    CrossWord i (m, fun e g t => tookPred e.pos p (val e g t) t) :=
  ⟨120#7, [], _, _, runs, by simp, fun _ e _ t => writePred_eq t e p _⟩

/-! ## Picks and quad operations (R144) -/

theorem bit_eq_div (w : Word) (n : Nat) : bit w n = decide (w.toNat / 2 ^ n % 2 = 1) := by
  rw [bit, BitVec.getLsbD, Nat.testBit_eq_decide_div_mod_eq]

theorem backLane_eq_laneBelow (t : Nat) (w : Word) : backLane t w = laneBelow t w.toNat := by
  simp [backLane, laneBelow, fieldNat_shiftAmount, bit_eq_div]
theorem fwdLane_eq_laneAbove (t : Nat) (w : Word) : fwdLane t w = laneAbove t w.toNat := by
  simp [fwdLane, laneAbove, fieldNat_shiftAmount, bit_eq_div]

/-- A word that takes a of the lane that its own index and the number in b name. -/
theorem picked_crossWord {j : Nat → Nat → Option Nat} (h : picked d a b m j = some c)
    (runs : ∀ s, exec i s = s.pick d a b m fun t w => j t w.toNat) (names : d :: a :: bCodes b ⊆ i.fields.map (·.1)) :
    CrossWord i c := by
  cases h
  exact crossWord_of_write32 runs names

/-- The codes of a word with the fields d, a, b and a mask begin with d, a and b. -/
theorem dab_subset_codes {k n q w : Nat} (h : i.fields = (d, k) :: (a, n) :: (b.field q ++ [(m, w)])) :
    d :: a :: bCodes b ⊆ i.fields.map (·.1) := by
  simp only [h, List.map_cons, List.map_append, field_codes]
  exact List.cons_subset_cons d (List.cons_subset_cons a (List.subset_append_left ..))

/-! ## Reductions and scans (R146, R147) -/

/-- xl.fold.add.f32 rounds once, and counts its draw as it completes (R87, R146). -/
theorem xlFold_crossWord {j : BitVec 4} (h : crossOf (.xlFold j d a m) = some c) : CrossWord (.xlFold j d a m) c := by
  cases h
  refine ⟨d, [a], _, _, fun _ => rfl, by simp [Instr.fields], fun hd e g t => ?_⟩
  rw [write32_eq _ _ _ _ hd]
  rfl

/-- A scan folds the words of its range. -/
theorem scanned_crossWord {incl : Bool} {j : BitVec 3} {start : LaneEnv → Thread → Nat}
    (h : scanned incl j d a m start = some c) (runs : ∀ s, exec i s = s.scan incl j [a] d a m start)
    (names : [d, a] ⊆ i.fields.map (·.1)) : CrossWord i c := by
  cases h
  exact crossWord_of_write32 runs names

end

/-! ## The words -/

/-- Every word of `crossOf` gives each thread that result from its group, each by its shape. -/
theorem crossOf_crossWord {i : Instr} {c : CrossRes} (h : crossOf i = some c) : CrossWord i c := by
  cases i with
  | xlPick | xlFlip =>
    rw [crossOf] at h
    exact picked_crossWord h (by simp only [← fieldNat_shiftAmount]; exact fun _ => rfl) (dab_subset_codes rfl)
  | xlBack =>
    rw [crossOf] at h
    exact picked_crossWord h (by simp only [← backLane_eq_laneBelow]; exact fun _ => rfl) (dab_subset_codes rfl)
  | xlFwd =>
    rw [crossOf] at h
    exact picked_crossWord h (by simp only [← fwdLane_eq_laneAbove]; exact fun _ => rfl) (dab_subset_codes rfl)
  | quadBcast =>
    rw [crossOf] at h
    exact picked_crossWord h (by simp only [← fieldNat_pixel]; exact fun _ => rfl) (dab_subset_codes rfl)
  | quadSwapH | quadSwapV | quadSwapD =>
    rw [crossOf] at h
    exact picked_crossWord h (fun _ => rfl) (by simp [Instr.fields, bCodes])
  | xlMask | xlSame => cases h; exact crossWord_of_write64 (fun _ => rfl) (by simp [Instr.fields])
  | xlAny | xlAll => cases h; exact crossWord_of_writePred fun _ => rfl
  | xlFold => exact xlFold_crossWord h
  | scanIncl | scanExcl | scanSegIncl | scanSegExcl => exact scanned_crossWord h (fun _ => rfl) (by simp [Instr.fields])
  | _ => nomatch h

/-! ## The statement -/

/-- Settles O7: a word of `crossOf` gives its result to every thread of the run at once, each from its group. -/
theorem crossLane : Obligations.CrossLane := by
  unfold Obligations.CrossLane
  intro i c h hq s r hr
  exact (crossOf_crossWord h).next hq hr

end Sys2Proof.Proofs

/-!
PROOF. The matrix words (08 R212 to R234): what a word reads, writes and advances in the terms of the obligations, what
each word leaves on operands that it accepts, and O26.
-/

namespace Sys2Proof.Proofs

open Sys2Proof Sys2Proof.Machine Sys2Proof.Safety Sys2Proof.Laws

/-! ## The end of a matrix word (R210) -/

/-- A word that changes the sequencer and is then complete. -/
theorem seqDone_updSeq (s : State) (c : Nat) (f : Sequencer → Sequencer) :
    (s.updSeq c f).seqDone c = seqSet s c f := rfl

/-! ## Scratchpad pieces (R175, R211, R215) -/

section
variable {s s1 : State} {c n : Nat} {cause : Byte} {base p : DWord} {bs acc : List Byte}

/-- Every piece lies in the allocation. -/
theorem mxHole_eq_false_iff {ps : List (DWord × Nat)} :
    s.mxHole c ps = false ↔ ps.all (fun p => (s.scratchCheck (s.whoWg (s.seqWid c)) p.1 p.2).isSome) = true := by
  simp [State.mxHole, Option.isSome_iff_ne_none]

/-- A piece that nothing stops is accessed alike whichever fault it might have raised. -/
theorem mxAt_ok {write : Bool} {f : State → DWord → Nat → MxRes} (h : s.mxAt c cause base p n write f = .ok s1 bs)
    (cause' : Byte) (base' : DWord) : s.mxAt c cause' base' p n write f = .ok s1 bs := by
  unfold State.mxAt at h ⊢
  cases hole : s.scratchCheck (s.whoWg (s.seqWid c)) p n with
  | none => simp [hole] at h
  | some x => simpa only [hole] using h

/-- So are the pieces of an operand. -/
theorem mxReads_ok {ps : List (DWord × Nat)} (h : mxReads c cause base ps acc s = .ok s1 bs) (cause' : Byte)
    (base' : DWord) : mxReads c cause' base' ps acc s = .ok s1 bs := by
  induction ps generalizing s acc with
  | nil => exact h
  | cons p ps ih =>
    obtain ⟨p, n⟩ := p
    unfold mxReads at h ⊢
    dsimp only at h ⊢
    split at h
    case h_1 hp =>
      rw [mxAt_ok hp cause' base']
      exact ih h
    case h_2 => nomatch h

/-- Bytes are got from an operand without holes whose pieces are all read. -/
theorem mxGot_eq_some {ps : List (DWord × Nat)} (h : mxGot s c ps = some (s1, bs)) :
    s.mxHole c ps = false ∧ mxReads c 0x70 0 ps [] s = .ok s1 bs := by
  unfold mxGot at h
  obtain ⟨whole, h⟩ := Option.ite_none_left_eq_some.mp h
  refine ⟨Bool.eq_false_of_not_eq_true whole, ?_⟩
  split at h
  case h_1 reads =>
    cases h
    exact reads
  case h_2 => nomatch h

/-- A word goes on with the bytes that it got. -/
theorem mxRead_of_got {ps : List (DWord × Nat)} (h : mxGot s c ps = some (s1, bs)) (cause : Byte) (base : DWord)
    (f : State → List Byte → State) : s.mxRead c cause base ps f = f s1 bs := by
  obtain ⟨whole, reads⟩ := mxGot_eq_some h
  simp [State.mxRead, whole, mxReads_ok reads]

/-- A word goes on once the pieces of all its operands are placed. -/
theorem mxWrite_of_placed {ops : List (DWord × List (DWord × List Byte))}
    (h : mxPlaced s c (ops.flatMap (·.2)) = some s1) (f : State → State) : s.mxWrite c ops f = f s1 := by
  unfold mxPlaced at h
  obtain ⟨whole, h⟩ := Option.ite_none_left_eq_some.mp h
  have fits : ops.find? (fun o => s.mxHole c (o.2.map fun p => (p.1, p.2.length))) = none := by
    simpa [State.mxHole] using whole
  split at h
  case h_1 => nomatch h
  case h_2 can =>
    split at h
    case h_1 put =>
      cases h
      simp only [State.mxWrite, fits, can, put]
    case h_2 => nomatch h

end

/-! ## Operands (R212, R214 to R216) -/

section
variable {s s1 : State} {c : Nat} {n : UReg} {adv : Bool} {t : Tile}

/-- An operand is well formed unless it is a descriptor that is unfit or has a hole. -/
theorem mxFit_iff : mxFit s c n adv = true ↔ (4 ≤ n.toNat →
    (s.mxDesc c n).bad 192 adv true = none ∧ s.mxHole c (s.mxDesc c n).pieces = false) := by
  rw [mxHole_eq_false_iff, mxFit, Bool.or_eq_true, decide_eq_true_iff, Bool.and_eq_true, Option.isNone_iff_eq_none,
    or_iff_not_imp_left, not_lt]

/-- An operand that was taken is well formed. -/
theorem mxFit_of_tile {x : State × Tile} (h : mxTile s c n adv = some x) : mxFit s c n adv = true := by
  refine mxFit_iff.mpr fun desc => ?_
  rw [mxTile, if_neg (not_lt.mpr desc)] at h
  obtain ⟨fit, got⟩ := Option.ite_none_left_eq_some.mp h
  obtain ⟨y, got, -⟩ := Option.map_eq_some_iff.mp got
  exact ⟨Option.not_isSome_iff_eq_none.mp fit, (mxGot_eq_some got).1⟩

/-- A word goes on with the tile of its operand. -/
theorem operand_of_tile (h : mxTile s c n adv = some (s1, t)) (f : State → Tile → State) :
    s.operand c n f = f s1 t := by
  unfold mxTile at h
  unfold State.operand
  by_cases tile : n.toNat < 4
  · rw [if_pos tile] at h ⊢
    cases h
    rfl
  · rw [if_neg tile] at h ⊢
    obtain ⟨y, got, made⟩ := Option.map_eq_some_iff.mp (Option.ite_none_left_eq_some.mp h).2
    cases made
    exact mxRead_of_got got ..

/-- A well-formed operand meets none of the conditions of R215. -/
theorem operandBad_of_fit (h : mxFit s c n adv = true) : s.operandBad c n adv = none := by
  unfold State.operandBad
  split
  case isTrue => rfl
  case isFalse desc => exact (mxFit_iff.mp h (not_lt.mp desc)).1
theorem operandHole_of_fit (h : mxFit s c n adv = true) : s.operandHole c n = false := by
  unfold State.operandHole
  by_cases desc : 4 ≤ n.toNat
  · rw [(mxFit_iff.mp h desc).2, Bool.and_false]
  · rw [decide_eq_false desc, Bool.false_and]
theorem operandsBad_of_fit {ns : List (UReg × Bool)} (h : ∀ m ∈ ns, mxFit s c m.1 m.2 = true) :
    s.operandsBad c ns = none := by
  have unfit : ns.findSome? (fun m => (s.operandBad c m.1 m.2).map fun sub => (sub, (s.mxDesc c m.1).base)) = none :=
    List.findSome?_eq_none_iff.mpr fun m hm => by rw [operandBad_of_fit (h m hm), Option.map_none]
  have hole : ns.findSome? (fun m => if s.operandHole c m.1 then some (6#8, (s.mxDesc c m.1).base) else none) = none :=
    List.findSome?_eq_none_iff.mpr fun m hm => by simp [operandHole_of_fit (h m hm)]
  rw [State.operandsBad, unfit, hole]
  rfl

end

/-! ## The advance of a pair (R217) -/

/-- A pointer whose offset moves by a signed number keeps its space and region. -/
theorem moved_eq_ofNat (p : DWord) (o : BitVec 52) :
    (p.extractLsb' 52 12 ++ (p.extractLsb' 0 52 + o) : BitVec 64) =
      BitVec.ofNat 64 (p.toNat / 2 ^ 52 * 2 ^ 52 + (((p.toNat % 2 ^ 52 : Nat) + o.toInt) % 2 ^ 52).toNat) := by
  have moved : p.extractLsb' 0 52 + o = BitVec.ofInt 52 ((p.toNat % 2 ^ 52 : Nat) + o.toInt) := by
    rw [BitVec.ofInt_add, BitVec.ofInt_toInt, BitVec.ofInt_natCast]
    congr 1
    exact BitVec.eq_of_toNat_eq (by simp)
  rw [moved]
  generalize ((p.toNat % 2 ^ 52 : Nat) + o.toInt : Int) = y
  have low : (y % 2 ^ 52).toNat < 2 ^ 52 := by omega
  have := p.isLt
  apply BitVec.eq_of_toNat_eq
  rw [BitVec.toNat_append, BitVec.extractLsb'_toNat, BitVec.toNat_ofInt, BitVec.toNat_ofNat,
    ← Nat.shiftLeft_add_eq_or_of_lt (by exact_mod_cast low), Nat.shiftLeft_eq, Nat.shiftRight_eq_div_pow]
  push_cast
  omega

theorem advance_eq_mxMoved (s : State) (c : Nat) (n : UReg) (p : Prop) [Decidable p] :
    (if p then s.advance c n else s) = mxMoved s c n p := by
  simp only [mxMoved, State.advance, moved_eq_ofNat, decide_eq_true_iff]

/-! ## Fields of a register (R225, R228, R229) -/

/-- COUNT of a list of outliers, and the bits above it, which are 0. -/
theorem outlierCount_bad (w : DWord) : (64 < fieldNat w 6 0 ∨ fieldNat w 63 7 ≠ 0) ↔ 64 < w.toNat := by
  have := w.isLt
  rw [fieldNat_eq, fieldNat_eq]
  omega
theorem fieldNat_outlierCount {w : DWord} (h : ¬ 64 < w.toNat) : fieldNat w 6 0 = w.toNat := by
  rw [fieldNat_eq]
  omega
theorem outlierOf_eq (w : Word) : outlierOf w = ⟨w.extractLsb' 16 16, w.toNat / 4096 % 16, w.toNat % 512⟩ := by
  simp [outlierOf, fieldNat_eq]
theorem fieldNat_outlierZero (w : Word) : fieldNat w 11 9 = w.toNat / 512 % 8 := by simp [fieldNat_eq]
theorem fieldNat_ackRow (g : DWord) : fieldNat g 3 0 = g.toNat % 16 := by simp [fieldNat_eq]
theorem fieldNat_ackCol (g : DWord) : fieldNat g 7 4 = g.toNat / 16 % 16 := by simp [fieldNat_eq]
theorem fieldNat_ackStatus (g : DWord) : fieldNat g 9 8 = g.toNat / 256 % 4 := by simp [fieldNat_eq]
theorem ackTol_eq (tol : BitVec 2) : ackTol tol = if tol = 0#2 then .fin false 1 65536
    else if tol = 1#2 then .fin false 1 4096 else if tol = 2#2 then .fin false 1 256 else .zero := by
  decide +revert

/-! ## Each word on operands that it accepts -/

section
variable {s t : State} {col : Nat} (h : s.turn = .seq col)
include h

/-- mma (R223, R224, R225): both operands are taken, both pairs advance, and the accumulator takes the products. -/
theorem mma_next {f : BitVec 4} {ck z : Bool} {c : BitVec 3} {a b : BitVec 8} {advA advB : Bool}
    (e : matrixOf s col (.mma f ck z c a b advA advB) = some t) : exec (.mma f ck z c a b advA advB) s = .next t := by
  refine (seqWord_eq h _).trans (congrArg _ ?_)
  obtain ⟨codebooks, e⟩ := Option.ite_none_left_eq_some.mp e
  obtain ⟨outliers, e⟩ := Option.ite_none_left_eq_some.mp e
  obtain ⟨fitB, e⟩ := Option.ite_none_left_eq_some.mp e
  obtain ⟨⟨s1, ta⟩, tileA, e⟩ := Option.bind_eq_some_iff.mp e
  obtain ⟨⟨s2, tb⟩, tileB, e⟩ := Option.map_eq_some_iff.mp e
  cases e
  have same : decide (a = b ∧ (advA = true ∨ advB = true)) = (decide (a = b) && (advA || advB)) := by simp
  have fit : s.operandsBad col [(a, advA || decide (a = b ∧ (advA = true ∨ advB = true))),
      (b, advB || decide (a = b ∧ (advA = true ∨ advB = true)))] = none := by
    rw [same]
    refine operandsBad_of_fit fun m hm => ?_
    obtain rfl | rfl : m = _ ∨ m = _ := by simpa using hm
    · exact mxFit_of_tile tileA
    · exact not_not.mp fitB
  dsimp only
  rw [if_neg codebooks, if_neg outliers, fit]
  dsimp only
  have once : decide (advB = true ∧ ¬ (advA = true ∧ a = b)) = (advB && !(advA && a == b)) := by
    simp [beq_eq_decide]
  rw [operand_of_tile tileA, operand_of_tile tileB, advance_eq_mxMoved, advance_eq_mxMoved, once, Bool.decide_eq_true]
  rfl

/-- mmo (R225). -/
theorem mmo_next {c : BitVec 3} {a : BitVec 8} (e : matrixOf s col (.mmo c a) = some t) :
    exec (.mmo c a) s = .next t := by
  refine (seqWord_eq h _).trans (congrArg _ ?_)
  obtain ⟨fit, e⟩ := Option.ite_none_left_eq_some.mp e
  obtain ⟨⟨s1, bs⟩, got, e⟩ := Option.bind_eq_some_iff.mp e
  obtain ⟨zero, e⟩ := Option.ite_none_left_eq_some.mp e
  cases e
  have accepted := fit
  rw [← outlierCount_bad] at accepted
  dsimp only at zero ⊢
  rw [if_neg accepted, fieldNat_outlierCount (not_or.mp fit).2, mxRead_of_got got]
  simp only [fieldNat_outlierZero, if_neg zero, funext outlierOf_eq, seqDone_updSeq]

/-- xload (R222). -/
theorem xload_next {a b : BitVec 8} {adv : Bool} (e : matrixOf s col (.xload a b adv) = some t) :
    exec (.xload a b adv) s = .next t := by
  refine (seqWord_eq h _).trans (congrArg _ ?_)
  obtain ⟨⟨s1, tile⟩, taken, e⟩ := Option.map_eq_some_iff.mp e
  cases e
  have fit : s.operandsBad col [(b, adv)] = none := operandsBad_of_fit (by simpa using mxFit_of_tile taken)
  dsimp only
  rw [fit]
  dsimp only
  rw [operand_of_tile taken, advance_eq_mxMoved, Bool.decide_eq_true, seqDone_updSeq]

/-- xpop (R222). -/
theorem xpop_next {a : BitVec 8} (e : matrixOf s col (.xpop a) = some t) : exec (.xpop a) s = .next t := by
  refine (seqWord_eq h _).trans (congrArg _ ?_)
  obtain ⟨full, e⟩ := Option.ite_none_left_eq_some.mp e
  cases e
  exact if_neg full

/-- cbload (R224). -/
theorem cbload_next {c : BitVec 3} {a : BitVec 8} {sa sb : Bool} (e : matrixOf s col (.cbload c a sa sb) = some t) :
    exec (.cbload c a sa sb) s = .next t := by
  refine (seqWord_eq h _).trans (congrArg _ ?_)
  obtain ⟨fit, e⟩ := Option.ite_none_left_eq_some.mp e
  obtain ⟨⟨s1, bs⟩, got, e⟩ := Option.map_eq_some_iff.mp e
  cases e
  exact (if_neg fit).trans (mxRead_of_got got ..)

/-- azero (R231). -/
theorem azero_next {c : BitVec 3} (e : matrixOf s col (.azero c) = some t) : exec (.azero c) s = .next t := by
  cases e
  exact seqWord_eq h _

/-- aload (R231). -/
theorem aload_next {c : BitVec 3} {a : BitVec 8} {bf adv : Bool} (e : matrixOf s col (.aload c a bf adv) = some t) :
    exec (.aload c a bf adv) s = .next t := by
  refine (seqWord_eq h _).trans (congrArg _ ?_)
  obtain ⟨fit, e⟩ := Option.ite_none_left_eq_some.mp e
  obtain ⟨⟨s1, bs⟩, got, e⟩ := Option.map_eq_some_iff.mp e
  cases e
  dsimp only
  rw [Option.not_isSome_iff_eq_none.mp fit]
  dsimp only
  rw [mxRead_of_got got, advance_eq_mxMoved, Bool.decide_eq_true]
  rfl

/-- adrain (R232). -/
theorem adrain_next {c : BitVec 3} {a : BitVec 8} {bf clr : Bool} (e : matrixOf s col (.adrain c a bf clr) = some t) :
    exec (.adrain c a bf clr) s = .next t := by
  refine (seqWord_eq h _).trans (congrArg _ ?_)
  obtain ⟨fit, e⟩ := Option.ite_none_left_eq_some.mp e
  obtain ⟨s1, placed, e⟩ := Option.map_eq_some_iff.mp e
  cases e
  dsimp only
  rw [Option.not_isSome_iff_eq_none.mp fit]
  exact mxWrite_of_placed (by simpa using placed) _

/-- adrain.t (R233). -/
theorem adrainT_next {c : BitVec 3} {a b : BitVec 8} {bf clr : Bool}
    (e : matrixOf s col (.adrainT c a b bf clr) = some t) : exec (.adrainT c a b bf clr) s = .next t := by
  refine (seqWord_eq h _).trans (congrArg _ ?_)
  obtain ⟨fit, e⟩ := Option.ite_none_left_eq_some.mp e
  obtain ⟨fitA, fitB, copy⟩ : _ ∧ _ ∧ _ := by simpa only [not_or, Option.not_isSome_iff_eq_none] using fit
  obtain ⟨s1, placed, e⟩ := Option.map_eq_some_iff.mp e
  cases e
  dsimp only
  rw [fitA, fitB]
  dsimp only
  rw [if_neg copy, mxWrite_of_placed (by simpa using placed)]
  cases clr <;> rfl

/-- adrain.q (R234). -/
theorem adrainQ_next {c : BitVec 3} {a : BitVec 8} {bf clr : Bool} (e : matrixOf s col (.adrainQ c a bf clr) = some t) :
    exec (.adrainQ c a bf clr) s = .next t := by
  refine (seqWord_eq h _).trans (congrArg _ ?_)
  obtain ⟨room, e⟩ := Option.ite_none_left_eq_some.mp e
  cases e
  refine (if_neg room).trans ?_
  cases clr <;> rfl

/-- ack (R228). -/
theorem ack_next {c : BitVec 3} {a : BitVec 8} {tol : BitVec 2} (e : matrixOf s col (.ack c a tol) = some t) :
    exec (.ack c a tol) s = .next t := by
  cases e
  rw [← ackTol_eq]
  exact seqWord_eq h _

/-- afix (R229). -/
theorem afix_next {c : BitVec 3} {a : BitVec 8} (e : matrixOf s col (.afix c a) = some t) :
    exec (.afix c a) s = .next t := by
  refine (seqWord_eq h _).trans (congrArg _ ?_)
  cases e
  simp only [fieldNat_ackRow, fieldNat_ackCol, fieldNat_ackStatus]
  rfl

end

/-- Settles O26: each word by its own rule. -/
theorem matrixWords : Obligations.MatrixWords := by
  unfold Obligations.MatrixWords
  intro i s c t h e
  cases i with
  | mma => exact mma_next h e
  | mmo => exact mmo_next h e
  | xload => exact xload_next h e
  | xpop => exact xpop_next h e
  | cbload => exact cbload_next h e
  | azero => exact azero_next h e
  | aload => exact aload_next h e
  | adrain => exact adrain_next h e
  | adrainT => exact adrainT_next h e
  | adrainQ => exact adrainQ_next h e
  | ack => exact ack_next h e
  | afix => exact afix_next h e
  | _ => nomatch e

end Sys2Proof.Proofs

/-!
PROOF. Matrix words that are refused (08 R210, R215, R224, R225, R231): which fault each raises, what a fault of the
sequencer's stream leaves, and O27.
-/

namespace Sys2Proof.Proofs

open Sys2Proof Sys2Proof.Machine Sys2Proof.Safety Sys2Proof.Laws

/-! ## A fault of the sequencer's stream (R210, R355, R451) -/

/-- The first fault of a workgroup stands in it. -/
theorem faultWg_fault {s : State} {wid : Nat} (f : WgFault) (unfaulted : (s.wg wid).fault = none)
    (there : ∃ w ∈ s.wgs, w.wid = wid) : ((s.faultWg wid f).wg wid).fault = some f := by
  simp [State.faultWg, unfaulted, wg_updWg s wid (fun x => { x with fault := some f }) (fun _ => rfl) there]

/-- What the record of such a fault holds (R350, R451). -/
theorem seqTrap_fault {s : State} {c wid : Nat} (cause sub : Byte) (addr : DWord)
    (holder : (s.col c).seqr.holder = some wid) (unfaulted : (s.wg wid).fault = none)
    (there : ∃ w ∈ s.wgs, w.wid = wid) :
    ((s.seqTrap c cause sub addr).wg wid).fault =
      some ⟨cause, if 0x40 ≤ cause.toNat ∧ cause.toNat ≤ 0x48 ∨ cause = 0x73#8 then 0 else sub,
        (s.col c).seqr.pc, addr, { access := 0x20#8 }, 0⟩ := by
  unfold State.seqTrap
  rw [holder]
  exact faultWg_fault _ unfaulted there

/-! ## The refusals of each word -/

section
variable {s : State} {col : Nat} (h : s.turn = .seq col)
include h

/-- xload of an unfit descriptor (R215, R222). -/
theorem xload_refused {b : BitVec 8} {adv : Bool} {sub : Byte} (a : BitVec 8) (desc : 4 ≤ b.toNat)
    (bad : (s.mxDesc col b).bad 192 adv true = some sub) :
    exec (.xload a b adv) s = .next (s.seqTrap col 0x70#8 sub (s.ug (.seq col) b)) := by
  refine (seqWord_eq h _).trans (congrArg _ ?_)
  have unfit : s.operandsBad col [(b, adv)] = some (sub, (s.mxDesc col b).base) := by
    simp [State.operandsBad, State.operandBad, desc, bad]
  rw [unfit]
  rfl

/-- aload of an unfit descriptor (R215, R231). -/
theorem aload_refused {a : BitVec 8} {bf adv : Bool} {sub : Byte} (c : BitVec 3)
    (bad : (s.mxDesc col a).bad (if bf then 32 else 64) adv false = some sub) :
    exec (.aload c a bf adv) s = .next (s.seqTrap col 0x70#8 sub (s.ug (.seq col) a)) := by
  refine (seqWord_eq h _).trans (congrArg _ ?_)
  dsimp only
  rw [bad]
  rfl

/-- cbload of a pointer that is not 32-byte aligned (R224). -/
theorem cbload_refused {a : BitVec 8} (c : BitVec 3) (sa sb : Bool) (bad : ptrOff (s.ug (.seq col) a) % 32 ≠ 0) :
    exec (.cbload c a sa sb) s = .next (s.seqTrap col 0x70#8 1#8 (s.ug (.seq col) a)) :=
  (seqWord_eq h _).trans (congrArg _ (if_pos (by simp [scratchPtr, bad])))

/-- mmo of more than 64 outliers (R225). -/
theorem mmo_refused {a : BitVec 8} (c : BitVec 3) (bad : 64 < (s.ug (.seq col) (a + 1)).toNat) :
    exec (.mmo c a) s = .next (s.seqTrap col 0x73#8 0#8 (s.ug (.seq col) a)) :=
  (seqWord_eq h _).trans (congrArg _ (if_pos (.inr ((outlierCount_bad _).mpr bad))))

end

/-! ## The statement -/

/-- Settles O27: each refusal by its own rule, and what the fault leaves in its workgroup. -/
theorem matrixRefusals : Obligations.MatrixRefusals := by
  unfold Obligations.MatrixRefusals
  refine ⟨fun s c a n adv sub h desc bad => ?xload, fun s c d a bf adv sub h bad => ?aload,
    fun s c d a sa sb h bad => ?cbload, fun s c d a h bad => ?mmo,
    fun s c cause sub addr wid holder unfaulted there => ?fault⟩
  case xload => exact xload_refused h a desc bad
  case aload => exact aload_refused h d bad
  case cbload => exact cbload_refused h d sa sb bad
  case mmo => exact mmo_refused h d bad
  case fault => exact ⟨_, seqTrap_fault cause sub addr holder unfaulted there, rfl, rfl, rfl, rfl⟩

end Sys2Proof.Proofs

/-!
PROOF. Issue of an engine command (09 R240, R241): a result that ends in d, the release and the hand-over; from these
the transfer commands (R244 to R251), and O18.
-/

namespace Sys2Proof.Proofs

open Sys2Proof Sys2Proof.Machine Sys2Proof.Safety Sys2Proof.Laws

/-! ## A word that gives d a result (R201) -/

/-- An update that leaves a thread its name and the element it holds back leaves the state's thread that element. -/
theorem qout_updThread {s : State} {t : TRef} {f : Thread → Thread} (keeps : ∀ x, (f x).qout = x.qout)
    (ident : ∀ x, (f x).is t = x.is t) : ((s.updThread t f).thread t).qout = (s.thread t).qout := by
  have found : (s.updThread t f).threads.find? (·.is t) = (s.threads.find? (·.is t)).map f := by
    have same : ((·.is t) ∘ fun x : Thread => if x.is t then f x else x) = (·.is t) :=
      funext (key_ite (·.is t) (·.is t) f ident)
    rw [State.updThread, List.find?_map, same]
    cases h : s.threads.find? (·.is t) with
    | none => rfl
    | some x => exact congrArg some (if_pos (List.find?_some h))
  rw [State.thread, State.thread, found]
  cases s.threads.find? (·.is t) with
  | none => rfl
  | some x => exact keeps x

theorem qout_took32 (pos : Nat) (d : Code) (w : Word) (x : Thread) : (took32 pos d w x).qout = x.qout := by
  unfold took32 put32
  split_ifs <;> rfl
theorem is_took32 (pos : Nat) (d : Code) (w : Word) (t : TRef) (x : Thread) : (took32 pos d w x).is t = x.is t := by
  unfold took32 put32
  split_ifs <;> rfl

/-- A result for a destination queue stands in `qout` until it is pushed. -/
theorem write32_queue (x : Thread) (e : LaneEnv) {d : Code} (w : Word) (queue : isQueueCode d = true) :
    x.write32 e d w = latched e.pos w { x with qout := some (d, w) } := by
  simp only [isQueueCode, decide_eq_true_eq] at queue
  unfold Thread.write32
  rw [if_neg (by omega), if_neg (by omega), if_pos queue.2]
  rfl

/-- For one thread the word comes to a result in d, and `s'` is the state once d has it. -/
def Gives (f : Run → State → TRef → ThrRes) (d : Code) (r : Run) (s : State) (t : TRef) (s' : State) : Prop :=
  ∃ s1 w, f r s t = .ok (s1.updThread t fun y => y.write32 (s.env r t.cid) d w) ∧ givesWord d w r s1 t = some s'

section
variable {r : Run} {t : TRef} {s s' : State}

/-- A push that is made is the end of its word. -/
theorem pushLast_of_pushed {s1 : State} (h : pushed r t s1 = some s') (s : State) : pushLast r s t s1 = .ok s' := by
  unfold pushed at h
  unfold pushLast
  rcases held : (s1.thread t).qout with _ | ⟨c, w⟩
  · rw [held] at h
    exact congrArg _ (Option.some.inj h)
  · rw [held] at h
    obtain ⟨s2, commits, h⟩ := Option.bind_eq_some_iff.mp h
    dsimp only
    rw [commits]
    dsimp only
    cases push : s2.pushWord t (queueOf c) r.wordAddr w with
    | ok s3 v =>
      rw [push] at h
      exact congrArg _ (Option.some.inj h)
    | _ =>
      rw [push] at h
      nomatch h

/-- Nothing is pushed for a thread that holds back no element. -/
theorem pushed_of_qout_none (h : (s.thread t).qout = none) : pushed r t s = some s := by rw [pushed, h]

/-- The result written, and pushed where d is a queue register, is what d is given. -/
theorem pushed_of_givesWord {d : Code} {w : Word} {s1 : State} (h : givesWord d w r s1 t = some s') :
    pushed r t (s1.updThread t fun y => y.write32 (s.env r t.cid) d w) = some s' := by
  unfold givesWord at h
  split at h
  next queue => rwa [funext fun y => write32_queue y (s.env r t.cid) w queue]
  next register =>
    obtain ⟨empty, done⟩ := Option.ite_none_left_eq_some.mp h
    cases done
    rw [funext fun y => write32_eq y (s.env r t.cid) d w (by simpa using register)]
    exact pushed_of_qout_none ((qout_updThread (qout_took32 _ _ _) (is_took32 _ _ _ t)).trans (by simpa using empty))

/-- A word that pushes last completes for a thread where it comes to a result that d takes. -/
theorem Gives.thenPush {f : Run → State → TRef → ThrRes} {d : Code} (h : Gives f d r s t s') :
    thenPush f r s t = .ok s' := by
  obtain ⟨s1, w, result, given⟩ := h
  rw [Machine.thenPush, result]
  exact pushLast_of_pushed (pushed_of_givesWord given) s

end

/-- So does the whole word. -/
theorem InTurns.thenPush {i : Instr} {eff : Turn1} {d : Code} {f : Run → State → TRef → ThrRes}
    (runs : ∀ s, exec i s = s.lanes (thenPush f)) (hf : ∀ r s t s', eff r s t = some s' → Gives f d r s t s') :
    InTurns i eff :=
  ⟨_, runs, fun r s t s' turn => (hf r s t s' turn).thenPush⟩

/-! ## The release and the hand-over (R22, R240, R241) -/

section
variable {r : Run} {t : TRef} {s s1 : State}

/-- What follows a release that is made. -/
theorem issue_of_issued (h : issued r s t = some s1) (f : State → ThrRes) : s.issue r t f = f s1 := by
  obtain ⟨s0, performed, done⟩ := Option.map_eq_some_iff.mp h
  cases done
  rw [State.issue, State.issueAt, performed]

/-- A command that its class's counter takes is handed over; `g` is what its thread does then. -/
theorem handOver_of_issueTurn {cls : EngClass} {f : State → Nat → State} (h : issueTurn cls r s t f = some s1)
    (g : State → State) : s.handOver r t cls (fun s2 id => g (f s2 id)) = .ok (g s1) := by
  obtain ⟨room, h⟩ := Option.ite_none_left_eq_some.mp h
  obtain ⟨s2, release, done⟩ := Option.map_eq_some_iff.mp h
  cases done
  exact (if_neg room).trans (issue_of_issued release _)

end

/-! ## The transfer commands (R244, R248, R251) -/

theorem xeThread_gives {k : XeKind} {d a : Code} {b : BSrc} {r : Run} {s s' : State} {t : TRef}
    (h : xeTurn k d a b r s t = some s') : Gives (xeThread k d a b) d r s t s' := by
  unfold xeTurn at h
  unfold Gives xeThread
  dsimp only at h ⊢
  split at h
  next helper => exact ⟨_, _, if_pos helper, h⟩
  next live =>
  obtain ⟨passes, h⟩ := Option.ite_none_left_eq_some.mp h
  obtain ⟨may, aligned⟩ := not_or.mp passes
  rw [if_neg live, if_neg may, if_neg aligned]
  rcases read : s.issueRead r t ((s.env r t.cid).read64 (s.thread t) a) 96 with res | ⟨s1, bs⟩ <;> rw [read] at h
  case error => nomatch h
  case ok =>
  obtain ⟨sound, h⟩ := Option.ite_none_left_eq_some.mp h
  dsimp only
  rw [Option.not_isSome_iff_eq_none.mp sound]
  dsimp only
  cases before : s1.acceptedXe (s.crew t.cid).wid t.cid (XeDesc.parse bs).chan with
  | some v =>
    rw [before] at h
    obtain ⟨s2, release, given⟩ := Option.bind_eq_some_iff.mp h
    exact ⟨_, v, issue_of_issued release _, given⟩
  | none =>
    rw [before] at h
    obtain ⟨s3, handed, given⟩ := Option.bind_eq_some_iff.mp h
    exact ⟨s3, _, handOver_of_issueTurn handed fun x => x.updThread t fun y => y.write32 (s.env r t.cid) d
      (BitVec.ofNat 32 (x.chan (s.crew t.cid).wid (XeDesc.parse bs).chan).wend), given⟩

/-- Every command of `xeOf` goes thread by thread, pushing last. -/
theorem xeOf_lanes {i : Instr} {k : XeKind} {d a : Code} {b : BSrc} (h : xeOf i = some (k, d, a, b)) (s : State) :
    exec i s = s.lanes (thenPush (xeThread k d a b)) := by
  cases i with
  | xeCopy | xeRagged | xeBtab | xeGather | xeCbx | xeFill => cases h; rfl
  | _ => nomatch h

/-! ## The statement -/

/-- Settles O18: a transfer command goes thread by thread, and completes for a thread as its turn says. -/
theorem transferCommandsIssue : Obligations.TransferCommandsIssue := by
  unfold Obligations.TransferCommandsIssue
  intro i k d a b h s r s' hr turns
  exact (InTurns.thenPush (xeOf_lanes h) fun _ _ _ _ => xeThread_gives).next hr turns

end Sys2Proof.Proofs

/-!
PROOF. The words that hand commands to the other engines, or ask them (07 R205, 09 R252 to R266): what each does for one
thread is its turn, and O19 from the rule of a word thread by thread.
-/

namespace Sys2Proof.Proofs

open Sys2Proof Sys2Proof.Machine Sys2Proof.Safety Sys2Proof.Laws

/-! ## Fields of a register (R205, R252, R259) -/

theorem fieldNat_lutLog (ctl : Word) : fieldNat ctl 6 4 = ctl.toNat / 16 % 8 := by simp [fieldNat_eq]
theorem fieldNat_lutSlot (ctl : Word) : fieldNat ctl 1 0 = ctl.toNat % 4 := by simp [fieldNat_eq]
theorem rayFlags_bad (flags : Word) : fieldNat flags 31 3 ≠ 0 ↔ 8 ≤ flags.toNat := by
  have := flags.isLt
  rw [fieldNat_eq]
  omega
theorem streamSelector_bad (sel : Word) : fieldNat sel 31 9 ≠ 0 ↔ 512 ≤ sel.toNat := by
  have := sel.isLt
  rw [fieldNat_eq]
  omega
theorem fieldNat_streamNum (sel : Word) : fieldNat sel 7 0 = sel.toNat % 256 := by simp [fieldNat_eq]
theorem bit_transmit (sel : Word) : bit sel 8 = (sel.toNat / 256 % 2 == 1) := bit_eq_div sel 8
theorem beq_one_toNat (x : Word) : (x == 1) = (x.toNat == 1) := by
  rw [Bool.eq_iff_iff, beq_iff_eq, beq_iff_eq, ← BitVec.toNat_inj]
  rfl

section
variable {eff : Turn1} {a d : Code} {b : BSrc}

/-! ## Codebooks (R252) -/

theorem xeLut_inTurns (h : engineOf (.xeLut a b) = some eff) : InTurns (.xeLut a b) eff := by
  cases h
  refine ⟨_, fun _ => rfl, fun r s t s' h => ?_⟩
  unfold lutThread
  simp only [fieldNat_lutLog, fieldNat_lutSlot]
  dsimp only at h
  split at h
  next helper => exact (if_pos helper).trans (congrArg _ (Option.some.inj h))
  next live =>
    obtain ⟨passes, handed⟩ := Option.ite_none_left_eq_some.mp h
    obtain ⟨may, sound⟩ := not_or.mp passes
    rw [if_neg live, if_neg may, Option.not_isSome_iff_eq_none.mp sound]
    exact handOver_of_issueTurn handed id

/-! ## Sampling (R254 to R256) -/

theorem smpCfg_inTurns (h : engineOf (.smpCfg a) = some eff) : InTurns (.smpCfg a) eff := by
  cases h
  refine ⟨_, fun _ => rfl, fun r s t s' h => ?_⟩
  unfold smpCfgThread
  dsimp only at h ⊢
  split at h
  next helper => exact (if_pos helper).trans (congrArg _ (Option.some.inj h))
  next live =>
  obtain ⟨aligned, h⟩ := Option.ite_none_left_eq_some.mp h
  rw [if_neg live, if_neg aligned]
  rcases read : s.issueRead r t ((s.env r t.cid).read64 (s.thread t) a) 64 with res | ⟨s1, bs⟩ <;> rw [read] at h
  case error => nomatch h
  case ok =>
    obtain ⟨sound, h⟩ := Option.ite_none_left_eq_some.mp h
    obtain ⟨s2, release, done⟩ := Option.map_eq_some_iff.mp h
    cases done
    dsimp only
    rw [Option.not_isSome_iff_eq_none.mp sound]
    exact issue_of_issued release _

/-- A command on a context that has passed smp.cfg is handed over. -/
theorem smpIssue_of_issueTurn {r : Run} {s s1 : State} {t : TRef} {f : State → Nat → Nat → CtxRef → State}
    (passed : ¬(s.smpCtx? (s.smpKey t.cid ((s.env r t.cid).read64 (s.thread t) a))).isNone = true)
    (h : issueTurn .sampling r s t (fun s1 id => f s1 (s.smpKey t.cid ((s.env r t.cid).read64 (s.thread t) a)) id
      ⟨(s.crew t.cid).wid, (s.env r t.cid).read64 (s.thread t) a⟩) = some s1) : smpIssue a r s t f = .ok s1 :=
  (if_neg passed).trans (handOver_of_issueTurn h id)

theorem smpPush_inTurns (h : engineOf (.smpPush a b) = some eff) : InTurns (.smpPush a b) eff := by
  cases h
  refine ⟨_, fun _ => rfl, fun r s t s' h => ?_⟩
  dsimp only at h
  split at h
  next helper => exact (if_pos helper).trans (congrArg _ (Option.some.inj h))
  next live =>
    obtain ⟨passed, handed⟩ := Option.ite_none_left_eq_some.mp h
    exact (if_neg live).trans (smpIssue_of_issueTurn passed handed)

theorem smpDraw_inTurns (h : engineOf (.smpDraw d a) = some eff) : InTurns (.smpDraw d a) eff := by
  cases h
  refine ⟨_, fun _ => rfl, fun r s t s' h => ?_⟩
  dsimp only at h
  split at h
  next helper => exact (if_pos helper).trans (congrArg _ (Option.some.inj h))
  next live =>
    obtain ⟨passed, handed⟩ := Option.ite_none_left_eq_some.mp h
    exact (if_neg live).trans (smpIssue_of_issueTurn passed handed)

/-! ## Traversal (R259, R261, R262) -/

theorem rtTrace_inTurns (h : engineOf (.rtTrace d a b) = some eff) : InTurns (.rtTrace d a b) eff := by
  cases h
  refine ⟨_, fun _ => rfl, fun r s t s' h => ?_⟩
  unfold rtTraceThread
  simp only [rayFlags_bad]
  dsimp only at h
  split at h
  next helper => exact (if_pos helper).trans (congrArg _ (Option.some.inj h))
  next live =>
  rw [if_neg live]
  split at h
  next scene q bound hit =>
    obtain ⟨passes, handed⟩ := Option.ite_none_left_eq_some.mp h
    obtain ⟨sound, room⟩ := not_or.mp passes
    rw [bound, hit]
    dsimp only
    rw [if_neg sound, if_neg room]
    exact handOver_of_issueTurn handed id
  next => nomatch h

theorem rtCont_inTurns (h : engineOf (.rtCont b) = some eff) : InTurns (.rtCont b) eff := by
  cases h
  refine ⟨_, fun _ => rfl, fun r s t s' h => ?_⟩
  unfold rtContThread
  simp only [beq_one_toNat]
  dsimp only at h
  split at h
  next helper => exact (if_pos helper).trans (congrArg _ (Option.some.inj h))
  next live =>
  rw [if_neg live]
  split at h
  next id rest cands =>
    obtain ⟨answer, h⟩ := Option.ite_none_left_eq_some.mp h
    obtain ⟨s1, release, done⟩ := Option.map_eq_some_iff.mp h
    cases done
    rw [cands]
    exact (if_neg answer).trans (issue_of_issued release _)
  next => nomatch h

theorem rtPop_inTurns (h : engineOf (.rtPop d a) = some eff) : InTurns (.rtPop d a) eff := by
  cases h
  refine ⟨_, fun _ => rfl, fun r s t s' h => ?_⟩
  unfold rtPopThread
  dsimp only at h ⊢
  split at h
  next helper => exact (if_pos helper).trans (congrArg _ (Option.some.inj h))
  next live =>
  rw [if_neg live]
  split at h
  next s1 ws pops => rw [pops]; exact congrArg _ (Option.some.inj h)
  next => nomatch h

/-! ## Collectives (R263, R264) -/

theorem collReady_inTurns (h : engineOf (.collReady a b) = some eff) : InTurns (.collReady a b) eff := by
  cases h
  refine ⟨_, fun _ => rfl, fun r s t s' h => ?_⟩
  unfold collReadyThread
  dsimp only at h ⊢
  generalize (s.env r t.cid).read64 (s.thread t) a = p at h ⊢
  generalize ((s.env r t.cid).readB (s.thread t) b).toNat = i at h ⊢
  split at h
  next helper => exact (if_pos helper).trans (congrArg _ (Option.some.inj h))
  next live =>
  obtain ⟨installed, h⟩ := Option.ite_none_left_eq_some.mp h
  rw [if_neg live, if_neg installed]
  split at h
  next before =>
    obtain ⟨s1, release, done⟩ := Option.map_eq_some_iff.mp h
    cases done
    exact (if_pos before).trans (issue_of_issued release _)
  next new =>
  obtain ⟨idle, h⟩ := Option.ite_none_left_eq_some.mp h
  rw [if_neg new, if_neg idle]
  rcases read : s.issueRead r t (ptrAdd p (64 * i)) 64 with res | ⟨s0, bs⟩ <;> rw [read] at h
  case error => nomatch h
  case ok =>
  dsimp only at h ⊢
  cases writable : engCan (s.crew t.cid).wid (ptrAdd p (64 * i + 40)) 4 0 s0 with
  | ok s1 _ =>
    rw [writable] at h
    exact handOver_of_issueTurn h id
  | _ =>
    rw [writable] at h
    nomatch h

/-- coll.wait, once the entry is complete, gives its status; DONE acquires (R264, R312). -/
theorem collWaitThread_gives {r : Run} {s s' : State} {t : TRef} {eff : Turn1}
    (h : engineOf (.collWait d a b) = some eff) (turn : eff r s t = some s') :
    Gives (collWaitThread d a b) d r s t s' := by
  cases h
  unfold Gives collWaitThread
  dsimp only at turn ⊢
  split at turn
  next helper => exact ⟨s, 0, by simp [helper], turn⟩
  next live =>
    obtain ⟨passes, given⟩ := Option.ite_none_left_eq_some.mp turn
    obtain ⟨installed, complete⟩ := not_or.mp passes
    refine ⟨_, _, ?_, given⟩
    rw [if_neg live, if_neg installed, if_neg complete]
    simp only [live, Bool.false_eq_true, not_false_eq_true, and_true]

/-! ## Ropes (R265, R266) -/

theorem ropeArriveThread_gives {r : Run} {s s' : State} {t : TRef} {eff : Turn1}
    (h : engineOf (.ropeArrive d a b) = some eff) (turn : eff r s t = some s') :
    Gives (ropeArriveThread d a b) d r s t s' := by
  cases h
  unfold Gives ropeArriveThread
  dsimp only at turn ⊢
  split at turn
  next helper => exact ⟨_, _, if_pos helper, turn⟩
  next live =>
  obtain ⟨named, turn⟩ := Option.ite_none_left_eq_some.mp turn
  rw [if_neg live, if_neg named]
  split at turn
  next arrives =>
    obtain ⟨s2, handed, given⟩ := Option.bind_eq_some_iff.mp turn
    exact ⟨s2, _, (if_pos arrives).trans (handOver_of_issueTurn handed fun x =>
      x.updThread t fun y => y.write32 (s.env r t.cid) d 0), given⟩
  next late =>
    obtain ⟨s1, release, given⟩ := Option.bind_eq_some_iff.mp turn
    rw [late]
    exact ⟨_, _, (if_neg one_ne_zero).trans (issue_of_issued release _), given⟩
  next v arrives late =>
    obtain ⟨s1, release, given⟩ := Option.bind_eq_some_iff.mp turn
    exact ⟨s1, _, by rw [if_neg arrives, issue_of_issued release, if_neg late], given⟩

theorem ropeStatus_inTurns (h : engineOf (.ropeStatus d a b) = some eff) : InTurns (.ropeStatus d a b) eff := by
  cases h
  refine ⟨_, fun _ => rfl, fun r s t s' h => ?_⟩
  unfold ropeStatusThread
  dsimp only at h ⊢
  split at h
  next helper => exact (if_pos helper).trans (congrArg _ (Option.some.inj h))
  next live =>
  obtain ⟨named, h⟩ := Option.ite_none_left_eq_some.mp h
  rw [if_neg live, if_neg named]
  generalize s.ropeStatus _ _ = value at h ⊢
  cases value <;> exact congrArg _ (Option.some.inj h)

/-! ## Streams (R205) -/

theorem srd_inTurns (h : engineOf (.srd d a b) = some eff) : InTurns (.srd d a b) eff := by
  cases h
  refine .afterPops (fun _ => rfl) fun r s t s' h => ?_
  unfold srdThread
  simp only [streamSelector_bad, bit_transmit, fieldNat_streamNum, Bool.not_eq_true]
  dsimp only at h
  obtain ⟨sound, h⟩ := Option.ite_none_left_eq_some.mp h
  rw [if_neg sound]
  generalize s.srdValue _ _ _ = value at h ⊢
  cases value <;> exact congrArg _ (Option.some.inj h)

end

/-! ## The statement -/

/-- Every word of `engineOf` but coll.wait goes thread by thread, each by its own turn. -/
theorem engineOf_inTurns {i : Instr} {eff : Turn1} (h : engineOf i = some eff) (once : ∀ d a b, i ≠ .collWait d a b) :
    InTurns i eff := by
  cases i with
  | xeLut => exact xeLut_inTurns h
  | smpCfg => exact smpCfg_inTurns h
  | smpPush => exact smpPush_inTurns h
  | smpDraw => exact smpDraw_inTurns h
  | rtTrace => exact rtTrace_inTurns h
  | rtCont => exact rtCont_inTurns h
  | rtPop => exact rtPop_inTurns h
  | collReady => exact collReady_inTurns h
  | collWait d a b => exact absurd rfl (once d a b)
  | ropeArrive => exact .thenPush (fun _ => rfl) fun _ _ _ _ => ropeArriveThread_gives h
  | ropeStatus => exact ropeStatus_inTurns h
  | srd => exact srd_inTurns h
  | _ => nomatch h

/-- Settles O19: each word goes thread by thread, and completes for a thread as its turn says; coll.wait is tried by
every thread at once. -/
theorem engineWordsIssue : Obligations.EngineWordsIssue := by
  unfold Obligations.EngineWordsIssue
  intro i eff h s r s' hr turns
  by_cases waits : ∃ d a b, i = .collWait d a b
  case pos =>
    obtain ⟨d, a, b, rfl⟩ := waits
    exact lanesAll_inTurn hr (fun _ _ _ turn => (collWaitThread_gives h turn).thenPush) turns
  case neg => exact (engineOf_inTurns h fun d a b e => waits ⟨d, a, b, e⟩).next hr turns

end Sys2Proof.Proofs

/-!
PROOF. The sampling unit's events (09 R242, R255 to R257, 13 R349), and O36.
-/

namespace Sys2Proof.Proofs

open Sys2Proof Sys2Proof.Machine Sys2Proof.Safety Sys2Proof.Laws

section
variable {s : State} {c : SmpCtx} {id : Nat}

/-- An operation of which no page has failed for good has lost none. -/
theorem isLost_eq_false (h : ∀ x ∈ c.lost, x.1 ≠ id) (p : DWord → Bool) : c.isLost id p = false :=
  List.any_eq_false.mpr fun x hx => by simp [h x hx]

/-- An operation that waits for no page goes on. -/
theorem smpTurn_eq (free : s.engFree id = true) (sound : (s.eng id).failed = none) (f : State) :
    s.smpTurn c id f = f :=
  (if_neg (not_not.mpr free)).trans (if_neg (by simp [sound]))

/-- An operation ends once the unit can write its context's fields (R253, R349). -/
theorem smpWhenReady_eq {a : CtxRef} (kept : ∀ x ∈ c.lost, x.1 ≠ id) (can : s.smpCan a = .ok) (f : State → State) :
    s.smpWhenReady c id a f = f s := by
  rw [State.smpWhenReady, isLost_eq_false kept, if_neg Bool.false_ne_true, can]

/-- A push that has read its logits ends (R242, R255). -/
theorem smpPushCompletion_next {cid : Nat} {a : CtxRef} {addr : DWord} {s1 : State} {bs : List Byte}
    (found : s.smpOf id = some c) (turn : SmpCtx.nextPush c.full c.work = some (.push id cid a addr))
    (free : s.engFree id = true) (sound : (s.eng id).failed = none) (kept : ∀ x ∈ c.lost, x.1 ≠ id)
    (aligned : c.cfg.total - c.logits.length = 0 ∨ ptrOff addr % 4 = 0)
    (read : s.engRead a.wid addr (4 * (c.cfg.total - c.logits.length)) = .ok s1 bs) (can : s1.smpCan a = .ok) :
    exec (.smpPushCompletion id) s = .next (s1.endPush c id cid a addr (bytesWords bs) false) := by
  have whole : ¬((c.cfg.total - c.logits.length ≠ 0 ∧ ptrOff addr % 4 ≠ 0) ∨
      c.isLost id (fun p => p != ptrAdd a.ptr 56) = true) := by
    rw [isLost_eq_false kept, or_iff_left Bool.false_ne_true]
    exact fun h => aligned.elim h.1 h.2
  change execSmpPushCompletion id s = _
  unfold execSmpPushCompletion
  simp only [found, turn]
  rw [if_neg (not_not.mpr rfl), smpTurn_eq free sound, if_neg whole, read]
  exact congrArg _ (smpWhenReady_eq kept can _)

/-- A draw is evaluated and lands (R256, R257). -/
theorem smpDrawEvaluate_next {t : TRef} {a : CtxRef} {s1 s2 : State} {ctx : List Byte} {w : Word}
    (found : s.smpOf id = some c) (turn : c.nextDraw = some (id, t, a)) (free : s.engFree id = true)
    (sound : (s.eng id).failed = none) (kept : ∀ x ∈ c.lost, x.1 ≠ id) (received : c.failed = false)
    (read : s.engRead a.wid a.ptr 20 = .ok s1 ctx) (value : s1.evalDraw a.wid c ctx = .ok s2 w)
    (can : s2.smpCan a = .ok) : exec (.smpDrawEvaluate id) s = .next (s2.endDraw c id t a w) := by
  change execSmpDrawEvaluate id s = _
  unfold execSmpDrawEvaluate
  simp only [found, turn]
  rw [if_neg (not_not.mpr rfl), smpTurn_eq free sound]
  simp only [received, isLost_eq_false kept, Bool.false_eq_true, or_self, if_false, read, value]
  exact congrArg _ (smpWhenReady_eq kept can _)

end

/-! ## The statement -/

/-- Settles O36: neither the operation's pages nor its context's fields hold the unit up. -/
theorem samplingEvents : Obligations.SamplingEvents := by
  unfold Obligations.SamplingEvents
  refine ⟨fun id s c cid a addr s1 bs found turn free sound kept aligned read can => ?push,
    fun id s c t a s1 ctx s2 w found turn free sound kept received read value can => ?draw⟩
  case push => exact smpPushCompletion_next found turn free sound kept aligned read can
  case draw => exact smpDrawEvaluate_next found turn free sound kept received read value can

end Sys2Proof.Proofs

/-!
PROOF. The traversal unit's events (09 R258 to R262, 13 R356), and O37.
-/

namespace Sys2Proof.Proofs

open Sys2Proof Sys2Proof.Machine Sys2Proof.Safety Sys2Proof.Laws

section
variable {s : State} {c ray : Nat} {y : Ray}
variable (found : (s.rays.find? fun y => y.id == ray && s.crewCol y.cid == c) = some y)
variable (ungated : (s.col c).gated = false) (powered : (s.col c).powered = true)

include ungated powered in
/-- A column that runs serves a ray in its phase, where nothing else holds that up. -/
theorem ray_served {phase : RayPhase} {go : Bool} (here : y.phase = phase) (ready : go = true) :
    ¬(y.phase ≠ phase ∨ (s.col c).gated = true ∨ ¬(s.col c).powered = true ∨ ¬go = true) := by
  simp [here, ungated, powered, ready]

include found ungated powered

/-- A ray is tested against its scene (R258, R260). -/
theorem rayTraversal_next {g : RayGeo} {s1 : State} {hits : List TriHit} (traced : y.phase = .traced)
    (free : s.engFree ray = true) (geo : rayGeo y.regs = some g) (sound : (s.eng ray).failed = none)
    (scene : s.sceneHits (s.crew y.cid).wid y.scene g = .ok s1 hits) :
    exec (.rayTraversal c ray) s = .next ((s1.updRay ray
      (Ray.evaluated (rayResult y g hits).1 (rayResult y g hits).2)).dropEng ray) := by
  change execRayTraversal c ray s = _
  unfold execRayTraversal
  simp only [found, if_neg (ray_served ungated powered traced free), geo, sound, scene]

variable (sending : y.phase = .sending) (first : s.firstRay y = true)
include sending first

/-- A candidate is offered to the thread, which answers it (R260, R262, R356). -/
theorem hitRecord_candidate {w : List Word} {ws : List (List Word)} (cands : y.cands = w :: ws)
    (unfaulted : (s.wg (s.crew y.cid).wid).fault = none) :
    exec (.hitRecord c ray) s = .next ((s.updRay ray fun z =>
      { z with phase := .waiting, cands := ws, offered := some w }).putRecord y w false) := by
  change execHitRecord c ray s = _
  unfold execHitRecord
  simp only [found, if_neg (ray_served ungated powered sending first), cands, unfaulted, Option.isSome_none,
    Bool.false_eq_true, if_false]

/-- After the last candidate the ray ends with what was accepted, or with its final record (R261). -/
theorem hitRecord_final (cands : y.cands = []) :
    exec (.hitRecord c ray) s = .next (((s.updRay ray fun z => { z with phase := .done }).putRecord y
      (y.accepted.getD y.final) true).completeOp y.cid ray) := by
  change execHitRecord c ray s = _
  unfold execHitRecord
  simp only [found, if_neg (ray_served ungated powered sending first), cands]

end

/-! ## The statement -/

/-- Settles O37: the ray's column runs, and the ray is the one that the unit serves. -/
theorem traversalEvents : Obligations.TraversalEvents := by
  unfold Obligations.TraversalEvents
  refine ⟨fun c ray s y g s1 hits found traced ungated powered free geo sound scene => ?traversal,
    fun c ray s y found sending ungated powered first => ⟨fun w ws cands unfaulted => ?candidate, fun cands => ?final⟩⟩
  case traversal => exact rayTraversal_next found ungated powered traced free geo sound scene
  case candidate => exact hitRecord_candidate found ungated powered sending first cands unfaulted
  case final => exact hitRecord_final found ungated powered sending first cands

end Sys2Proof.Proofs

/-!
PROOF. The page commands (R276, 13 R352, R353) and the split of a column's scratchpad (R285), and O40.
-/

namespace Sys2Proof.Proofs

open Sys2Proof Sys2Proof.Machine Sys2Proof.Safety Sys2Proof.Laws

/-! ## What a port's staged half leaves of the page state (R417) -/

section
variable (p : Port) (s : State)

@[simp] theorem unstage_pg (q : Port) : (s.unstage p).pg q = s.pg q := by cases p <;> cases q <;> rfl
@[simp] theorem unstage_genOf (n : Nat) : (s.unstage p).genOf n = s.genOf n := by cases p <;> rfl
@[simp] theorem unstage_pending : (s.unstage p).pending = s.pending := by cases p <;> rfl
@[simp] theorem unstage_held : (s.unstage p).held = s.held := by cases p <;> rfl
@[simp] theorem unstage_timeNs : (s.unstage p).timeNs = s.timeNs := by cases p <;> rfl
@[simp] theorem unstage_tlb : (s.unstage p).tlb = s.tlb := by cases p <;> rfl
@[simp] theorem unstage_columns : (s.unstage p).columns = s.columns := by cases p <;> rfl

variable (f : PageCmd → PageCmd)

@[simp] theorem pg_updPg : (s.updPg p f).pg p = f (s.pg p) := by cases p <;> rfl
@[simp] theorem updPg_held : (s.updPg p f).held = s.held := by cases p <;> rfl
@[simp] theorem updPg_pending : (s.updPg p f).pending = s.pending := by cases p <;> rfl

end

/-! ## Generations compared (R6, R353) -/

/-- A difference of generations below half of their range is not negative. -/
theorem msb_of_lt_half {d : Word} (h : d.toNat < 2 ^ 31) : d.msb = false := by
  simpa [BitVec.msb_eq_decide] using h
/-- A difference of generations from half of their range on is negative. -/
theorem msb_of_half_le {d : Word} (h : 2 ^ 31 ≤ d.toNat) : d.msb = true := by
  simpa [BitVec.msb_eq_decide] using h

/-! ## GO (R352) -/

section
variable {p : Port} {s : State}

theorem go_publish (command : fieldNat (s.pg p).r0 15 8 = 1) (idle : (s.pg p).busy = false) :
    s.go p p = s.publish p := by
  simp [State.go, command, idle]
theorem go_replay (command : fieldNat (s.pg p).r0 15 8 = 2) (idle : (s.pg p).busy = false) :
    s.go p p = s.replay p := by
  simp [State.go, command, idle]

/-- A port's GO of a set that holds PUBLISH and is not busy. -/
theorem publish_go (live : s.barLive p = true) (command : fieldNat (s.pg p).r0 15 8 = 1)
    (idle : (s.pg p).busy = false) : exec (.publish p) s = .next ((s.unstage p).publish p) := by
  change execPublish p s = _
  rw [execPublish, if_pos ⟨live, command⟩, go_publish (by simpa using command) (by simpa using idle)]
/-- A port's GO of a set that holds REPLAY and is not busy. -/
theorem replay_go (live : s.barLive p = true) (command : fieldNat (s.pg p).r0 15 8 = 2)
    (idle : (s.pg p).busy = false) : exec (.replay p) s = .next ((s.unstage p).replay p) := by
  change execReplay p s = _
  rw [execReplay, if_pos ⟨live, command⟩, go_replay (by simpa using command) (by simpa using idle)]

end

/-! ## PUBLISH (R276, R353) -/

/-- A state in which neither a translation of a range nor a line that one found is cached. -/
def forgotten (s : State) (n lo hi : Nat) : State :=
  { s with tlb := s.tlb.filter fun t => !(t.ctx == n && t.overlaps lo hi)
           columns := s.columns.map (Column.forget n lo hi) }

/-- A later generation is taken over, once the range is forgotten. -/
theorem publish_later {p : Port} {s : State}
    (new : bits (s.pg p).r0 63 32 ≠ s.genOf (fieldNat (s.pg p).r0 7 0))
    (later : (bits (s.pg p).r0 63 32 - s.genOf (fieldNat (s.pg p).r0 7 0)).toNat < 2 ^ 31) :
    let n := fieldNat (s.pg p).r0 7 0
    let lo := fieldNat (s.pg p).r1 59 0
    let hi := fieldNat (s.pg p).r2 59 0
    s.publish p = (((forgotten s n lo hi).setGen n (bits (s.pg p).r0 63 32)).remapStash fun y =>
      iaIn n lo hi y.ia).runHeld :=
  if_neg (not_or.mpr ⟨sub_ne_zero.mpr new, by simp [msb_of_lt_half later]⟩)
/-- A generation that is not later is an error. -/
theorem publish_stale {p : Port} {s : State}
    (old : bits (s.pg p).r0 63 32 = s.genOf (fieldNat (s.pg p).r0 7 0) ∨
      2 ^ 31 ≤ (bits (s.pg p).r0 63 32 - s.genOf (fieldNat (s.pg p).r0 7 0)).toNat) :
    s.publish p = s.updPg p fun y => { y with err := true } :=
  if_pos (old.imp sub_eq_zero.mpr msb_of_half_le)

/-! ## REPLAY (R353) -/

section
variable {s : State} {id : Nat} {g : Word} {fail : Bool}

theorem tryReplay_unknown (unknown : (s.pending.any fun e => e.id == id) = false) :
    s.tryReplay id g fail = some (s.replayReport 0x4a id) := by
  have missed : s.pending.find? (fun e => e.id == id) = none := by simpa using unknown
  simp [State.tryReplay, missed]

variable {e : FaultEntry} (found : s.pending.find? (fun e => e.id == id) = some e)
include found

/-- An entry that is found is among the pending ones. -/
theorem pending_any : (s.pending.any fun e => e.id == id) = true := by
  have numbered := List.find?_some found
  exact List.any_eq_true.mpr ⟨e, List.mem_of_find?_eq_some found, numbered⟩

theorem tryReplay_reached (reached : (s.genOf e.ctx - g).toNat < 2 ^ 31) :
    s.tryReplay id g fail = some (s.closeEntry e fail) := by
  simp [State.tryReplay, found, msb_of_lt_half reached]
theorem tryReplay_early (early : 2 ^ 31 ≤ (s.genOf e.ctx - g).toNat)
    (room : (s.held.filter fun h => h.pair == e.unit % 8).length < 64) :
    s.tryReplay id g fail = some { s with held := s.held ++ [⟨id, g, fail, s.timeNs, e.unit % 8⟩] } := by
  simp [State.tryReplay, found, msb_of_half_le early, Nat.not_le.mpr room]
theorem tryReplay_full (early : 2 ^ 31 ≤ (s.genOf e.ctx - g).toNat)
    (full : 64 ≤ (s.held.filter fun h => h.pair == e.unit % 8).length) : s.tryReplay id g fail = none := by
  simp [State.tryReplay, found, msb_of_half_le early, full]

end

section
variable {p : Port} {s : State}

/-- A replay of a known entry that finds its generation reached or room in its hold list. -/
theorem replay_taken {s1 : State} (known : (s.pending.any fun e => e.id == fieldNat (s.pg p).r1 31 0) = true)
    (taken : s.tryReplay (fieldNat (s.pg p).r1 31 0) (bits (s.pg p).r0 63 32) ((s.pg p).r1.getLsbD 32) = some s1) :
    s.replay p = s1.updPg p fun y => y := by
  have taken : s.tryReplay _ _ (bit (s.pg p).r1 32) = some s1 := taken
  simp only [State.replay, taken, known, Bool.not_true, Bool.or_false]
/-- A replay of an unknown entry is an error. -/
theorem replay_unknown (unknown : (s.pending.any fun e => e.id == fieldNat (s.pg p).r1 31 0) = false) :
    s.replay p = (s.replayReport 0x4a (fieldNat (s.pg p).r1 31 0)).updPg p fun y => { y with err := true } := by
  simp only [State.replay, tryReplay_unknown unknown, unknown, Bool.not_false, Bool.or_true]
/-- A replay without room keeps its register set busy. -/
theorem replay_waits
    (full : s.tryReplay (fieldNat (s.pg p).r1 31 0) (bits (s.pg p).r0 63 32) ((s.pg p).r1.getLsbD 32) = none) :
    s.replay p = s.updPg p fun y => { y with
      busy := true
      pending := some (fieldNat (s.pg p).r1 31 0, bits (s.pg p).r0 63 32, (s.pg p).r1.getLsbD 32) } := by
  have full : s.tryReplay _ _ (bit (s.pg p).r1 32) = none := full
  simp only [State.replay, full]; rfl

end

/-- A replay that has been held too long leaves its list with a report. -/
theorem replayStale_reports {id : Nat} {h : HeldReplay} {s : State}
    (found : s.held.find? (fun h => h.id == id && decide (h.since + 1000000 ≤ s.timeNs)) = some h) :
    exec (.replayStale id) s = .next
      (((({ s with held := s.held.erase h }.replayReport 0x4c h.id).admitPending .a)).admitPending .b) := by
  change execReplayStale id s = _
  simp only [execReplayStale, found]; rfl

/-! ## POOL_SPLIT (R285) -/

/-- An update of a column changes that column only. -/
theorem updCol_eq_const (s : State) {c : Nat} (f : Column → Column) (hc : c < 96) :
    s.updCol c f = s.updCol c fun _ => (s.updCol c f).col c := by
  rw [col_updCol s c f hc]; rfl

section
variable {p : Port} {s : State} {c : Nat}

theorem poolSplit_write (v : Word) (live : s.barLive p = true) (hc : c < 96) :
    exec (.poolSplit c ⟨p, v⟩) s = .next ((s.unstage p).putSplit c v.toNat) :=
  (hostWrite_live live fun s1 => if c < 96 then s1.putSplit c v.toNat else s1).trans (congrArg _ (if_pos hc))
theorem putSplit_takes {v : Nat} (idle : (s.col c).poolBusy = false) (valid : v % 16 ≤ 8) :
    s.putSplit c v = s.updCol c fun y =>
      { y with poolTarget := v % 16, poolBusy := decide (v % 16 ≠ y.poolCurrent) } :=
  if_neg (by simp [idle, valid])
theorem putSplit_ignores {v : Nat} (h : (s.col c).poolBusy = true ∨ 8 < v % 16) : s.putSplit c v = s := if_pos h

end

/-! ## POOL_SPLIT_COMPLETE (R285) -/

/-- A key lies in the bytes from `lo` to `hi` of a column's scratchpad. -/
def inWays (c lo hi k : Nat) : Bool := keyRegion k == regScratch c && decide (lo ≤ keyOff k ∧ keyOff k < hi)

/-- Bytes that are no longer listed read as zero, and the others as before. -/
theorem memGet_filter_not (gone : Nat → Bool) (m : List Host.Cell) (k : Nat) :
    memGet (m.filter fun x => !gone x.1) k = if gone k then 0 else memGet m k := by
  induction m with
  | nil => simp [memGet, memDefault]
  | cons x m ih =>
    obtain ⟨a, b⟩ := x
    obtain rfl | ne := eq_or_ne a k
    · cases h : gone a <;> simp_all [memGet]
    · cases h : gone a <;> simp [memGet, h, ih, ne]

/-- A column whose split has taken its target. -/
def splitDone (x : Column) : Column := { x with poolCurrent := x.poolTarget, poolBusy := false }

section
variable {s : State} {c lo hi : Nat} (busy : (s.col c).poolBusy = true)
variable (first : min (s.col c).poolCurrent (s.col c).poolTarget * 524288 = lo)
variable (last : max (s.col c).poolCurrent (s.col c).poolTarget * 524288 = hi)
variable (quiet : s.transferInto c lo hi = false)
include busy first last quiet

/-- The bytes of the ways that change role are cleared, and the device cache keeps to the ways that it has left. -/
theorem finishSplit_completes : s.finishSplit c = { s.updCol c splitDone with
    dcache := dcTrim c ((s.updCol c splitDone).col c).dcLines s.dcache.length s.dcache
    mem := s.mem.filter fun x => !inWays c lo hi x.1 } := by
  subst first last
  exact if_neg (by simp [busy, quiet])
theorem col_finishSplit (hc : c < 96) : (s.finishSplit c).col c = splitDone (s.col c) := by
  rw [finishSplit_completes busy first last quiet]
  exact col_updCol s c splitDone hc
/-- A completed split changes its column, memory and the device cache only. -/
theorem finishSplit_eq_updCol (hc : c < 96) :
    s.finishSplit c = { s.updCol c (fun _ => (s.finishSplit c).col c) with
      mem := (s.finishSplit c).mem, dcache := (s.finishSplit c).dcache } := by
  rw [col_finishSplit busy first last quiet hc, finishSplit_completes busy first last quiet]; rfl
/-- The bytes of the ways that change role read as zero. -/
theorem memGet_finishSplit (k : Nat) : memGet (s.finishSplit c).mem k =
    if keyRegion k = regScratch c ∧ lo ≤ keyOff k ∧ keyOff k < hi then 0 else memGet s.mem k := by
  rw [finishSplit_completes busy first last quiet]
  exact (memGet_filter_not (inWays c lo hi) s.mem k).trans (by simp [inWays])

end

/-! ## The statement -/

/-- Settles O40: each command is taken as its register set or its column stands, apart from the staged half. -/
theorem pageCommandsAndSplit : Obligations.PageCommandsAndSplit := by
  unfold Obligations.PageCommandsAndSplit
  refine ⟨fun p s live command idle => ⟨fun new later => ?later, fun old => ?stale⟩,
    fun p s live command idle => ⟨fun unknown => ?unknown, fun e found =>
      ⟨fun reached => ?reached, fun early room => ?early, fun early full => ?full⟩⟩,
    fun id h s found => replayStale_reports found,
    fun p c v s live hc => ⟨fun idle valid => ?takes, fun h => ?ignores⟩,
    fun c s hc busy quiet => ?completes⟩
  case later =>
    rw [publish_go live command idle, publish_later (by simpa using new) (by simpa using later)]
    simp [forgotten]
  case stale => rw [publish_go live command idle, publish_stale (by simpa using old)]
  case unknown => rw [replay_go live command idle, replay_unknown (by simpa using unknown), unstage_pg]
  case reached =>
    refine ⟨_, replay_go live command idle, ?_⟩
    rw [replay_taken (pending_any (by simpa using found)) (tryReplay_reached (by simpa using found)
      (by simpa using reached)), unstage_pg]
  case early =>
    refine ⟨_, replay_go live command idle, ?_⟩
    rw [replay_taken (pending_any (by simpa using found)) (tryReplay_early (by simpa using found)
      (by simpa using early) (by simpa using room))]
    simp
  case full =>
    refine ⟨_, replay_go live command idle, ?_⟩
    rw [replay_waits (tryReplay_full (by simpa using found) (by simpa using early) (by simpa using full))]
    simp
  case takes =>
    refine ⟨_, poolSplit_write v live hc, ?_⟩
    rw [putSplit_takes (by simpa using idle) valid]
    refine ⟨updCol_eq_const _ _ hc, ?_⟩
    simp [col_updCol _ _ _ hc]
  case ignores => rw [poolSplit_write v live hc, putSplit_ignores (by simpa using h)]
  case completes =>
    have column := col_finishSplit busy rfl rfl quiet hc
    exact ⟨_, rfl, finishSplit_eq_updCol busy rfl rfl quiet hc, congrArg Column.poolCurrent column,
      congrArg Column.poolBusy column, memGet_finishSplit busy rfl rfl quiet⟩

end Sys2Proof.Proofs

/-! PROOF. 17 R419, R421: the operations of a Curd program that compute, and the ends of its run. -/

namespace Sys2Proof.Proofs

open Sys2Proof Sys2Proof.Machine Sys2Proof.Safety Sys2Proof.Laws

/-! ## The memory at reset -/

/-- Settles O58. -/
theorem resetMemoryOk : Obligations.ResetMemoryOk := ⟨rfl, rfl⟩

/-! ## Arithmetic of a queue's registers (R419) -/

section
variable (x y : DWord)

theorem ldh_eq_ofNat (i : BitVec 16) :
    (x <<< 16) ||| i.setWidth 64 = BitVec.ofNat 64 (x.toNat * 65536 + i.toNat) := by
  apply BitVec.eq_of_toNat_eq
  have hi := i.isLt
  have hx := x.isLt
  simp only [BitVec.toNat_or, BitVec.toNat_shiftLeft, BitVec.toNat_setWidth, BitVec.toNat_ofNat, Nat.shiftLeft_eq]
  have small : i.toNat % 2 ^ 64 = i.toNat := Nat.mod_eq_of_lt (by omega)
  have split : x.toNat * 2 ^ 16 % 2 ^ 64 = (x.toNat % 2 ^ 48) <<< 16 := by
    rw [Nat.shiftLeft_eq]
    omega
  rw [small, split, ← Nat.shiftLeft_add_eq_or_of_lt hi, Nat.shiftLeft_eq]
  omega
theorem addi_eq_ofInt (i : BitVec 16) : x + i.signExtend 64 = BitVec.ofInt 64 (x.toNat + i.toInt) := by
  simp [BitVec.ofInt_add, BitVec.signExtend]
theorem shl_eq_ofNat (n : Nat) : x <<< n = BitVec.ofNat 64 (x.toNat * 2 ^ n) := by
  rw [shiftLeft_eq_mul, BitVec.ofNat_mul, BitVec.ofNat_toNat, BitVec.setWidth_eq]
theorem shr_eq_ofNat (n : Nat) : x >>> n = BitVec.ofNat 64 (x.toNat / 2 ^ n) := by
  apply BitVec.eq_of_toNat_eq
  rw [BitVec.toNat_ushiftRight, Nat.shiftRight_eq_div_pow, BitVec.toNat_ofNat,
    Nat.mod_eq_of_lt (lt_of_le_of_lt (Nat.div_le_self ..) x.isLt)]
theorem add_eq_ofNat : x + y = BitVec.ofNat 64 (x.toNat + y.toNat) := by
  rw [BitVec.ofNat_add, BitVec.ofNat_toNat, BitVec.ofNat_toNat, BitVec.setWidth_eq, BitVec.setWidth_eq]
theorem toNat_eq_zero_iff : x.toNat = 0 ↔ x = 0 := (BitVec.toNat_inj (y := 0#64))
theorem dec_eq_ofNat (h : x.toNat ≠ 0) : x - 1 = BitVec.ofNat 64 (x.toNat - 1) := by
  apply BitVec.eq_of_toNat_eq
  have hx := x.isLt
  have one : (1 : DWord).toNat = 1 := rfl
  simp only [BitVec.toNat_sub, BitVec.toNat_ofNat, one]
  omega
/-- R414: one semaphore value is at or past another when their difference is below 2^63. -/
theorem serialGe_iff : serialGe x y = true ↔ (x.toNat + 2 ^ 64 - y.toNat) % 2 ^ 64 < 2 ^ 63 := by
  have hx := x.isLt
  have hy := y.isLt
  simp only [serialGe, BitVec.msb_eq_decide, BitVec.toNat_sub]
  simp
  omega

end

/-! ## The operations -/

section
variable {s t : State} {q : Nat} {r : CurdRun} (h : s.turn = .curd q) (hr : (s.queue q).run = some r)
include h hr

theorem curdImm_eq (a : BitVec 4) (f : DWord → DWord) :
    s.curdImm a f = .next (curdWent (curdSet s q a (f ((s.queue q).reg a))) q r (r.index + 1)) :=
  curdOp_eq h hr _
theorem curdAlu_eq (a b : BitVec 4) (f : DWord → DWord → DWord) :
    s.curdAlu a b f =
      .next (curdWent (curdSet s q a (f ((s.queue q).reg a) ((s.queue q).reg b))) q r (r.index + 1)) :=
  curdOp_eq h hr _

/-- An operation that writes one register from the registers and a constant. -/
theorem exec_of_curdValue {i : Instr} {y : BitVec 4 × DWord} (hv : curdValue s (s.queue q) r i = some y) :
    exec i s = .next (curdWent (curdSet s q y.1 y.2) q r (r.index + 1)) := by
  unfold curdValue at hv
  split at hv
  case h_1 a n => cases hv; rw [BitVec.ofNat_toNat]; exact curdImm_eq h hr a fun _ => n.setWidth 64
  case h_2 a n => cases hv; rw [← ldh_eq_ofNat]; exact curdImm_eq h hr a fun x => (x <<< 16) ||| n.setWidth 64
  case h_3 a n => cases hv; rw [← addi_eq_ofInt]; exact curdImm_eq h hr a fun x => x + n.signExtend 64
  case h_4 a b => cases hv; exact curdAlu_eq h hr a b fun _ y => y
  case h_5 a b => cases hv; rw [← add_eq_ofNat]; exact curdAlu_eq h hr a b fun x y => x + y
  case h_6 a b => cases hv; rw [← sub_eq_ofInt]; exact curdAlu_eq h hr a b fun x y => x - y
  case h_7 a b => cases hv; exact curdAlu_eq h hr a b fun x y => x &&& y
  case h_8 a b => cases hv; exact curdAlu_eq h hr a b fun x y => x ||| y
  case h_9 a b => cases hv; exact curdAlu_eq h hr a b fun x y => x ^^^ y
  case h_10 a n => cases hv; rw [← shl_eq_ofNat]; exact curdImm_eq h hr a fun x => x <<< n.toNat
  case h_11 a n => cases hv; rw [← shr_eq_ofNat]; exact curdImm_eq h hr a fun x => x >>> n.toNat
  case h_12 a b =>
    cases hv
    refine (curdAlu_eq h hr a b fun x y => if x.ult y then 1 else 0).trans ?_
    simp only [BitVec.ult, decide_eq_true_eq]
  case h_13 a => cases hv; exact curdImm_eq h hr a fun _ => s.time
  case h_14 a n =>
    split at hv
    · cases hv
    next good =>
      cases hv
      exact (curdOp_eq h hr _).trans (by simp only [good, if_false]; rfl)
  case h_15 a b =>
    split at hv
    case h_1 st found =>
      cases hv
      obtain ⟨⟨_, _, _⟩, known, rfl⟩ := Option.map_eq_some_iff.1 found
      refine (curdOp_eq h hr _).trans ?_
      simp only [Queue.handle?, known, Option.map_some]
      rfl
    · cases hv
  case h_16 => cases hv

end

/-! ## Reads of the front end (R349, R419) -/

/-- An access that the statements grant goes on with its bytes. -/
theorem curdAccess_of_got {s : State} {q : Nat} {r : CurdRun} {p : DWord} {n : Nat} {align : Bool}
    {y : State × List Byte} (got : curdGot s q r p n align = some y) (access : Byte) (bad : State → Byte → State)
    (ok : State → List Byte → State) :
    s.curdAccess q r access (s.devRead (s.queue q).ctx p n align) bad ok = ok y.1 y.2 := by
  unfold curdGot at got
  split at got
  · cases got
  next clean =>
    have none_failed : (r.eng.bind fun id => (s.eng id).failed) = none := by simpa using clean
    split at got
    next s1 bs read =>
      cases got
      simp only [State.curdAccess, none_failed, read]
    · cases got

/-- A part of a launch as `launchObjects` reads it: none is read of length 0. -/
def launchGot (s : State) (q : Nat) (r : CurdRun) (p : DWord) (k : Nat) : Option (State × List Byte) :=
  if k = 0 then some (s, []) else curdGot s q r p k false

theorem launchRead_of_got {s : State} {q : Nat} {r : CurdRun} {p : DWord} {k : Nat} {y : State × List Byte}
    (got : launchGot s q r p k = some y) (ok : State → List Byte → State) : s.launchRead q r p k ok = ok y.1 y.2 := by
  unfold launchGot at got
  unfold State.launchRead
  split at got
  next zero => cases got; rw [if_pos zero]
  next some_ => rw [if_neg some_]; exact curdAccess_of_got got ..

/-- LAUNCH issues the launch whose objects are well formed (R422). -/
theorem execCurdLaunch_of_objects {s : State} {q : Nat} {r : CurdRun} {a : BitVec 4}
    {y : State × List BoundField × Roles × Roles} (h : s.turn = .curd q) (hr : (s.queue q).run = some r)
    (ho : launchObjects s q r = some y) :
    execCurdLaunch a s = .next (y.1.issueLaunch q r a y.2.1 y.2.2.1 y.2.2.2) := by
  refine (curdOp_eq h hr _).trans (congrArg Host.Outcome.next ?_)
  simp only [launchObjects] at ho
  split at ho
  · cases ho
  next record =>
    obtain ⟨x, bounds, ho⟩ := Option.bind_eq_some_iff.1 ho
    split at ho
    · cases ho
    next extents =>
      obtain ⟨t, roles, ho⟩ := Option.bind_eq_some_iff.1 ho
      obtain ⟨d, degrade, ho⟩ := Option.bind_eq_some_iff.1 ho
      split at ho
      · cases ho
      next wellFormed =>
        cases ho
        simp only [record, if_false, launchRead_of_got bounds, extents,
          launchRead_of_got (k := 64) roles, launchRead_of_got degrade, wellFormed]

/-! ## The operations of a program (R419) -/

/-- The pointer of LD and ST is aligned and in a space that they take. -/
theorem curdPtrErr_of_good {p : DWord} (aligned : ptrOff p % 8 = 0) (space : ¬ (ptrSpace p ≠ 0 ∧ ptrSpace p ≠ 4)) :
    curdPtrErr p = none := by
  simp only [curdPtrErr, aligned, space, if_false, ne_eq, not_true]

/-- A command block whose reserved bytes are zero (R424). -/
theorem commandParse_of_reserved {bs : List Byte} (zero : natAt bs 1 3 = 0) (a : BitVec 4) :
    Command.parse bs a = {
      op := bs.getD 0 0, arg := wAt bs 4, src := dwAt bs 8, len := dwAt bs 16, dst := dwAt bs 24, reg := a } := by
  simp only [Command.parse, zero, beq_self_eq_true]

/-- Settles O28: each operation writes its register or its record, branches, waits, reads or writes memory, issues its
launch or ends its run as R419 says. -/
theorem curdWords : Obligations.CurdWords := by
  intro i s q r t h hr ho
  have run {f : Nat → CurdRun → State} {u : State} (leaves : f q r = u) : s.curdOp f = .next u :=
    (curdOp_eq h hr f).trans (congrArg _ leaves)
  have value {j : Instr} (hj : ((curdValue s (s.queue q) r j).map fun y =>
      curdWent (curdSet s q y.1 y.2) q r (r.index + 1)) = some t) : exec j s = .next t := by
    obtain ⟨y, value, rfl⟩ := Option.map_eq_some_iff.1 hj
    exact exec_of_curdValue h hr value
  cases i
  case curdRec a n => cases ho; exact run rfl
  case curdRecpkt =>
    unfold curdOf at ho
    dsimp only at ho
    split at ho
    · cases ho
    next packetRun =>
      cases ho
      exact run (by simp only [packetRun]; rfl)
  case curdLd a b n =>
    unfold curdOf at ho
    dsimp only at ho
    split at ho
    · cases ho
    next good =>
      obtain ⟨aligned, space⟩ := not_or.1 good
      obtain ⟨y, got, rfl⟩ := Option.map_eq_some_iff.1 ho
      refine run (f := fun q r => _) ?_
      simp only [State.curdPtr, curdPtrErr_of_good (not_not.1 aligned) space, curdAccess_of_got got]
      rfl
  case curdSt a b n =>
    unfold curdOf at ho
    dsimp only at ho
    split at ho
    · cases ho
    next good =>
      obtain ⟨aligned, good⟩ := not_or.1 good
      obtain ⟨space, clean⟩ := not_or.1 good
      have none_failed : (r.eng.bind fun id => (s.eng id).failed) = none := by simpa using clean
      split at ho
      next s1 bs written =>
        cases ho
        refine run (f := fun q r => _) ?_
        simp only [State.curdPtr, curdPtrErr_of_good (not_not.1 aligned) space, State.curdAccess, none_failed, written]
        rfl
      · cases ho
  case semwait a n =>
    unfold curdOf at ho
    dsimp only at ho
    split at ho
    next reached => cases ho; exact run (if_pos ((serialGe_iff ..).2 reached))
    · cases ho
  case semadd a n =>
    have sum := add_eq_ofNat (s.sem n.toNat) ((s.queue q).reg a)
    cases ho; rw [← sum]; exact run rfl
  case semset a n => cases ho; exact run rfl
  case wtime a =>
    unfold curdOf at ho
    dsimp only at ho
    split at ho
    next reached => cases ho; exact run (if_pos reached)
    · cases ho
  case curdBz a n =>
    unfold curdOf at ho
    simp only [toNat_eq_zero_iff] at ho
    cases ho
    exact run (by split_ifs <;> rfl)
  case curdBnz a n =>
    unfold curdOf at ho
    simp only [toNat_eq_zero_iff] at ho
    cases ho
    exact run (by split_ifs <;> rfl)
  case curdJmp n => cases ho; exact run rfl
  case curdLoop a n =>
    unfold curdOf at ho
    simp only [toNat_eq_zero_iff] at ho
    split at ho
    next zero => cases ho; exact run (if_pos zero)
    next pos =>
      cases ho
      rw [← dec_eq_ofNat _ (mt (toNat_eq_zero_iff _).1 pos)]
      exact run (if_neg pos)
  case curdDone => cases ho; exact run rfl
  case curdStop => cases ho; exact run rfl
  case curdCmd a b =>
    unfold curdOf at ho
    dsimp only at ho
    split at ho
    · cases ho
    next admin =>
      obtain ⟨y, got, ho⟩ := Option.bind_eq_some_iff.1 ho
      split at ho
      · cases ho
      next good =>
        obtain ⟨op, good⟩ := not_or.1 good
        obtain ⟨known, resv⟩ := not_or.1 good
        cases ho
        refine run (f := fun q r => _) ?_
        simp only [admin, if_false, curdAccess_of_got got, commandParse_of_reserved (not_not.1 resv), op, known,
          or_self, not_true]
        rfl
  case curdLaunch a =>
    obtain ⟨y, objects, rfl⟩ := Option.map_eq_some_iff.1 ho
    exact execCurdLaunch_of_objects h hr objects
  all_goals exact value ho

end Sys2Proof.Proofs

/-! PROOF. 17 R424 to R428: the commands of a Curd program. -/

namespace Sys2Proof.Proofs

open Sys2Proof Sys2Proof.Machine Sys2Proof.Safety Sys2Proof.Laws

/-! ## Fields of ARG (R425) -/

section
variable (w : Word)

theorem fieldNat_argContext : fieldNat w 15 8 = w.toNat / 256 % 256 := by simp [fieldNat_eq]
theorem fieldNat_argTable : fieldNat w 3 0 = w.toNat % 16 := by simp [fieldNat_eq]
theorem fieldNat_argTableHigh : fieldNat w 7 4 = w.toNat / 16 % 16 := by simp [fieldNat_eq]
theorem fieldNat_argStream : fieldNat w 7 0 = w.toNat % 256 := by simp [fieldNat_eq]
theorem fieldNat_argHalf_ne_zero : fieldNat w 31 16 ≠ 0 ↔ 65536 ≤ w.toNat := by
  have hw := w.isLt
  simp only [fieldNat_eq]
  omega
theorem fieldNat_argStreamHigh_ne_zero : fieldNat w 31 9 ≠ 0 ↔ 512 ≤ w.toNat := by
  have hw := w.isLt
  simp only [fieldNat_eq]
  omega

end

/-! ## A command's accesses (R424) -/

section
variable {s : State} {q : Nat} {r : CurdRun} {c : Command}

theorem onCommand_eq {n : Nat} (hr : (s.queue q).run = some r) (park : r.park = .command) (cmd : r.cmd = some c)
    (op : c.op.toNat = n) (f : CurdRun → Command → State) : s.onCommand q n f = .next (f r c) := by
  unfold State.onCommand
  simp only [hr, park, cmd, op, if_true]

/-- A command whose engine is free and whose earlier page fault did not fail for good goes on with its access. -/
theorem cmdAccess_ok {s1 : State} {bs : List Byte} (free : ¬ r.eng.any fun id => !s.engFree id)
    (clean : ¬ (r.eng.bind fun id => (s.eng id).failed).isSome) (access : Byte) (ok : State → List Byte → State) :
    s.cmdAccess q r c access (.ok s1 bs) ok = ok s1 bs := by
  unfold State.cmdAccess
  cases he : r.eng with
  | none => rfl
  | some id =>
    simp only [he, Option.any_some, Option.bind_some] at free clean
    simp only [free, Option.bind_some, Option.not_isSome_iff_eq_none.1 clean]
    rfl

theorem cmdRead_of_got {p : DWord} {n : Nat} {y : State × List Byte} (got : cmdGot s q r p n = some y)
    (ok : State → List Byte → State) : s.cmdRead q r c p n ok = ok y.1 y.2 := by
  unfold cmdGot curdGot at got
  split at got
  · cases got
  next free =>
    split at got
    · cases got
    next clean =>
      split at got
      next s1 bs read =>
        cases got
        rw [State.cmdRead, read]
        exact cmdAccess_ok free clean ..
      · cases got

/-- An image that the statements accept is the one that the command goes on with (R426). -/
theorem cmdImage_of_signed {kind : Nat} {y : State × Image} (signed : cmdSigned s q r c kind = some y)
    (ok : State → Image → State) : s.cmdImage q r c kind ok = ok y.1 y.2 := by
  obtain ⟨h, head, signed⟩ := Option.bind_eq_some_iff.1 signed
  dsimp only at signed
  obtain ⟨b, body, signed⟩ := Option.bind_eq_some_iff.1 signed
  split at signed
  · cases signed
  next accepted =>
    obtain ⟨envelope, image⟩ := not_or.1 accepted
    cases signed
    rw [State.cmdImage, cmdRead_of_got head]
    simp only [envelope, Bool.false_eq_true, if_false]
    split at body
    next empty => cases body; simp only [not_not.1 image, empty, if_true]
    next full => simp only [full, if_false, cmdRead_of_got body, not_not.1 image, if_true]

end

/-- A pointer of space 0 that is a multiple of 64 (R406). -/
theorem not_ptrIs_iff (p : DWord) : ¬ ptrIs [0] 64 p ↔ ptrSpace p ≠ 0 ∨ ptrOff p % 64 ≠ 0 := by
  simp only [ptrIs, List.contains_cons, List.contains_nil, Bool.or_false, Bool.and_eq_true, beq_iff_eq]
  tauto

theorem some_command_inj {p q m n : Nat} {o o' : Option State} (h : some (p, m, o) = some (q, n, o')) :
    p = q ∧ n = m ∧ o = o' := by
  simpa [eq_comm (a := n)] using h

/-- Settles O29: each command that passes its checks leaves what R425 to R428 say, and its register takes 0. -/
theorem commandsComplete : Obligations.CommandsComplete := by
  intro i s q r c n t hr park cmd op ho
  have run {m : Nat} {f : CurdRun → Command → State} {u : State} (hm : n = m) (leaves : f r c = u) :
      s.onCommand q m f = .next u :=
    (onCommand_eq hr park cmd (op.trans hm) f).trans (congrArg _ leaves)
  unfold commandOf at ho
  cases i
  case queueInstall p =>
    obtain ⟨rfl, hn, ho⟩ := some_command_inj ho
    split at ho
    · cases ho
    next number =>
      obtain ⟨x, got, ho⟩ := Option.bind_eq_some_iff.1 ho
      dsimp only at ho
      split at ho
      · cases ho
      next good =>
        obtain ⟨desc, idle⟩ := not_or.1 good
        cases ho
        refine run hn (f := fun r c => _) ?_
        simp only [number, if_false, cmdRead_of_got got, desc, idle]
        rfl
  case queueRestart p =>
    obtain ⟨rfl, hn, ho⟩ := some_command_inj ho
    split at ho
    · cases ho
    next good =>
      obtain ⟨number, stopped⟩ := not_or.1 good
      cases ho
      refine run hn (f := fun r c => _) ?_
      simp only [number, if_false, stopped]
      rfl
  case contextInstall p =>
    obtain ⟨rfl, hn, ho⟩ := some_command_inj ho
    split at ho
    · cases ho
    next number =>
      obtain ⟨x, got, ho⟩ := Option.bind_eq_some_iff.1 ho
      split at ho
      · cases ho
      next good =>
        obtain ⟨desc, unused⟩ := not_or.1 good
        cases ho
        refine run hn (f := fun r c => _) ?_
        simp only [number, if_false, cmdRead_of_got got, desc, unused]
        rfl
  case boundsPublish p =>
    obtain ⟨rfl, hn, ho⟩ := some_command_inj ho
    obtain ⟨x, context, rfl⟩ := Option.map_eq_some_iff.1 ho
    refine run hn (f := fun r c => _) ?_
    simp only [context]
    rfl
  case decodeInstall p =>
    obtain ⟨rfl, hn, ho⟩ := some_command_inj ho
    split at ho
    · cases ho
    next selector =>
      obtain ⟨x, got, ho⟩ := Option.bind_eq_some_iff.1 ho
      split at ho
      · cases ho
      next good =>
        obtain ⟨image, unused⟩ := not_or.1 good
        cases ho
        refine run hn (f := fun r c => _) ?_
        simp only [fieldNat_argTable, fieldNat_argHalf_ne_zero, fieldNat_argTableHigh, fieldNat_argContext, selector,
          if_false, cmdRead_of_got got, image, unused]
        rfl
  case curdInstall p =>
    obtain ⟨rfl, hn, ho⟩ := some_command_inj ho
    split at ho
    · cases ho
    next number =>
      obtain ⟨x, signed, ho⟩ := Option.bind_eq_some_iff.1 ho
      obtain ⟨program, parsed, ho⟩ := Option.bind_eq_some_iff.1 ho
      split at ho
      · cases ho
      next unused =>
        cases ho
        refine run hn (f := fun r c => _) ?_
        simp only [number, if_false, cmdImage_of_signed signed, parsed, unused]
        rfl
  case streamInstall p =>
    obtain ⟨rfl, hn, ho⟩ := some_command_inj ho
    split at ho
    · cases ho
    next selector =>
      split at ho
      next remove =>
        cases ho
        refine run hn (f := fun r c => _) ?_
        simp only [fieldNat_argStreamHigh_ne_zero, fieldNat_argStream, bit_transmit, selector, if_false, remove, if_true]
        rfl
      next install =>
        obtain ⟨x, got, ho⟩ := Option.bind_eq_some_iff.1 ho
        dsimp only at ho
        split at ho
        next good =>
          cases ho
          refine run hn (f := fun r c => _) ?_
          simp only [fieldNat_argStreamHigh_ne_zero, fieldNat_argStream, bit_transmit, selector, if_false, install,
            cmdRead_of_got got, good, if_true]
          rfl
        · cases ho
  case tileInstall p =>
    obtain ⟨rfl, hn, ho⟩ := some_command_inj ho
    split at ho
    · cases ho
    next table =>
      obtain ⟨s1, read, ho⟩ := Option.bind_eq_some_iff.1 ho
      obtain ⟨unused, ho⟩ := Option.ite_none_left_eq_some.1 ho
      cases ho
      refine run hn (f := fun r c => _) ?_
      simp only [not_ptrIs_iff, table, if_false]
      split at read
      next empty =>
        cases read
        simp only [toNat_eq_zero_iff, empty, if_true, unused, Bool.false_eq_true, if_false]
        rfl
      next full =>
        obtain ⟨x, got, rfl⟩ := Option.map_eq_some_iff.1 read
        simp only [toNat_eq_zero_iff, full, if_false, unused, Bool.false_eq_true, cmdRead_of_got got]
        rfl
  case imageStage p =>
    obtain ⟨rfl, hn, ho⟩ := some_command_inj ho
    split at ho
    · cases ho
    next number =>
      obtain ⟨x, signed, rfl⟩ := Option.map_eq_some_iff.1 ho
      refine run hn (f := fun r c => _) ?_
      simp only [number, if_false, cmdImage_of_signed signed]
      split <;> rfl
  case handover p =>
    obtain ⟨rfl, hn, ho⟩ := some_command_inj ho
    obtain ⟨image, staged, ho⟩ := Option.bind_eq_some_iff.1 ho
    dsimp only at ho
    split at ho
    next good =>
      obtain ⟨quiescent, version⟩ := good
      cases ho
      refine run hn (f := fun r c => _) ?_
      simp only [staged, quiescent, version, not_true, if_false]
      rfl
    · cases ho
  case attest p =>
    obtain ⟨rfl, hn, ho⟩ := some_command_inj ho
    obtain ⟨x, got, ho⟩ := Option.bind_eq_some_iff.1 ho
    split at ho
    next s2 bs written =>
      split at ho
      · cases ho
      next good =>
        obtain ⟨clean, free⟩ := not_or.1 good
        cases ho
        refine run hn (f := fun r c => _) ?_
        simp only [cmdRead_of_got got, written, cmdAccess_ok free clean]
        rfl
    · cases ho
  all_goals cases ho

end Sys2Proof.Proofs

/-! PROOF. 12 R321 to R326, 17 R422, R427: bound fields, eligibility and completions of launches. -/

namespace Sys2Proof.Proofs

open Sys2Proof Sys2Proof.Machine Sys2Proof.Safety Sys2Proof.Laws

theorem launch_lid (s : State) (lid : Nat) : (s.launch lid).lid = lid := by
  unfold State.launch
  cases found : s.launches.find? fun l => l.lid == lid with
  | none => rfl
  | some l => simpa using List.find?_some found

/-- A bound field whose semaphore is reached is read and bound (R321). -/
theorem execBoundFieldResolve_eq {s s1 : State} {lid : Nat} {f : BoundField} {fs : List BoundField} {bs : List Byte}
    (bounds : (s.launch lid).bounds = f :: fs) (phase : (s.launch lid).phase = .binding)
    (reached : serialGe (s.sem f.sem) f.target = true) (free : s.engFree lid = true)
    (clean : (s.eng lid).failed = none) (read : s.devRead (s.launch lid).ctx f.ptr 8 true = .ok s1 bs) :
    execBoundFieldResolve lid s = .next (s1.bindValue (s.launch lid) f (dwAt bs 0)) := by
  simp [execBoundFieldResolve, bounds, phase, reached, free, clean, read]

section
variable {s : State} {lid : Nat} (known : ∃ x ∈ s.launches, x.lid = lid) (ended : s.launchOver (s.launch lid) = true)
  (recorded : s.recordWaits (s.launch lid) = false)
include known ended recorded

/-- A launch that is over completes (R326), at once or as one of those that a hand-over holds (R427). -/
theorem execLaunchCompletion_eq : execLaunchCompletion lid s = .next (
    let x := s.complete (s.launch lid)
    if s.handing ∨ (s.doneHeld ≠ [] ∧ s.doneHeld.head? ≠ some lid) then
      { x.2 with doneHeld := if s.doneHeld.contains lid then s.doneHeld else s.doneHeld ++ [lid] }
    else x.2.deliver (s.launch lid) x.1) := by
  have there : s.launches.any (fun x => x.lid == lid) = true := by simpa using known
  unfold execLaunchCompletion
  simp only [there, ended, recorded, not_true, Bool.false_eq_true, or_self, if_false]
theorem execLaunchCompletion_delivers (handing : s.handing = false)
    (held : s.doneHeld = [] ∨ s.doneHeld.head? = some lid) : execLaunchCompletion lid s =
      .next ((s.complete (s.launch lid)).2.deliver (s.launch lid) (s.complete (s.launch lid)).1) := by
  have next_ : ¬ (s.handing = true ∨ (s.doneHeld ≠ [] ∧ s.doneHeld.head? ≠ some lid)) := by
    rw [handing]
    tauto
  rw [execLaunchCompletion_eq known ended recorded]
  exact congrArg _ (if_neg next_)
theorem execLaunchCompletion_held (handing : s.handing = true) (new : lid ∉ s.doneHeld) : execLaunchCompletion lid s =
    .next { (s.complete (s.launch lid)).2 with doneHeld := s.doneHeld ++ [lid] } := by
  have unheld : s.doneHeld.contains lid = false := by simpa using new
  rw [execLaunchCompletion_eq known ended recorded]
  simp only [handing, true_or, if_true, unheld]
  rfl

end

/-- A delivered completion whose DONE_AT is written raises DONE_SEM (R422). -/
theorem deliver_eq {s s1 : State} {l : Launch} {lid : Nat} {st : Word} {bs : List Byte} (hl : l.lid = lid)
    (free : s.engFree lid = true) (clean : (s.eng lid).failed = none) (at_ : l.doneAt ≠ 0)
    (written : s.devWrite l.ctx l.doneAt (toLe 8 st.toNat) true = .ok s1 bs) : s.deliver l st = s1.signalDone l st := by
  simp only [State.deliver, hl, free, at_, clean, written, not_true, if_false]

/-- Settles O32. -/
theorem launchesProceed : Obligations.LaunchesProceed := by
  refine ⟨fun s lid f fs s1 bs bounds phase reached free clean read =>
    execBoundFieldResolve_eq bounds phase reached free clean read, fun s lid phase fine attached due => ?_,
    fun s lid s2 bs known ended recorded => ⟨fun handing held free clean at_ written => ?_, fun handing new => ?_⟩⟩
  · have eligible : (s.launch lid).phase = .queued ∧ (s.launch lid).refused.isNone ∧ s.attached (s.launch lid) ∧
        t64ToNs (s.launch lid).notBefore ≤ s.timeNs := ⟨phase, by rw [fine]; rfl, attached, due⟩
    exact if_pos eligible
  · exact (execLaunchCompletion_delivers known ended recorded handing held).trans
      (congrArg Host.Outcome.next (deliver_eq (launch_lid s lid) free clean at_ written))
  · exact execLaunchCompletion_held known ended recorded handing new

end Sys2Proof.Proofs

/-! PROOF. 15 R393 to R397: the events of ropes. -/

namespace Sys2Proof.Proofs

open Sys2Proof Sys2Proof.Machine Sys2Proof.Safety Sys2Proof.Laws

/-! ## A rope replaced -/

section
variable (s : State) {n : Nat}

theorem rope_setRope (r : Rope) (hn : n < 4) : (s.setRope n r).rope n = r := by
  simp [State.rope, State.setRope, hn]
@[simp] theorem unstage_rope (p : Port) : (s.unstage p).rope n = s.rope n := by cases p <;> rfl

end

@[simp] theorem noteArrived_arrivals (r : Rope) (m k : Nat) : (r.noteArrived m k).arrivals = (k, m) :: r.arrivals := by
  unfold Rope.noteArrived
  dsimp only
theorem consecOf_resetConsec (r : Rope) (m : Nat) : (r.resetConsec m).consecOf m = 0 := by
  simp [Rope.consecOf, Rope.resetConsec]

theorem readmit_eq (self k : Nat) (e : Expulsion) :
    e.readmit self k = if e.member = self ∧ e.back = none then { e with back := some k } else e := by
  simp [Expulsion.readmit]

/-! ## The events -/

/-- A readmission of an expelled card (R397). -/
theorem rejoin_eq {s : State} {n j : Nat} (frame : (s.rope n).frameAt s.timeNs = some j)
    (out : ((s.rope n).expelled.any fun e => e.member == (s.rope n).self && e.back.isNone) = true) :
    s.rejoin n = s.setRope n { (s.rope n).resetConsec (s.rope n).self with
      expelled := (s.rope n).expelled.map (Expulsion.readmit (s.rope n).self (j + 2)) } := by
  simp only [State.rejoin, frame, out, if_true]

/-- Settles O34. -/
theorem ropeEvents : Obligations.RopeEvents := by
  refine ⟨fun n m k s active other open_ due => ⟨?_, noteArrived_arrivals ..⟩, fun n k s active due next_ => ⟨?_, rfl⟩,
    fun n m lat s active other hn => ?_, fun p n j s live hn frame out => ?_⟩
  · have counts : (s.rope n).active ∧ (s.rope n).others.contains m ∧ ¬ (s.rope n).isDecided k ∧
        s.timeNs ≤ (s.rope n).point k := ⟨active, other, by rw [open_]; exact Bool.false_ne_true, due⟩
    exact congrArg Host.Outcome.next (if_pos counts)
  · exact congrArg Host.Outcome.next (if_pos ⟨active, due, next_⟩)
  · refine ⟨_, congrArg Host.Outcome.next (if_pos ⟨active, other⟩), ?_⟩
    rw [rope_setRope _ _ hn]
    rfl
  · have out' : (((s.unstage p).rope n).expelled.any fun e => e.member == ((s.unstage p).rope n).self && e.back.isNone)
        = true := by rwa [unstage_rope]
    refine ⟨(s.unstage p).rejoin n, hostWrite_live live fun s1 => s1.rejoin n, ?_⟩
    rw [rejoin_eq (by rwa [unstage_rope, unstage_timeNs]) out', rope_setRope _ _ hn, unstage_rope]
    exact ⟨consecOf_resetConsec .., List.map_congr_left fun e _ => readmit_eq ..⟩

end Sys2Proof.Proofs

/-! PROOF. 12 R325 to R339: placement, work taken and stolen, yield requests. -/

namespace Sys2Proof.Proofs

open Sys2Proof Sys2Proof.Machine Sys2Proof.Safety Sys2Proof.Laws

section
variable {s : State} {c : Nat}

/-- The record that a core pops when no offer comes first (R338). -/
theorem ownPop_eq {r : Record} (offer : s.offerTo c = none) (young : (s.col c).deque.getLast? = some r)
    (takes : s.takes c r = true) : s.ownPop c = some r := by
  simp only [State.ownPop, offer, young, takes, if_true]

theorem execCoreTakeWork_pops {r : Record} (offer : s.offerTo c = none) (young : (s.col c).deque.getLast? = some r)
    (takes : s.takes c r = true) :
    execCoreTakeWork c s = .next ((s.updCol c Column.popYoung).startRecord c r) := by
  simp only [execCoreTakeWork, offer, ownPop_eq offer young takes]
  rfl

/-- A thief visits cores until one that it has passed by is a candidate again (R339). -/
theorem execStealAttempt_visited {cand : List Nat} {v : Nat} (idle : s.idleThief c = true)
    (visited : s.visit c (s.visits c) [] = (cand, some v)) : execStealAttempt c s = .next (s.stealFrom c v cand) := by
  simp only [execStealAttempt, idle, not_true, if_false, visited]
theorem execStealAttempt_best {cand : List Nat} {v : Nat} (idle : s.idleThief c = true)
    (visited : s.visit c (s.visits c) [] = (cand, none)) (best : s.bestVictim cand = some v) :
    execStealAttempt c s = .next (s.stealFrom c v cand) := by
  simp only [execStealAttempt, idle, not_true, if_false, visited, best]

end

section
variable {s : State} {cid : Nat} (due : s.yieldDue cid = true) (fresh : (s.crew cid).yieldReq = false)
include due fresh

theorem execYieldReq_first (first : (s.crew cid).yieldAt = none) : execYieldReq cid s = .next (s.requestYield cid) := by
  simp only [execYieldReq, due, first, fresh, Option.isNone_none, Bool.false_eq_true, not_false_eq_true, and_self,
    if_true]
theorem execYieldReqRepeat_late {n : Nat} (delivered : (s.crew cid).yieldAt = some n) (late : n + 1000000 ≤ s.timeNs) :
    execYieldReqRepeat cid s = .next (s.requestYield cid) := by
  simp only [execYieldReqRepeat, due, delivered, fresh, late, Bool.false_eq_true, not_false_eq_true, and_self, if_true]

end

/-- Settles O47. -/
theorem placementEvents : Obligations.PlacementEvents := by
  refine ⟨fun lid idx s k ps offer => ?_, fun c s lid k ps offer => ?_,
    fun c s r offer young takes => execCoreTakeWork_pops offer young takes,
    fun c s cand v idle visited => execStealAttempt_visited idle visited,
    fun c s cand v idle visited best => execStealAttempt_best idle visited best,
    fun cid s due fresh => ⟨fun first => execYieldReq_first due fresh first,
      fun n delivered late => execYieldReqRepeat_late due fresh delivered late⟩⟩
  · change execWorkgroupPlace lid idx s = _
    simp only [execWorkgroupPlace, offer]
  · change execCoreTakeWork c s = _
    simp only [execCoreTakeWork, offer]

end Sys2Proof.Proofs

/-! PROOF. 18 R430 to R437: cold reset, loss of power, PERST# and bring-up. -/

namespace Sys2Proof.Proofs

open Sys2Proof Sys2Proof.Machine Sys2Proof.Safety Sys2Proof.Laws

/-! ## Cold reset and loss of power (R431 to R433) -/

section
variable (s : State)

/-- A column keeps its seals, the bytes behind them and its sensor (R292, R433). -/
theorem col_coldReset (c : Nat) : s.coldReset.col c = (s.col c).afterReset := by
  simp only [State.col, State.coldReset, Vector.getElem?_map]
  cases s.columns[c]? <;> rfl

/-- A sensor of the card has reached the temperature at which it removes power (R432). -/
theorem tooHot_iff : s.tooHot = true ↔ s.tempCut ≤ s.cardTemp ∨ ∃ c, c < 96 ∧ s.tempCut ≤ (s.col c).temp := by
  have column (x : Column) : x ∈ s.columns.toList ↔ ∃ c, c < 96 ∧ s.col c = x := by
    rw [Vector.mem_toList_iff, Vector.mem_iff_getElem]
    refine exists_congr fun c => ⟨?_, ?_⟩
    · rintro ⟨hc, rfl⟩
      exact ⟨hc, by simp [State.col, hc]⟩
    · rintro ⟨hc, rfl⟩
      exact ⟨hc, by simp [State.col, hc]⟩
  simp only [State.tooHot, Bool.or_eq_true, decide_eq_true_eq, List.any_eq_true, column]
  refine or_congr_right ⟨?_, ?_⟩
  · rintro ⟨_, ⟨c, hc, rfl⟩, hot⟩
    exact ⟨c, hc, hot⟩
  · rintro ⟨c, hc, hot⟩
    exact ⟨_, ⟨c, hc, rfl⟩, hot⟩

theorem execOverTemperature_hot (hot : s.tooHot = true) :
    execOverTemperature s = .next { s.powerOff with latched := true } := by
  rw [execOverTemperature, if_pos hot]
theorem execOverTemperature_cool (cool : s.tooHot = false) : execOverTemperature s = .next s := by
  rw [execOverTemperature, if_neg (ne_true_of_eq_false cool)]

end

/-! ## PERST# (R434) -/

section
variable {s : State}

/-- Split ports reset one by one, and the card when no port is left up. -/
theorem execPerst_split (split_ : s.merged = false) (a b : Bool) : execPerst a b s = .next (
    match a, b with
    | true, true => s.coldReset
    | true, false => if s.portBUp then s.portReset .a else s.coldReset
    | false, true => if s.portAUp then s.portReset .b else s.coldReset
    | false, false => s) := by
  exact congrArg Host.Outcome.next (if_neg (ne_true_of_eq_false split_))

/-! ## Bring-up (R430, R435) -/

theorem execBringUp_held (held : s.phase = .held) (power : 500 ≤ s.limitW) : execBringUp s = .next (
    match s.bootBank with
    | some b => s.installDefaults b
    | none => { s with phase := .step 2 }) := by
  rw [execBringUp, held]
  exact congrArg Host.Outcome.next (if_neg (by omega))

/-- Firmware installs queue 0 and leaves the others as they were (R436). -/
theorem queue_installDefaults (b q : Nat) :
    (s.installDefaults b).queue q = if q = 0 then fwQueue else s.queue q := by
  simp only [State.queue, State.installDefaults, Vector.getElem?_set, eq_comm (a := 0)]
  split <;> rfl

end

/-- Settles O44. -/
theorem powerEvents : Obligations.PowerEvents := by
  refine ⟨fun s => ⟨_, rfl, rfl, rfl, rfl, rfl, rfl, rfl, rfl, rfl, rfl, rfl, rfl, rfl, rfl, rfl, fun c => ?_,
      fun on => ⟨?_, ?_⟩, fun off => ⟨?_, ?_⟩⟩,
    fun s => ⟨_, rfl, rfl, rfl, rfl, rfl, rfl, rfl⟩,
    fun s hot => ⟨_, execOverTemperature_hot s ((tooHot_iff s).2 hot), rfl, rfl, rfl, rfl, rfl, rfl⟩,
    fun s card cool => execOverTemperature_cool s ?_,
    fun s split_ => ⟨execPerst_split split_ true true, fun up => ?_, fun down => ?_, fun up => ?_, fun down => ?_⟩,
    fun s b merged => ?_,
    fun s b held power bank => ⟨s.installDefaults b, ?_, rfl, rfl, rfl, queue_installDefaults .., fun q hq => ?_, rfl⟩,
    fun s held power bank => ?_, fun s held power => ?_, fun s held => ?_⟩
  · rw [col_coldReset]
    exact ⟨rfl, rfl, rfl, rfl⟩
  · exact if_neg on
  · exact if_neg on
  · exact if_pos off
  · exact if_pos off
  · rw [← Bool.not_eq_true, tooHot_iff]
    rintro (hot | ⟨c, hc, hot⟩)
    · omega
    · have := cool c hc
      omega
  · exact (execPerst_split split_ true false).trans (congrArg Host.Outcome.next (if_pos up))
  · exact (execPerst_split split_ true false).trans (congrArg Host.Outcome.next (if_neg (ne_true_of_eq_false down)))
  · exact (execPerst_split split_ false true).trans (congrArg Host.Outcome.next (if_pos up))
  · exact (execPerst_split split_ false true).trans (congrArg Host.Outcome.next (if_neg (ne_true_of_eq_false down)))
  · exact congrArg Host.Outcome.next (if_pos merged)
  · exact (execBringUp_held held power).trans (by rw [bank])
  · rw [queue_installDefaults, if_neg hq.ne']
  · exact (execBringUp_held held power).trans (by rw [bank])
  · change execBringUp s = _
    rw [execBringUp, held]
    exact congrArg Host.Outcome.next (if_pos power)
  · change execBringUp s = _
    cases phase : s.phase with
    | held => exact absurd phase held
    | off => rw [execBringUp, phase]
    | live => rw [execBringUp, phase]
    | step n => rw [execBringUp, phase]

end Sys2Proof.Proofs

/-!
PROOF. What the shared operations of the device leave of the settings that the host, firmware and Curd programs make,
and of the streams, the links, the tile tables' entries and the messages sent: accesses of memory, fault reports,
stores of cores, seals and traps touch none of these.
-/

namespace Sys2Proof.Proofs

open Sys2Proof Sys2Proof.Machine Sys2Proof.Safety Sys2Proof.Laws

/-- What the host, firmware and Curd programs configure (R413, R417, R424, R425, R435). -/
structure Settings where
  contexts : List Context
  queues : Vector Queue 256
  programs : List CurdProgram
  banks : Vector Image 2
  activeBank : Nat
  linkImages : Vector Image 4
  sems : Vector DWord 64
  fqBase : DWord
  fqLog2 : Nat
  fqHead : Nat
  timeNs : Nat
  phase : Phase
  inwins : Vector InWindow 16
  routeLo : DWord
  routeHi : DWord
  links : Vector Link 4
  cardId : Nat
  pwrTokens : Nat
  pwrCost : Vector Nat 16
  limitW : Nat

/-- What no memory access and no fault report touches: the settings, the streams, the link processors, the queue served
last, and what only collectives and ropes change besides, the entries of tile tables and the messages sent. -/
structure Outer where
  settings : Settings
  streams : List Stream
  linkStopped : Vector Bool 4
  lastServed : Nat
  colls : List CollEntry
  outbox : List Sent

def settingsOf (s : State) : Settings :=
  { contexts := s.contexts, queues := s.queues, programs := s.programs, banks := s.banks, activeBank := s.activeBank
    linkImages := s.linkImages, sems := s.sems, fqBase := s.fqBase, fqLog2 := s.fqLog2, fqHead := s.fqHead
    timeNs := s.timeNs, phase := s.phase, inwins := s.inwins, routeLo := s.routeLo, routeHi := s.routeHi
    links := s.links, cardId := s.cardId, pwrTokens := s.pwrTokens, pwrCost := s.pwrCost, limitW := s.limitW }
def outerOf (s : State) : Outer :=
  { settings := settingsOf s, streams := s.streams, linkStopped := s.linkStopped, lastServed := s.lastServed
    colls := s.colls, outbox := s.outbox }

/-- Steps that each leave it, leave it. -/
theorem outerOf_foldl {α : Type} {f : State → α → State} (h : ∀ s x, outerOf (f s x) = outerOf s) (xs : List α)
    (s : State) : outerOf (xs.foldl f s) = outerOf s :=
  List.foldlRecOn (motive := fun t => outerOf t = outerOf s) xs f rfl fun _ ok x _ => (h _ x).trans ok

/-! ## Updates of one part -/

section
variable (s : State)

@[simp] theorem outerOf_updThread (t : TRef) (f : Thread → Thread) : outerOf (s.updThread t f) = outerOf s := rfl
@[simp] theorem outerOf_updCrew (c : Nat) (f : Crew → Crew) : outerOf (s.updCrew c f) = outerOf s := rfl
@[simp] theorem outerOf_updWg (w : Nat) (f : Workgroup → Workgroup) : outerOf (s.updWg w f) = outerOf s := rfl
@[simp] theorem outerOf_updLaunch (l : Nat) (f : Launch → Launch) : outerOf (s.updLaunch l f) = outerOf s := rfl
@[simp] theorem outerOf_updCol (c : Nat) (f : Column → Column) : outerOf (s.updCol c f) = outerOf s := rfl
@[simp] theorem outerOf_updRun (k : RunKey) (f : Run → Run) : outerOf (s.updRun k f) = outerOf s := rfl
@[simp] theorem outerOf_updEng (n : Nat) (f : EngWait → EngWait) : outerOf (s.updEng n f) = outerOf s := rfl
@[simp] theorem outerOf_dropEng (n : Nat) : outerOf (s.dropEng n) = outerOf s := rfl

/-! ## Memory (R273 to R283) -/

@[simp] theorem outerOf_countCe (k : Nat) : outerOf (s.countCe k) = outerOf s := by
  unfold State.countCe; split_ifs <;> rfl
@[simp] theorem outerOf_correct (k : Nat) : outerOf (s.correct k) = outerOf s := by
  unfold State.correct; split_ifs <;> simp; rfl
@[simp] theorem outerOf_dcInsert (k home : Nat) : outerOf (s.dcInsert k home) = outerOf s := rfl
@[simp] theorem outerOf_dcFill (k home : Nat) : outerOf (s.dcFill k home) = outerOf s := by
  unfold State.dcFill; split_ifs <;> simp
@[simp] theorem outerOf_dcLow (k : Nat) : outerOf (s.dcLow k) = outerOf s := rfl
@[simp] theorem outerOf_fillTlb (ctx ia level : Nat) (e : DWord) (addr : Nat) (w : Bool) :
    outerOf (s.fillTlb ctx ia level e addr w) = outerOf s := by
  unfold State.fillTlb; dsimp only; generalize (if w then e ||| 8#64 else e) = e'; split_ifs <;> rfl
@[simp] theorem outerOf_walkFix (ia : Nat) : outerOf (s.walkFix ia) = outerOf s := by
  unfold State.walkFix; split
  · rfl
  · exact outerOf_foldl (fun _ _ => outerOf_correct _ _) _ _

@[simp] theorem outerOf_markDirty (p : StashSector → Bool) : outerOf (s.markDirty p) = outerOf s := rfl
@[simp] theorem outerOf_putBy (o : Option (TRef × Nat)) (k : Nat) (bs : List Byte) :
    outerOf (s.putBy o k bs) = outerOf s := by
  unfold State.putBy; dsimp only; split
  · rfl
  · split_ifs <;> rfl
@[simp] theorem outerOf_put (k : Nat) (bs : List Byte) : outerOf (s.put k bs) = outerOf s := outerOf_putBy ..
@[simp] theorem outerOf_putAll (k : Nat) (bs : List Byte) : outerOf (s.putAll k bs) = outerOf s :=
  outerOf_foldl (fun _ _ => outerOf_put ..) _ _

end

section
variable {s s1 : State}

theorem outerOf_translate {ia sp k : Nat} {w : Bool} (e : s.translate ia sp w = .at s1 k) : outerOf s1 = outerOf s := by
  unfold State.translate at e
  dsimp only at e
  split at e <;> cases e <;> simp
  rfl
theorem outerOf_fillSector {wid sec k : Nat} {x : StashEntry} (e : s.fillSector wid x sec = .at s1 k) :
    outerOf s1 = outerOf s := by
  unfold State.fillSector at e
  dsimp only at e
  split_ifs at e
  · cases e; rfl
  · split at e
    · cases e; rfl
    · cases e; rfl
    · split at e
      · cases e
      next h => cases e; exact (outerOf_translate h :)
theorem outerOf_locate {d : Dest} {k : Nat} {w : Bool} (e : s.locate d w = .at s1 k) : outerOf s1 = outerOf s := by
  unfold State.locate at e
  cases d with
  | global sp ia =>
    dsimp only at e
    split at e
    · exact outerOf_translate e
    · split at e
      next h => exact (outerOf_translate e).trans (outerOf_fillSector h)
      next => cases e
  | scratch wid off =>
    dsimp only at e
    split at e
    · cases e; rfl
    · split at e
      · cases e
      next h =>
        split at e
        · cases e; exact outerOf_fillSector h
        · split at e
          next h2 => cases e; exact (outerOf_translate h2).trans (outerOf_fillSector h)
          next => cases e

end

section
variable (s : State)

@[simp] theorem outerOf_fillAt (k : Nat) : outerOf (s.fillAt k) = outerOf s := by
  unfold State.fillAt
  split_ifs
  · rfl
  · split
    · rfl
    · split
      next h => exact outerOf_fillSector h
      next => rfl
@[simp] theorem outerOf_pokeWg (wid : Nat) (p : DWord) (bs : List Byte) : outerOf (s.pokeWg wid p bs) = outerOf s := by
  unfold State.pokeWg
  split
  · rfl
  · split
    next h => rw [outerOf_putAll, outerOf_locate h]
    next => rfl
@[simp] theorem outerOf_flushStash (wid : Nat) (p : StashEntry → Bool) : outerOf (s.flushStash wid p) = outerOf s := rfl
@[simp] theorem outerOf_remapStash (p : StashSector → Bool) : outerOf (s.remapStash p) = outerOf s := by
  refine outerOf_foldl (fun t x => ?_) _ _
  dsimp only
  split
  next h => exact (outerOf_translate h :)
  next => rfl
@[simp] theorem outerOf_refindStash (wid : Nat) : outerOf (s.refindStash wid) = outerOf s := outerOf_remapStash ..
@[simp] theorem outerOf_dropStashLines (wid : Nat) (es : List StashEntry) :
    outerOf (s.dropStashLines wid es) = outerOf s := by
  unfold State.dropStashLines; split_ifs <;> rfl
@[simp] theorem outerOf_peerRead (k n : Nat) : outerOf (s.peerRead k n).1 = outerOf s := by
  unfold State.peerRead; dsimp only; split
  · rfl
  · split <;> rfl
@[simp] theorem outerOf_lineFill (ia k : Nat) : outerOf (s.lineFill ia k) = outerOf s := by
  refine outerOf_foldl (fun t x => ?_) _ _
  split_ifs <;> simp
@[simp] theorem outerOf_wakePool (d : Dest) : outerOf (s.wakePool d) = outerOf s :=
  outerOf_foldl (fun _ _ => outerOf_updCol ..) _ _

end

/-! ## Fault reports (R349 to R351) -/

section
variable {s s1 : State}

theorem outerOf_fqSlot {k : Nat} (e : s.fqSlot = some (s1, k)) : outerOf s1 = outerOf s := by
  unfold State.fqSlot at e
  dsimp only at e
  split_ifs at e
  split at e
  · cases e
  · split at e
    · cases e
    next h =>
      split_ifs at e
      cases e
      exact outerOf_locate h
@[simp] theorem outerOf_writeRecord (r : FaultRecord) : outerOf (s.writeRecord r) = outerOf s := by
  unfold State.writeRecord
  dsimp only
  split_ifs
  · split
    next h => exact (outerOf_putAll ..).trans (outerOf_fqSlot h)
    next => rfl
  · split
    next h => exact (outerOf_putAll ..).trans (outerOf_fqSlot h)
    next => rfl
  · rfl
  · rfl
theorem outerOf_openFault {f : FaultWho} {kind ia n : Nat} {ea : DWord} (e : s.openFault f kind ia ea = some (n, s1)) :
    outerOf s1 = outerOf s := by
  unfold State.openFault at e
  dsimp only at e
  split at e
  · cases e; rfl
  · split_ifs at e
    cases e
    exact (outerOf_writeRecord _).trans (outerOf_walkFix ..)

end

section
variable (s : State)

@[simp] theorem outerOf_opFault (id : Nat) (f : FaultWho) (kind ia : Nat) (ea : DWord) :
    outerOf (s.opFault id f kind ia ea) = outerOf s := by
  unfold State.opFault
  dsimp only
  split_ifs
  · rfl
  · split
    next h => exact (outerOf_openFault h :)
    next => rfl
@[simp] theorem outerOf_engFault (id wid kind ia : Nat) (ea : DWord) (a : Byte) :
    outerOf (s.engFault id wid kind ia ea a) = outerOf s := outerOf_opFault ..
@[simp] theorem outerOf_faultWg (wid : Nat) (f : WgFault) : outerOf (s.faultWg wid f) = outerOf s := by
  unfold State.faultWg; dsimp only; split_ifs <;> rfl
@[simp] theorem outerOf_threadFault (t : TRef) (f : FaultWho) (kind ia : Nat) (ea : DWord) (mk : Nat → ThreadWait) :
    outerOf (s.threadFault t f kind ia ea mk) = outerOf s := by
  refine iteInduction (motive := fun u => outerOf u = outerOf s) (fun _ => by simp) fun _ => ?_
  · split
    next h => exact (outerOf_openFault h :)
    next => rfl
@[simp] theorem outerOf_detach (a : Attached) : outerOf (s.detach a) = outerOf s := rfl
@[simp] theorem outerOf_dueTrap (t : TRef) (ti : TrapInfo) : outerOf (s.dueTrap t ti) = outerOf s := rfl
@[simp] theorem outerOf_refuseStore (cid : Nat) (h : HeldStore) : outerOf (s.refuseStore cid h) = outerOf s := by
  unfold State.refuseStore
  dsimp only
  split_ifs
  · split <;> simp
  · exact outerOf_foldl (fun _ _ => outerOf_dueTrap ..) _ _

/-! ## The stores of a core (R291, R301, R308) -/

@[simp] theorem outerOf_reachAll : outerOf s.reachAll = outerOf s := rfl
@[simp] theorem outerOf_reachFor (t : TRef) : outerOf (s.reachFor t) = outerOf s := rfl
@[simp] theorem outerOf_givePend (t : TRef) (v w : PendVal) : outerOf (s.givePend t v w) = outerOf s := rfl
@[simp] theorem outerOf_l1Update (c key n : Nat) (b : Bool) : outerOf (s.l1Update c key n b) = outerOf s := rfl
@[simp] theorem outerOf_applyAtomic (c : Nat) (r : Released) (k : BitVec 5) (x y : DWord) :
    outerOf (s.applyAtomic c r k x y) = outerOf s := by
  unfold State.applyAtomic
  dsimp only
  split
  · simp
  · split <;> simp
@[simp] theorem outerOf_applyStore (cid : Nat) (h : HeldStore) : outerOf (s.applyStore cid h) = outerOf s := by
  have filled : outerOf ((s.fillAt h.key).reachFor ⟨cid, h.tid⟩) = outerOf s := outerOf_fillAt ..
  unfold State.applyStore
  dsimp only
  generalize (s.fillAt h.key).reachFor ⟨cid, h.tid⟩ = t at filled ⊢
  rw [← filled]
  refine iteInduction (motive := fun u => outerOf u = outerOf t) (fun _ => outerOf_refuseStore ..) fun _ => ?_
  split
  · split_ifs
    · rfl
    · simp
    · exact outerOf_putBy ..
    · simp
  · split_ifs
    · rfl
    · simp
  · rfl
@[simp] theorem outerOf_performOne (c : Nat) (r : Released) : outerOf (s.performOne c r) = outerOf s := by
  unfold State.performOne
  dsimp only
  split <;> split_ifs <;> simp
@[simp] theorem outerOf_applyHead (c : Nat) : outerOf (s.applyHead c) = outerOf s := by
  unfold State.applyHead
  split
  · simp
  · split <;> simp
@[simp] theorem outerOf_drainCol (c n : Nat) : outerOf (s.drainCol c n) = outerOf s := by
  induction n generalizing s with
  | zero => rfl
  | succ n ih => rw [State.drainCol, ih, outerOf_applyHead]
@[simp] theorem outerOf_drain (c : Nat) : outerOf (s.drain c) = outerOf s := outerOf_drainCol ..
@[simp] theorem outerOf_logStore (wid crew : Nat) (h : HeldStore) : outerOf (s.logStore wid crew h) = outerOf s := by
  refine outerOf_foldl (fun t x => ?_) _ _
  dsimp only
  split_ifs <;> simp
@[simp] theorem outerOf_releaseAs (wid cid crew : Nat) (h : HeldStore) (rel hold : Bool) :
    outerOf (s.releaseAs wid cid crew h rel hold) = outerOf s := by
  unfold State.releaseAs; dsimp only; split_ifs <;> simp
@[simp] theorem outerOf_release (cid : Nat) (h : HeldStore) (rel hold : Bool) :
    outerOf (s.release cid h rel hold) = outerOf s := outerOf_releaseAs ..
@[simp] theorem outerOf_unhold (t : TRef) : outerOf (s.unhold t) = outerOf s := rfl
@[simp] theorem outerOf_number (t : TRef) (hold : Bool) : outerOf (s.number t hold) = outerOf s :=
  outerOf_foldl (fun _ _ => outerOf_release ..) _ _
@[simp] theorem outerOf_commit (t : TRef) : outerOf (s.commit t) = outerOf s := by
  rw [State.commit, outerOf_updThread, outerOf_unhold, outerOf_number]
@[simp] theorem outerOf_commitTo (t : TRef) (pc : DWord) : outerOf (s.commitTo t pc) = outerOf s := by
  rw [State.commitTo, outerOf_updThread, outerOf_unhold, outerOf_number]
@[simp] theorem outerOf_commitHere (r : Run) (t : TRef) : outerOf (s.commitHere r t) = outerOf s := outerOf_commitTo ..
@[simp] theorem outerOf_commitAt (r : Run) (t : TRef) : outerOf (s.commitAt r t) = outerOf s := by
  rw [State.commitAt, outerOf_updThread, outerOf_commit]
@[simp] theorem outerOf_sealAt (t : TRef) (pc next : DWord) (own : Option HeldStore) (rel : Bool) :
    outerOf (s.sealAt t pc next own rel) = outerOf s := by
  unfold State.sealAt
  split_ifs
  · rfl
  · dsimp only; split <;> simp
@[simp] theorem outerOf_acquired (c scope : Nat) : outerOf (s.acquired c scope) = outerOf s := by
  unfold State.acquired; split_ifs <;> rfl

end

section
variable {s s1 : State}

theorem outerOf_drainIf {c : Nat} {late : State → Bool} (e : s.drainIf c late = some s1) : outerOf s1 = outerOf s := by
  unfold State.drainIf at e
  dsimp only at e
  split_ifs at e <;> cases e <;> simp
theorem outerOf_settleRead {c k n : Nat} {me : Option TRef} {strong : Bool}
    (e : s.settleRead c me strong k n = some s1) : outerOf s1 = outerOf s := outerOf_drainIf e
theorem outerOf_settleWrite {c k n : Nat} (e : s.settleWrite c k n = some s1) : outerOf s1 = outerOf s := outerOf_drainIf e
theorem outerOf_settleSeen {c : Nat} {t : TRef} (e : s.settleSeen c t = some s1) : outerOf s1 = outerOf s :=
  outerOf_drainIf e
theorem outerOf_performed {c scope : Nat} {t : TRef} (e : s.performed c t scope = some s1) : outerOf s1 = outerOf s := by
  unfold State.performed at e
  obtain ⟨s2, h, rfl⟩ := Option.map_eq_some_iff.mp e
  rw [← outerOf_drainIf h]
  split_ifs <;> rfl
theorem outerOf_fenceAt {t : TRef} {wid scope : Nat} (e : s.fenceAt t wid scope = some s1) : outerOf s1 = outerOf s := by
  unfold State.fenceAt at e
  obtain ⟨s2, h, rfl⟩ := Option.map_eq_some_iff.mp e
  rw [← outerOf_performed h]
  split_ifs <;> simp
theorem outerOf_scratchStore {t : TRef} {h : HeldStore} (e : s.scratchStore t h = some s1) : outerOf s1 = outerOf s := by
  unfold State.scratchStore at e
  obtain ⟨s2, ready, rfl⟩ := Option.map_eq_some_iff.mp e
  obtain ⟨s3, settled, seen⟩ := Option.bind_eq_some_iff.mp ready
  rw [outerOf_applyStore, ← outerOf_settleWrite settled]
  have seen2 : outerOf s2 = outerOf s3 := by
    split_ifs at seen
    · cases seen; rfl
    · exact outerOf_settleSeen seen
  rw [← seen2]
  split_ifs <;> rfl
theorem outerOf_performAtomic {wid cid crew tid key : Nat} {ea : DWord} {d : Dest} {k : BitVec 5} {x y v : DWord}
    (e : s.performAtomic wid cid crew tid ea d key k x y = some (v, s1)) : outerOf s1 = outerOf s := by
  unfold State.performAtomic at e
  dsimp only at e
  split at e
  · obtain ⟨s2, h, e⟩ := Option.map_eq_some_iff.mp e
    cases e
    rw [← outerOf_settleWrite h]
    split <;> simp
  · split_ifs at e
    · obtain ⟨s2, h, e⟩ := Option.map_eq_some_iff.mp e
      cases e
      rw [← outerOf_drainIf h]
      split <;> simp
    · obtain ⟨s2, h, e⟩ := Option.map_eq_some_iff.mp e
      cases e
      simp [outerOf_drainIf h]

end

/-! ## Queues (R201 to R203, R218, R255) -/

section
variable (s : State)

@[simp] theorem outerOf_fresh : outerOf s.fresh.2 = outerOf s := rfl
@[simp] theorem outerOf_addOp (cid : Nat) (cls : EngClass) (id : Nat) : outerOf (s.addOp cid cls id) = outerOf s := rfl
@[simp] theorem outerOf_noteLand (t : TRef) (p : Pend) : outerOf (s.noteLand t p) = outerOf s := rfl
@[simp] theorem outerOf_updSmp (k : Nat) (f : SmpCtx → SmpCtx) : outerOf (s.updSmp k f) = outerOf s := rfl
@[simp] theorem outerOf_ringAcquire (w : Who) (p : DWord) : outerOf (s.ringAcquire w p) = outerOf s := by
  unfold State.ringAcquire
  split_ifs
  · rfl
  · split <;> rfl
@[simp] theorem outerOf_smpPoke (a : CtxRef) (off v : Nat) : outerOf (s.smpPoke a off v) = outerOf s := by
  unfold State.smpPoke
  dsimp only
  split
  · rfl
  · split_ifs
    · rfl
    · split
      next h => rw [outerOf_put, outerOf_locate h]
      next => rfl
@[simp] theorem outerOf_dropRows (cid n : Nat) : outerOf (s.dropRows cid n) = outerOf s := rfl
@[simp] theorem outerOf_dropPacket (t : TRef) (q : Nat) : outerOf (s.dropPacket t q) = outerOf s := by
  unfold State.dropPacket; split <;> rfl

end

/-- What a push or a pop leaves when it is done. -/
def QLeaves (w : Outer) : QOut → Prop
  | .ok s _ => outerOf s = w
  | _ => True
/-- What a ring's header leaves when it is read. -/
def HdrLeaves (w : Outer) : RingHdr → Prop
  | .ok s .. => outerOf s = w
  | .bad q => QLeaves w q

section
variable (s : State)

theorem ringHdr_leaves (w : Who) (p : DWord) : HdrLeaves (outerOf s) (s.ringHdr w p) := by
  unfold State.ringHdr
  split
  · trivial
  · split_ifs
    · trivial
    · trivial
    · split
      · trivial
      next h =>
        dsimp only
        split_ifs
        · trivial
        · exact outerOf_locate h
theorem ringPop_leaves (w : Who) (p : DWord) : QLeaves (outerOf s) (s.ringPop w p) := by
  have hdr := ringHdr_leaves s w p
  unfold State.ringPop
  split
  next h => rwa [h] at hdr
  next h =>
    rw [h] at hdr
    split_ifs
    · trivial
    · dsimp only
      split
      · trivial
      · split
        · trivial
        next h2 => exact ((outerOf_ringAcquire ..).trans (outerOf_put ..)).trans ((outerOf_locate h2).trans hdr)
theorem ringPush_leaves (w : Who) (p : DWord) (v : Word) : QLeaves (outerOf s) (s.ringPush w p v) := by
  have hdr := ringHdr_leaves s w p
  unfold State.ringPush
  split
  next h => rwa [h] at hdr
  next h =>
    rw [h] at hdr
    split_ifs
    · trivial
    · dsimp only
      split
      · trivial
      · split
        · trivial
        next h2 => exact ((outerOf_put ..).trans (outerOf_put ..)).trans ((outerOf_locate h2).trans hdr)
theorem popHitWord_leaves (t : TRef) (q : BitVec 3) : QLeaves (outerOf s) (s.popHitWord t q) := by
  unfold State.popHitWord
  split
  · trivial
  · dsimp only; split_ifs <;> rfl
theorem takeFront_leaves (t : TRef) (q : BitVec 3) : QLeaves (outerOf s) (s.takeFront t q) := by
  unfold State.takeFront
  split
  · trivial
  · dsimp only
    split
    · trivial
    · rfl
  · exact popHitWord_leaves ..
  · exact ringPop_leaves ..
  · trivial

end

section
variable {s s1 : State}

theorem outerOf_takeFront {t : TRef} {q : BitVec 3} {w : Word} (e : s.takeFront t q = .ok s1 w) :
    outerOf s1 = outerOf s := by
  have := takeFront_leaves s t q
  rwa [e] at this
theorem outerOf_landReservation {id : QueueId} (e : s.landReservation id = some s1) : outerOf s1 = outerOf s := by
  unfold State.landReservation at e
  split at e
  · cases e
  · split at e
    · cases e
    · split at e
      · split at e
        next h => cases e; exact (outerOf_takeFront h :)
        next => cases e
      · cases e

end

section
variable (s : State)

@[simp] theorem outerOf_landReservations (id : QueueId) (n : Nat) : outerOf (s.landReservations id n) = outerOf s := by
  induction n generalizing s with
  | zero => rfl
  | succ n ih =>
    rw [State.landReservations]
    split
    next h => rw [ih, outerOf_landReservation h]
    next => rfl
theorem popWord_leaves (t : TRef) (q : BitVec 3) : QLeaves (outerOf s) (s.popWord t q) := by
  have front (n : Nat) := takeFront_leaves (s.landReservations (s.queueId t q) n) t q
  simp only [outerOf_landReservations] at front
  unfold State.popWord
  dsimp only
  split
  · trivial
  case h_5 => trivial
  all_goals
    split_ifs
    · rfl
    · trivial
    · exact front _
theorem feedWord_leaves (t : TRef) (q : BitVec 3) (x : Nat) (addr : DWord) (w : Word) :
    QLeaves (outerOf s) (s.feedWord t q x addr w) := by
  unfold State.feedWord
  dsimp only
  split
  · split
    · rfl
    · split_ifs
      · trivial
      · rfl
  · split_ifs
    · rfl
    · trivial
    · rfl

end

end Sys2Proof.Proofs

/-! PROOF. What a run's own steps leave of the settings: the landing of results, traps, parks and the queue operands of
lane words. -/

namespace Sys2Proof.Proofs

open Sys2Proof Sys2Proof.Machine Sys2Proof.Safety Sys2Proof.Laws

/-! ## Pushes (R201, R203, R218) -/

theorem outerOf_smpCan {s s1 : State} {a : CtxRef} (e : s.smpCan a = .wait s1) : outerOf s1 = outerOf s := by
  unfold State.smpCan at e
  dsimp only at e
  split at e
  · cases e
  · split_ifs at e
    · cases e; simp
    · split at e <;> cases e

section
variable (s : State)

@[simp] theorem outerOf_smpPumps (key n : Nat) : outerOf (smpPumps key n s) = outerOf s := by
  induction n generalizing s with
  | zero => rfl
  | succ n ih =>
    rw [smpPumps]
    split
    · rfl
    next c a c1 _ =>
      have gone : outerOf (((s.updSmp key fun _ => c1).dropEng c.op).smpPoke a 60 c1.logits.length) = outerOf s :=
        outerOf_smpPoke ..
      dsimp only
      split_ifs
      · rw [ih, gone]
      · split
        next h => exact outerOf_smpCan h
        · exact outerOf_engFault ..
        · rw [ih, gone]
      · rfl
@[simp] theorem outerOf_smpPump (key : Nat) : outerOf (s.smpPump key) = outerOf s := outerOf_smpPumps ..
@[simp] theorem outerOf_smpDo (key : Nat) (f : SmpCtx → SmpCtx) : outerOf (s.smpDo key f) = outerOf s := outerOf_smpPump ..
theorem pushWord_leaves (t : TRef) (q : BitVec 3) (addr : DWord) (w : Word) :
    QLeaves (outerOf s) (s.pushWord t q addr w) := by
  unfold State.pushWord
  split <;> refine iteInduction (motive := QLeaves (outerOf s)) (fun _ => rfl) fun _ => ?_
  · trivial
  · exact feedWord_leaves ..
  · exact ringPush_leaves ..
  · dsimp only
    split
    · trivial
    · exact outerOf_smpDo ..
  · trivial
  · trivial

end

section
variable {s s1 : State}

theorem outerOf_pushWord {t : TRef} {q : BitVec 3} {addr : DWord} {w x : Word} (e : s.pushWord t q addr w = .ok s1 x) :
    outerOf s1 = outerOf s := by
  have := pushWord_leaves s t q addr w
  rwa [e] at this
theorem outerOf_popWord {t : TRef} {q : BitVec 3} {w : Word} (e : s.popWord t q = .ok s1 w) : outerOf s1 = outerOf s := by
  have := popWord_leaves s t q
  rwa [e] at this
theorem outerOf_pushGroup {t : TRef} {q : BitVec 3} {addr : DWord} {ws : List Word} {x : Word}
    (e : s.pushGroup t q addr ws = .ok s1 x) : outerOf s1 = outerOf s := by
  induction ws generalizing s with
  | nil => cases e; rfl
  | cons w ws ih =>
    rw [State.pushGroup] at e
    split at e
    next h => exact (ih e).trans (outerOf_pushWord h)
    next no => exact absurd e (no _ _)

/-! ## Results that land, traps and the ends of words (R22, R169, R170) -/

theorem outerOf_landOne {t : TRef} {p : Pend} (e : s.landOne t p = some s1) : outerOf s1 = outerOf s := by
  unfold State.landOne at e
  dsimp only at e
  split at e
  case h_5 =>
    split_ifs at e
    cases e
    simp
  all_goals cases e
  all_goals rfl

end

section
variable (s : State)

@[simp] theorem outerOf_landAll (t : TRef) : outerOf (s.landAll t) = outerOf s := by
  refine outerOf_foldl (fun s p => ?_) _ _
  split_ifs
  · cases h : s.landOne t p with
    | none => rfl
    | some s1 => exact outerOf_landOne h
  · rfl
@[simp] theorem outerOf_dropRuns : outerOf s.dropRuns = outerOf s := rfl

end

theorem outerOf_readVector {s s1 : State} {cid : Nat} {cause : Byte} {v : Vector_}
    (e : s.readVector cid cause = some (s1, v)) : outerOf s1 = outerOf s := by
  unfold State.readVector at e
  dsimp only at e
  split_ifs at e
  · cases e; rfl
  · split at e
    · cases e; rfl
    · split at e
      · cases e; rfl
      next h =>
        obtain ⟨s2, settled, e⟩ := Option.map_eq_some_iff.mp e
        rw [← outerOf_locate h, ← outerOf_settleRead settled]
        split_ifs at e <;> cases e <;> rfl

section
variable (s : State)

@[simp] theorem outerOf_enterTrap (cid : Nat) : outerOf (s.enterTrap cid) = outerOf s := by
  have landed (ms : List Thread) : outerOf (ms.foldl (fun acc t => acc.commit t.ref)
      (ms.foldl (fun acc t => acc.landAll t.ref) s)) = outerOf s := by
    rw [outerOf_foldl fun _ _ => outerOf_commit .., outerOf_foldl fun _ _ => outerOf_landAll ..]
  unfold State.enterTrap
  dsimp only
  split
  · simp
  · split
    · rfl
    · split
      · rfl
      · simp
      · split
        next h => exact (outerOf_openFault h :)
        next => rfl
      next h =>
        refine (outerOf_dropRuns _).trans (Eq.trans ?_ ((outerOf_readVector h).trans (landed _)))
        refine Eq.trans (show _ = outerOf (List.foldl _ _ _) from rfl) (outerOf_foldl ?_ _ _)
        exact fun _ _ => rfl
@[simp] theorem outerOf_tryEnter (cid : Nat) : outerOf (s.tryEnter cid) = outerOf s := by
  unfold State.tryEnter
  dsimp only
  split_ifs
  · simp
  · exact outerOf_foldl (fun _ _ => outerOf_sealAt ..) _ _
  · rfl
@[simp] theorem outerOf_enterAll : outerOf s.enterAll = outerOf s := outerOf_foldl (fun _ _ => outerOf_tryEnter ..) _ _
@[simp] theorem outerOf_settle : outerOf s.settle = outerOf s := by
  rw [State.settle, outerOf_enterAll, outerOf_dropRuns]

/-- The bookkeeping of a run leaves the settings. -/
theorem outerOf_runKeeps (w : Outer) : RunKeeps fun s => outerOf s = w where
  run _ _ _ p := p
  raise _ _ _ p := p
  settle s p := (outerOf_settle s).trans p

@[simp] theorem outerOf_raise (t : TRef) (ti : TrapInfo) : outerOf (s.raise t ti) = outerOf s := rfl
@[simp] theorem outerOf_leaveRun (k : RunKey) (t : TRef) : outerOf (s.leaveRun k t) = outerOf s := rfl
@[simp] theorem outerOf_finishWord (k : RunKey) (left : Bool) : outerOf (s.finishWord k left) = outerOf s :=
  (outerOf_runKeeps (outerOf s)).finish s k left rfl
@[simp] theorem outerOf_parkRun (k : RunKey) (left : Bool) (why : ParkWhy) : outerOf (s.parkRun k left why) = outerOf s :=
  (outerOf_runKeeps (outerOf s)).park s k left why rfl
@[simp] theorem outerOf_wakeRing (t : TRef) (q : BitVec 3) : outerOf (s.wakeRing t q) = outerOf s := by
  unfold State.wakeRing
  split
  · split <;> simp
  · split <;> simp
  · rfl
@[simp] theorem outerOf_abortRegion (k : RunKey) (t : TRef) (pc : DWord) : outerOf (s.abortRegion k t pc) = outerOf s := by
  unfold State.abortRegion
  simp
@[simp] theorem outerOf_commitFault (r : Run) (t : TRef) (kind ia : Nat) (ea : DWord) (a : Byte) :
    outerOf (s.commitFault r t kind ia ea a) = outerOf s := by
  unfold State.commitFault
  simp
@[simp] theorem outerOf_accessFault (r : Run) (t : TRef) (kind ia : Nat) (ea : DWord) (a : Byte) :
    outerOf (s.accessFault r t kind ia ea a) = outerOf s := by
  unfold State.accessFault
  simp

/-! ## Queue operands (R201, R202) -/

/-- A queue operation's outcome leaves its thread's state, or that of a done operation, as it is. -/
theorem outerOf_queueRes {w : Outer} (hs : outerOf s = w) (r : Run) (t : TRef) (q : BitVec 3) {o : QOut}
    (ho : QLeaves w o) : outerOf (resState (queueRes s r t q o)) = w := by
  cases o with
  | ok s1 x => exact ho
  | wait => exact ((outerOf_wakeRing ..).trans (outerOf_commitHere ..)).trans hs
  | trap c sub a => exact hs
  | acc st ea => exact hs
  | fault k ia sp ea => exact (outerOf_commitFault ..).trans hs

/-- What pops leave: the state after them, or the thread's result. -/
def PopLeaves (w : Outer) : State × Option ThrRes → Prop
  | (s, none) => outerOf s = w
  | (s, some res) => outerOf s = w ∧ outerOf (resState res) = w

theorem popAll_leaves {w : Outer} (s0 : State) (h0 : outerOf s0 = w) (r : Run) (t : TRef) (cs : List Code)
    (hs : outerOf s = w) : PopLeaves w (popAll s0 r t cs s) := by
  induction cs generalizing s with
  | nil => exact hs
  | cons c cs ih =>
    rw [popAll_cons]
    split
    · exact ih _ ((outerOf_updThread ..).trans hs)
    · have popped := popWord_leaves (s.commitHere r t) t (queueOf c)
      rw [outerOf_commitHere, hs] at popped
      generalize (s.commitHere r t).popWord t (queueOf c) = o at popped ⊢
      cases o with
      | ok s1 x => exact ih _ ((outerOf_updThread ..).trans popped)
      | wait => exact ⟨hs, outerOf_queueRes s hs r t _ trivial⟩
      | trap | acc | fault => exact ⟨hs, outerOf_queueRes s0 h0 r t _ popped⟩

end

/-- A lane word's work for one thread leaves the settings, however it ends. -/
def ThrKeeps (f : Run → State → TRef → ThrRes) : Prop := ∀ r s t, outerOf (resState (f r s t)) = outerOf s

/-- A word that leaves the settings leaves them with its queue sources popped. -/
theorem popFirst_keeps {srcs : List Code} {f : Run → State → TRef → ThrRes} (hf : ThrKeeps f) :
    ThrKeeps (popFirst srcs f) := by
  intro r s t
  unfold popFirst
  split
  · exact hf ..
  · have popped := popAll_leaves s s rfl r t (queueCodes srcs) rfl
    split
    next h => simp only [*] at popped; exact popped.2
    next h =>
      simp only [*] at popped
      have done_ := (hf r _ t).trans popped
      split
      next h2 => rw [h2] at done_; exact done_
      · rfl
      · exact done_

section
variable {s s1 : State}

theorem outerOf_pushCommit {r : Run} {t : TRef} {q : BitVec 3} (e : s.pushCommit r t q = some s1) :
    outerOf s1 = outerOf s := by
  unfold State.pushCommit at e
  dsimp only at e
  generalize (match (s.thread t).bind q with | .ringOut p => if ptrSpace p = 2 then 3 else 1 | _ => 1) = scope at e
  split_ifs at e
  · cases e; simp
  · exact (outerOf_performed e).trans (outerOf_commitHere ..)

end

theorem qLeaves_of_not_ok {w : Outer} {o : QOut} (no : ∀ s x, o = .ok s x → False) : QLeaves w o := by
  cases o with
  | ok s x => exact (no s x rfl).elim
  | _ => trivial
/-- The settings after a push are those of the state pushed from, or those of the state that the word would restart
from. -/
theorem outerOf_pushLast (r : Run) (s : State) (t : TRef) (s1 : State) :
    outerOf (resState (pushLast r s t s1)) = outerOf s1 ∨ outerOf (resState (pushLast r s t s1)) = outerOf s := by
  unfold pushLast
  split
  · exact .inl rfl
  · split
    · exact .inr (outerOf_commitHere ..)
    next h =>
      split
      next h2 => exact .inl ((outerOf_pushWord h2).trans (outerOf_pushCommit h))
      next no => exact .inr (outerOf_queueRes s rfl r t _ (qLeaves_of_not_ok no))
theorem pushLast_leaves {w : Outer} {s s1 : State} (hs : outerOf s = w) (h1 : outerOf s1 = w) (r : Run) (t : TRef) :
    outerOf (resState (pushLast r s t s1)) = w :=
  (outerOf_pushLast r s t s1).elim (·.trans h1) (·.trans hs)
theorem aluThread_keeps {srcs : List Code} {f : LaneEnv → Thread → Thread} : ThrKeeps (aluThread srcs f) :=
  popFirst_keeps fun r _ t => pushLast_leaves rfl (outerOf_updThread ..) r t
theorem jumpTo_keeps {target : LaneEnv → Thread → DWord} {f : Run → Thread → Thread} : ThrKeeps (jumpTo target f) := by
  intro r s t
  unfold jumpTo
  dsimp only
  split_ifs <;> rfl
theorem crossEnd_keeps {pops : Bool} {after : LaneEnv → Thread → Thread} : ThrKeeps (crossEnd pops after) := by
  intro r s t
  have pushed := pushLast_leaves (w := outerOf s) rfl rfl r t
  unfold crossEnd
  split
  next h => rw [h] at pushed; exact pushed
  · exact pushed
theorem outerOf_popEach {w : Outer} (r : Run) (cs : List Code) (ts : List TRef) (s : State) (left : Bool)
    (hs : outerOf s = w) : outerOf (popEach r cs ts s left).1 = w := by
  induction ts generalizing s left with
  | nil => exact hs
  | cons t ts ih =>
    have popped := popAll_leaves s s hs r t cs hs
    rw [popEach]
    generalize popAll s r t cs s = o at popped ⊢
    match o, popped with
    | (s1, none), h => exact ih _ _ h
    | (s1, some (.ok s2)), h => exact ih _ _ h.2
    | (s1, some (.trap s2 ti)), h => exact ih _ _ h.2
    | (s1, some (.leave s2)), h => exact ih _ _ h.2
    | (s1, some (.park s2 why)), h => exact h.2

end Sys2Proof.Proofs

/-! PROOF. What the loads, stores, atomics, barriers and queue words of lanes leave of the settings. -/

namespace Sys2Proof.Proofs

open Sys2Proof Sys2Proof.Machine Sys2Proof.Safety Sys2Proof.Laws

theorem resState_ite {w : Outer} {p : Prop} [Decidable p] {x y : ThrRes} (hx : outerOf (resState x) = w)
    (hy : outerOf (resState y) = w) : outerOf (resState (if p then x else y)) = w :=
  iteInduction (motive := fun u => outerOf (resState u) = w) (fun _ => hx) fun _ => hy

/-! ## Loads (R173 to R181) -/

section
variable (s : State)

@[simp] theorem outerOf_countLoss (c cid line : Nat) : outerOf (s.countLoss c cid line) = outerOf s := by
  unfold State.countLoss
  split_ifs <;> simp
@[simp] theorem outerOf_noteRead (c : Nat) (t : TRef) (k n : Nat) : outerOf (s.noteRead c t k n) = outerOf s := rfl

end

section
variable {s s1 : State}

theorem outerOf_missAt {c cid line key : Nat} {secs : List Nat} {allocate ef : Bool}
    (e : s.missAt c cid line key secs allocate ef = some s1) : outerOf s1 = outerOf s := by
  unfold State.missAt at e
  dsimp only at e
  split_ifs at e <;> cases e <;> exact outerOf_countLoss ..
theorem outerOf_readBase {c cid wid k n : Nat} {pc : DWord} {w : Word} {kind : ReadKind} {d : Dest} {ea : DWord}
    {bs : List Byte} (e : s.readBase c cid wid pc w kind d ea k n = .ok s1 bs) : outerOf s1 = outerOf s := by
  have low (t : State) (p : Prop) [Decidable p] (h : outerOf t = outerOf s) :
      outerOf (if p then t.dcLow k else t) = outerOf s :=
    iteInduction (motive := fun u => outerOf u = outerOf s) (fun _ => h) fun _ => h
  unfold State.readBase at e
  dsimp only at e
  split at e
  · cases e; exact low _ _ (outerOf_updCol ..)
  · split at e
    · cases e
    · split at e
      · split at e
        next h => cases e; exact low _ _ (outerOf_missAt h)
        · cases e
      · split at e
        · cases e; exact outerOf_peerRead ..
        · cases e; exact low _ _ (outerOf_updCol ..)

end

theorem loadThread_keeps {kind : ReadKind} {size n : Nat} {f : Nat → List Word} {d a o : Code} :
    ThrKeeps (loadThread kind size n f d a o) := by
  intro r s t
  unfold loadThread
  dsimp only
  split
  · rfl
  · split
    · rfl
    · split
      · exact outerOf_wakePool ..
      · split
        · exact outerOf_accessFault ..
        next located =>
          have at_ := outerOf_locate located
          split
          · exact at_
          next settled =>
            have ready := (outerOf_settleRead settled).trans at_
            split
            · exact (outerOf_acquired ..).trans ready
            · exact (outerOf_updThread ..).trans ((outerOf_acquired ..).trans ready)
            next read =>
              have base := (outerOf_readBase read).trans ((outerOf_acquired ..).trans ready)
              refine (outerOf_updThread ..).trans (Eq.trans ?_ base)
              split_ifs <;> simp

/-! ## Stores (R176, R182, R291) -/

theorem storeThread_keeps {policy : BitVec 2} {size : Nat} {kind : AccKind} {op : Nat → StoreOp} {d a o : Code} :
    ThrKeeps (storeThread policy size kind op d a o) := by
  intro r s t
  unfold storeThread
  dsimp only
  split
  · rfl
  · split
    · rfl
    · refine resState_ite rfl (resState_ite (outerOf_wakePool ..) ?_)
      split
      · exact outerOf_accessFault ..
      next located =>
        have at_ := outerOf_locate located
        split
        next stored =>
          refine (outerOf_updThread ..).trans (Eq.trans ?_ at_)
          split_ifs at stored
          · cases stored; simp
          · exact outerOf_scratchStore stored
        · exact at_

/-- Where a commit point was sealed, the word goes on from it. -/
theorem sealedTurn_keeps {s : State} {r : Run} {t : TRef} {f : Nat → State → ThrRes} {g : ThrRes}
    (hf : ∀ n, outerOf (resState (f n (s.commitAt r t))) = outerOf s) (hg : outerOf (resState g) = outerOf s) :
    outerOf (resState (s.sealedTurn r t f g)) = outerOf s := by
  unfold State.sealedTurn
  split
  · exact hf _
  · exact hg
theorem sealedFirst_keeps {s : State} {r : Run} {t : TRef} {g : ThrRes} (hg : outerOf (resState g) = outerOf s) :
    outerOf (resState (s.sealedFirst r t g)) = outerOf s := by
  unfold State.sealedFirst
  split
  · exact outerOf_sealAt s t r.wordAddr r.wordAddr none false
  · exact hg

theorem releaseThread_keeps {scope size : Nat} {d a o : Code} : ThrKeeps (releaseThread scope size d a o) := by
  intro r s t
  unfold releaseThread
  dsimp only
  split
  · simp [resState]
  · refine sealedTurn_keeps (fun _ => by simp [resState]) ?_
    split
    · rfl
    · refine resState_ite (outerOf_wakePool ..) ?_
      split
      · exact sealedFirst_keeps (outerOf_commitFault ..)
      next s1 k located =>
        have at_ := outerOf_locate located
        have here := (outerOf_commitHere s1 r t).trans at_
        refine resState_ite ((outerOf_sealAt ..).trans at_) ?_
        split
        next stored =>
          obtain ⟨s3, ready, stored⟩ := Option.bind_eq_some_iff.1 stored
          have ready3 : outerOf s3 = outerOf (s1.commitHere r t) := by
            split_ifs at ready
            · cases ready; rfl
            · exact outerOf_performed ready
          refine ((outerOf_updThread ..).trans (outerOf_commitAt ..)).trans (Eq.trans ?_ (ready3.trans here))
          split_ifs at stored
          · cases stored; simp
          · exact outerOf_scratchStore stored
        · exact here

/-! ## Atomics (R164, R185) -/

theorem atomThread_keeps {size n : Nat} {host : Bool} {f : LaneEnv → Thread → BitVec 5 × DWord × DWord} {d a o : Code} :
    ThrKeeps (atomThread size n host f d a o) := by
  intro r s t
  unfold atomThread
  dsimp only
  split
  · simp [resState]
  · refine sealedTurn_keeps (fun _ => by simp [resState]) ?_
    split
    · rfl
    · refine resState_ite (sealedFirst_keeps (outerOf_commitHere ..)) (resState_ite (outerOf_wakePool ..) ?_)
      split
      · exact sealedFirst_keeps (outerOf_commitFault ..)
      next s1 k located =>
        have at_ := outerOf_locate located
        have here := (outerOf_commitHere s1 r t).trans at_
        have ends {s2 : State} (h : outerOf s2 = outerOf s) (g : Thread → Thread) :
            outerOf ((s2.commitAt r t).updThread t g) = outerOf s :=
          (outerOf_updThread ..).trans ((outerOf_commitAt ..).trans h)
        refine resState_ite ((outerOf_sealAt ..).trans at_) (resState_ite (ends ((outerOf_release ..).trans here) _) ?_)
        split
        · exact ends here _
        · split
          next done_ =>
            obtain ⟨s3, seen, done_⟩ := Option.bind_eq_some_iff.1 done_
            exact ends ((outerOf_performAtomic done_).trans ((outerOf_settleSeen seen).trans here)) _
          · exact here

/-! ## Stash and prefetch (R187 to R193) -/

theorem stashMapThread_keeps {d a : Code} {b : BSrc} : ThrKeeps (stashMapThread d a b) := by
  intro r s t
  unfold stashMapThread
  dsimp only
  split
  · rfl
  · split <;> simp [resState]
theorem stashEnd_keeps {keepMap : Bool} {b : BSrc} : ThrKeeps (stashEnd keepMap b) := by
  intro r s t
  unfold stashEnd
  dsimp only
  split
  · rfl
  · split
    · rfl
    · split
      · simp [resState]
      · refine (outerOf_updThread ..).trans ?_
        split_ifs <;> simp
theorem outerOf_prefetchLine {s s1 : State} {wid ia k : Nat} {p : DWord} (e : s.prefetchLine wid p = some (s1, ia, k)) :
    outerOf s1 = outerOf s := by
  unfold State.prefetchLine at e
  split at e
  · split at e
    · cases e
    · split at e
      next h =>
        split at e
        · cases e
        · cases e; exact (outerOf_lineFill ..).trans (outerOf_translate h)
      · cases e
  · cases e
theorem prefetchThread_keeps {a : Code} {b : BSrc} : ThrKeeps (prefetchThread a b) := by
  intro r s t
  unfold prefetchThread
  dsimp only
  split
  · rfl
  next h =>
    have line : outerOf _ = outerOf s := outerOf_prefetchLine (Option.ite_none_left_eq_some.1 h).2
    split
    · exact line
    · split
      next missed => exact (outerOf_updThread ..).trans ((outerOf_missAt missed).trans line)
      · exact line

/-! ## Barriers (R194 to R199) -/

theorem barArriveThread_keeps {s0 : State} {d a : Code} {b : BSrc} : ThrKeeps (barArriveThread s0 d a b) := by
  intro r s t
  unfold barArriveThread
  dsimp only
  split
  · rfl
  · split
    · simp [resState]
    · split
      · exact outerOf_commitHere ..
      next done_ =>
        exact ((outerOf_updThread ..).trans (outerOf_commitAt ..)).trans
          ((outerOf_updWg ..).trans ((outerOf_performed done_).trans (outerOf_commitHere ..)))
theorem barWaitThread_keeps {a : Code} {b : BSrc} : ThrKeeps (barWaitThread a b) := by
  intro r s t
  unfold barWaitThread
  dsimp only
  split_ifs <;> rfl

section
variable (s : State)

@[simp] theorem outerOf_noteTb (k : Nat) : outerOf (s.noteTb k) = outerOf s := by
  unfold State.noteTb
  split_ifs <;> rfl
@[simp] theorem outerOf_usedBy (k : RunKey) : outerOf (s.usedBy k) = outerOf s := rfl
@[simp] theorem outerOf_setTb (k : Nat) (o : TbObj) : outerOf (s.setTb k o) = outerOf s :=
  (outerOf_put s k (toLe 16 o.toNat) :)

end

/-- What a step that may end its thread's word leaves: the state it goes on with, or the thread's result. -/
def StepLeaves {α : Type} (w : Outer) : Except ThrRes (State × α) → Prop
  | .ok (s, _) => outerOf s = w
  | .error res => outerOf (resState res) = w

theorem tbAt_leaves (s : State) (r : Run) (t : TRef) (p : DWord) (commits : Bool) :
    StepLeaves (outerOf s) (s.tbAt r t p commits) := by
  unfold State.tbAt
  split
  · rfl
  · split
    · rfl
    · split
      · exact outerOf_wakePool ..
      · split
        · cases commits
          · exact outerOf_accessFault ..
          · exact outerOf_commitFault ..
        next h =>
          refine Eq.trans ?_ (outerOf_locate h)
          split_ifs <;> simp
theorem tbPost_keeps {rel : Bool} {hi : Nat} {a : Code} {b : BSrc} {f : LaneEnv → State → Nat → Nat → State}
    (hf : ∀ e s k n, outerOf (f e s k n) = outerOf s) : ThrKeeps (tbPost rel hi a b f) := by
  intro r s t
  have reached := tbAt_leaves s r t ((s.env r t.cid).read64 (s.thread t) a) true
  unfold tbPost
  dsimp only
  split
  next h => rwa [h] at reached
  next h =>
    rw [h] at reached
    split
    · rfl
    · have here := (outerOf_commitHere _ r t).trans reached
      split
      · exact here
      next done_ =>
        refine (outerOf_commitAt ..).trans ((outerOf_usedBy ..).trans ((hf ..).trans (Eq.trans ?_ here)))
        split at done_
        · exact outerOf_performed done_
        · cases done_; rfl
theorem outerOf_tbArriveAt (d : Code) (t : TRef) (e : LaneEnv) (s : State) (k n : Nat) :
    outerOf (tbArriveAt d t e s k n) = outerOf s := by
  unfold tbArriveAt
  dsimp only
  split_ifs <;> simp
theorem thenPush_keeps {f : Run → State → TRef → ThrRes} (hf : ThrKeeps f) : ThrKeeps (thenPush f) := by
  intro r s t
  have done_ := hf r s t
  unfold thenPush
  split
  next h => rw [h] at done_; exact pushLast_leaves rfl done_ r t
  · exact done_
theorem tbWaitThread_keeps {wait : Bool} {d a : Code} {b : BSrc} : ThrKeeps (tbWaitThread wait d a b) := by
  intro r s t
  have reached := tbAt_leaves s r t ((s.env r t.cid).read64 (s.thread t) a) false
  have ends {s1 : State} (h : outerOf s1 = outerOf s) (p : Prop) [Decidable p] (g : Thread → Thread) :
      outerOf ((if p then s1.acquired (s.crewCol t.cid) 3 else s1).updThread t g) = outerOf s :=
    iteInduction (motive := fun u => outerOf u = outerOf s) (fun _ => (outerOf_acquired ..).trans h) fun _ => h
  unfold tbWaitThread
  dsimp only
  split
  · exact ends rfl _ _
  · split
    next h => rwa [h] at reached
    next h =>
      rw [h] at reached
      split
      · exact ends reached _ _
      · exact (outerOf_updRun ..).trans reached

/-! ## Queue words (R200 to R204) -/

theorem qbindThread_keeps {d a : Code} {b : BSrc} : ThrKeeps (qbindThread d a b) := by
  intro r s t
  unfold qbindThread
  dsimp only
  split
  · rfl
  · split <;> simp [resState]
theorem pushThread_keeps {q : BitVec 3} {ws : List Word} : ThrKeeps (pushThread q ws) := by
  intro r s t
  unfold pushThread
  split
  · exact outerOf_commitHere ..
  next ready =>
    split
    next pushed =>
      exact ((outerOf_updThread ..).trans (outerOf_commitAt ..)).trans
        ((outerOf_pushGroup pushed).trans (outerOf_pushCommit ready))
    next no => exact outerOf_queueRes s rfl r t q (qLeaves_of_not_ok no)
theorem qpushrThread_keeps {d a : Code} {b : BSrc} : ThrKeeps (qpushrThread d a b) := by
  intro r s t
  unfold qpushrThread
  dsimp only
  split
  · simp [resState]
  · split
    · rfl
    · split
      · rfl
      · rfl
      · exact pushThread_keeps r s t
theorem qpopThread_keeps {d a : Code} : ThrKeeps (qpopThread d a) := by
  intro r s t
  unfold qpopThread
  dsimp only
  split
  next bad =>
    refine outerOf_queueRes s rfl r t _ ?_
    split at bad
    next p _ =>
      have hdr := ringHdr_leaves s (s.whoCrew t.cid) p
      split at bad
      · cases bad
      · split at bad
        · cases bad
        next h => cases bad; rwa [h] at hdr
        · cases bad
    · cases bad
  · rfl
  case h_6 => rfl
  all_goals
    split
    · simp [resState]
    · simp [resState]
theorem ringFields_leaves (s : State) (r : Run) (t : TRef) (p : DWord) : StepLeaves (outerOf s) (s.ringFields r t p) := by
  unfold State.ringFields
  split
  · rfl
  · split
    · exact outerOf_wakePool ..
    · split
      · exact outerOf_accessFault ..
      next h => exact outerOf_locate h
theorem qstatOf_leaves (s : State) (r : Run) (t : TRef) (q : BitVec 3) : StepLeaves (outerOf s) (s.qstatOf r t q) := by
  unfold State.qstatOf
  dsimp only
  split
  case h_7 p _ | h_8 p _ =>
    have fields := ringFields_leaves s r t p
    split
    next h => rwa [h] at fields
    next h => rwa [h] at fields
  all_goals rfl
theorem qstatThread_keeps {d a : Code} : ThrKeeps (qstatThread d a) := by
  intro r s t
  have fields := qstatOf_leaves s r t (queueOf a)
  unfold qstatThread
  split
  next h => rwa [h] at fields
  next h => rw [h] at fields; exact fields
theorem ticketThread_keeps {d : Code} : ThrKeeps (ticketThread d) := by
  intro r s t
  unfold ticketThread
  dsimp only
  split_ifs <;> simp [resState]
theorem srdThread_keeps {d a : Code} {b : BSrc} : ThrKeeps (srdThread d a b) := by
  intro r s t
  have lands {s1 : State} (h : outerOf s1 = outerOf s) (p : Prop) [Decidable p] (g : Thread → Thread) :
      outerOf ((if p then s1.acquired (s1.crewCol t.cid) 4 else s1).updThread t g) = outerOf s :=
    iteInduction (motive := fun u => outerOf u = outerOf s) (fun _ => (outerOf_acquired ..).trans h) fun _ => h
  unfold srdThread
  dsimp only
  split
  · rfl
  · split
    · exact lands rfl _ _
    · exact lands (s1 := { s with freeCtr := s.freeCtr + 1 }) rfl _ _

end Sys2Proof.Proofs

/-! PROOF. What the engine words of lanes leave of the settings (08, 10, 11, 15 R395, 16 R402 to R407). -/

namespace Sys2Proof.Proofs

open Sys2Proof Sys2Proof.Machine Sys2Proof.Safety Sys2Proof.Laws

/-! ## Reads of a workgroup's objects (R240) -/

section
variable {s s1 : State}

theorem outerOf_destBytes {wid n i : Nat} {p : DWord} {d : Dest} {acc bs : List Byte}
    (e : destBytes wid p d n i acc s = .ok s1 bs) : outerOf s1 = outerOf s := by
  induction n generalizing i acc s with
  | zero => cases e; rfl
  | succ n ih =>
    rw [destBytes] at e
    split at e
    · cases e
    next h =>
      split_ifs at e
      exact (ih e).trans (outerOf_locate h)
theorem outerOf_readObj {wid n : Nat} {p : DWord} {align : Bool} {bs : List Byte}
    (e : s.readObj wid p n align = .ok s1 bs) : outerOf s1 = outerOf s := by
  unfold State.readObj at e
  split at e
  · cases e
  · split_ifs at e
    exact outerOf_destBytes e
theorem outerOf_objDown {wid n : Nat} {p : DWord} (e : s.objDown wid p n = some s1) : outerOf s1 = outerOf s := by
  unfold State.objDown at e
  split at e
  · split_ifs at e
    cases e
    exact outerOf_wakePool ..
  · cases e

/-! ## Issue (R240) -/

theorem outerOf_issueAt {r : Run} {t : TRef} (e : s.issueAt r t = some s1) : outerOf s1 = outerOf s :=
  (outerOf_performed e).trans (outerOf_commitHere ..)

end

theorem issueRead_leaves (s : State) (r : Run) (t : TRef) (p : DWord) (n : Nat) :
    StepLeaves (outerOf s) (s.issueRead r t p n) := by
  unfold State.issueRead
  dsimp only
  split
  · exact outerOf_commitHere ..
  · split
    next h => exact (outerOf_commitHere ..).trans (outerOf_objDown h)
    · split
      · exact outerOf_commitHere ..
      next h =>
        split
        case h_6 h2 => exact (outerOf_readObj h2).trans (outerOf_issueAt h)
        case h_2 => exact outerOf_commitFault ..
        all_goals rfl

section
variable {P : State → Prop} {s : State} (hs : ∀ s1, outerOf s1 = outerOf s → P s1)
include hs

/-- What holds of the states that keep the settings, and of those that the word goes on to, holds after an issue. -/
theorem issue_res {r : Run} {t : TRef} {f : State → ThrRes} (hf : ∀ s1, outerOf s1 = outerOf s → P (resState (f s1))) :
    P (resState (s.issue r t f)) := by
  unfold State.issue
  split
  · exact hs _ (outerOf_commitHere ..)
  next h => exact hf _ ((outerOf_updThread ..).trans (outerOf_issueAt h))
theorem handOver_res {r : Run} {t : TRef} {cls : EngClass} {f : State → Nat → State}
    (hf : ∀ s1 id, outerOf s1 = outerOf s → P (f s1 id)) : P (resState (s.handOver r t cls f)) := by
  unfold State.handOver
  refine iteInduction (motive := fun u => P (resState u)) (fun _ => hs _ (outerOf_commitHere ..)) fun _ => ?_
  exact issue_res hs fun s1 h => hf _ _ ((outerOf_addOp ..).trans h)

end

/-- A word that ends as a thread's result of settings that are left. -/
theorem resState_of_error {α : Type} {w : Outer} {e : Except ThrRes (State × α)} {res : ThrRes} (h : StepLeaves w e)
    (he : e = .error res) : outerOf (resState res) = w := by
  rwa [he] at h

/-! ## Transfer commands (R240 to R254) -/

section
variable (s : State)

@[simp] theorem outerOf_updXe (wid : Nat) (f : XeState → XeState) : outerOf (s.updXe wid f) = outerOf s := by
  unfold State.updXe
  split_ifs <;> rfl
@[simp] theorem outerOf_updChan (wid c : Nat) (f : Channel → Channel) : outerOf (s.updChan wid c f) = outerOf s :=
  outerOf_updXe ..
@[simp] theorem outerOf_updLut (wid n : Nat) (f : LutSlot → LutSlot) : outerOf (s.updLut wid n f) = outerOf s :=
  outerOf_updXe ..
@[simp] theorem outerOf_acceptXe (wid cid id : Nat) (k : XeKind) (d : XeDesc) (tb : Option DWord) :
    outerOf (s.acceptXe wid cid id k d tb) = outerOf s :=
  (outerOf_updCrew ..).trans (outerOf_updChan ..)
@[simp] theorem outerOf_updRay (id : Nat) (f : Ray → Ray) : outerOf (s.updRay id f) = outerOf s := rfl

end

theorem xeThread_keeps {k : XeKind} {d a : Code} {b : BSrc} : ThrKeeps (xeThread k d a b) := by
  intro r s t
  have read := issueRead_leaves s r t ((s.env r t.cid).read64 (s.thread t) a) 96
  unfold xeThread
  dsimp only
  split
  · simp [resState]
  · refine resState_ite rfl (resState_ite rfl ?_)
    split
    next h => exact resState_of_error read h
    · split
      · rfl
      · split
        · exact issue_res (P := fun u => outerOf u = outerOf s) (fun _ h => h) fun _ h => h
        · exact handOver_res (P := fun u => outerOf u = outerOf s) (fun _ h => h) fun _ _ h =>
            (outerOf_updThread ..).trans ((outerOf_acceptXe ..).trans h)
theorem lutThread_keeps {a : Code} {b : BSrc} : ThrKeeps (lutThread a b) := by
  intro r s t
  unfold lutThread
  dsimp only
  split
  · simp [resState]
  · refine resState_ite rfl ?_
    split
    · rfl
    · exact handOver_res (P := fun u => outerOf u = outerOf s) (fun _ h => h) fun _ _ h =>
        (outerOf_updThread ..).trans ((outerOf_updLut ..).trans h)

/-! ## Sampling and traversal (R255 to R268) -/

theorem smpCfgThread_keeps {a : Code} : ThrKeeps (smpCfgThread a) := by
  intro r s t
  have read := issueRead_leaves s r t ((s.env r t.cid).read64 (s.thread t) a) 64
  unfold smpCfgThread
  dsimp only
  split
  · simp [resState]
  · refine resState_ite rfl ?_
    split
    next h => exact resState_of_error read h
    next h =>
      rw [h] at read
      split
      · rfl
      · refine issue_res (P := fun u => outerOf u = outerOf s) (fun _ h => h.trans read) fun s2 h => ?_
        refine (outerOf_updThread ..).trans ((outerOf_smpDo ..).trans (Eq.trans ?_ (h.trans read)))
        split_ifs <;> rfl
theorem smpIssue_keeps {a : Code} {r : Run} {s : State} {t : TRef} {f : State → Nat → Nat → CtxRef → State}
    (hf : ∀ s1 key id at_, outerOf (f s1 key id at_) = outerOf s1) : outerOf (resState (smpIssue a r s t f)) = outerOf s := by
  unfold smpIssue
  dsimp only
  split
  · rfl
  · exact handOver_res (P := fun u => outerOf u = outerOf s) (fun _ h => h) fun _ _ h => (hf ..).trans h
theorem smpPushThread_keeps {a : Code} {b : BSrc} : ThrKeeps (smpPushThread a b) := by
  intro r s t
  unfold smpPushThread
  dsimp only
  split
  · simp [resState]
  · exact smpIssue_keeps fun _ _ _ _ => rfl
theorem smpDrawThread_keeps {d a : Code} : ThrKeeps (smpDrawThread d a) := by
  intro r s t
  unfold smpDrawThread
  dsimp only
  split
  · simp [resState]
  · exact smpIssue_keeps fun _ _ _ _ => rfl
theorem rtTraceThread_keeps {d a : Code} {b : BSrc} : ThrKeeps (rtTraceThread d a b) := by
  intro r s t
  unfold rtTraceThread
  dsimp only
  split
  · simp [resState]
  · split
    · split
      · rfl
      · split
        · rfl
        · split
          · exact outerOf_commitHere ..
          · exact handOver_res (P := fun u => outerOf u = outerOf s) (fun _ h => h) fun _ _ h => h
    · rfl
theorem rtContThread_keeps {b : BSrc} : ThrKeeps (rtContThread b) := by
  intro r s t
  unfold rtContThread
  dsimp only
  split
  · simp [resState]
  · split
    · rfl
    · split
      · rfl
      · exact issue_res (P := fun u => outerOf u = outerOf s) (fun _ h => h) fun _ h => h
/-- What several pops leave. -/
theorem popWords_leaves {w : Outer} (t : TRef) (q : BitVec 3) (n : Nat) (acc : List Word) (s : State)
    (hs : outerOf s = w) : outerOf (State.popWords t q n acc s).1 = w ∧
      ∀ o, (State.popWords t q n acc s).2.2 = some o → QLeaves w o := by
  induction n generalizing acc s with
  | zero => exact ⟨hs, fun _ h => by cases h⟩
  | succ n ih =>
    have popped := popWord_leaves s t q
    rw [State.popWords]
    split
    next h =>
      rw [h] at popped
      exact ih _ _ (Eq.trans popped hs)
    · rw [hs] at popped
      exact ⟨hs, fun _ h => by cases h; exact popped⟩
theorem rtPopThread_keeps {d a : Code} : ThrKeeps (rtPopThread d a) := by
  intro r s t
  obtain ⟨popped, stuck⟩ := popWords_leaves t (queueOf a) 4 [] (s.commitAt r t) (outerOf_commitAt s r t)
  unfold rtPopThread
  dsimp only
  split
  · simp [resState]
  · split
    next h => exact outerOf_queueRes s rfl r t _ (stuck _ (by rw [h]))
    next h => rw [h] at popped; exact popped

/-! ## Accesses of engines (R250) -/

/-- What an engine's access leaves, however it ends. -/
def EngLeaves (w : Outer) : EngOut → Prop
  | .ok s _ | .fail s _ _ | .wait s | .fault s _ _ _ => outerOf s = w

theorem engAt_leaves {w : Outer} {s : State} (hs : outerOf s = w) {wid : Nat} {p : DWord} {write : Bool}
    {f : State → Nat → EngOut} (hf : ∀ s1 k, outerOf s1 = w → EngLeaves w (f s1 k)) :
    EngLeaves w (s.engAt wid p write f) := by
  have ite {p : Prop} [Decidable p] {x y : EngOut} (hx : EngLeaves w x) (hy : EngLeaves w y) :
      EngLeaves w (if p then x else y) := iteInduction (motive := EngLeaves w) (fun _ => hx) fun _ => hy
  unfold State.engAt
  split
  · exact hs
  · refine ite hs (ite hs (ite ((outerOf_wakePool ..).trans hs) ?_))
    split
    · exact hs
    next h =>
      have at_ := (outerOf_locate h).trans hs
      exact ite at_ (ite at_ (hf _ _ at_))
theorem engByte_leaves {w : Outer} {s : State} (hs : outerOf s = w) (wid : Nat) (p : DWord) :
    EngLeaves w (s.engByte wid p) := by
  refine engAt_leaves hs fun s1 k h1 => ?_
  split
  · exact h1
  · split
    · exact h1
    next h => exact (outerOf_settleRead h).trans h1
theorem engBytes_leaves {w : Outer} (wid : Nat) (p : DWord) (n i : Nat) (acc : List Byte) {s : State}
    (hs : outerOf s = w) : EngLeaves w (engBytes wid p n i acc s) := by
  induction n generalizing i acc s with
  | zero => exact hs
  | succ n ih =>
    have read := engByte_leaves hs wid (ptrAdd p i)
    rw [engBytes]
    split
    next h => rw [h] at read; exact ih _ _ read
    · exact read
theorem engRead_leaves {w : Outer} {s : State} (hs : outerOf s = w) (wid : Nat) (p : DWord) (n : Nat) :
    EngLeaves w (s.engRead wid p n) := engBytes_leaves wid p n 0 [] hs
theorem engCan_leaves {w : Outer} (wid : Nat) (p : DWord) (n i : Nat) {s : State} (hs : outerOf s = w) :
    EngLeaves w (engCan wid p n i s) := by
  induction n generalizing i s with
  | zero => exact hs
  | succ n ih =>
    have can := engAt_leaves hs (wid := wid) (p := ptrAdd p i) (write := true) (f := fun s1 _ => .ok s1 [])
      fun _ _ h => h
    rw [engCan]
    split
    next h => rw [h] at can; exact ih _ can
    · exact can
theorem engPut_leaves {w : Outer} (wid : Nat) (p : DWord) (xs : List (Nat × List Byte)) {s : State}
    (hs : outerOf s = w) : EngLeaves w (engPut wid p xs s) := by
  induction xs generalizing s with
  | nil => exact hs
  | cons x xs ih =>
    have done_ := engAt_leaves hs (wid := wid) (p := ptrAdd p x.1) (write := true)
      (f := fun s1 k => .ok (if s1.hostFails k x.2.length then s1 else s1.put k x.2) [])
      fun _ _ h => iteInduction (motive := fun u => outerOf u = w) (fun _ => h) fun _ => (outerOf_put ..).trans h
    rw [engPut]
    split
    next h => rw [h] at done_; exact ih done_
    · exact done_
theorem engWrite_leaves {w : Outer} {s : State} (hs : outerOf s = w) (wid : Nat) (p : DWord) (bs : List Byte) :
    EngLeaves w (s.engWrite wid p bs) := by
  have can := engCan_leaves wid p bs.length 0 hs
  unfold State.engWrite
  split
  next h => rw [h] at can; exact engPut_leaves _ _ _ can
  · exact can
theorem outerOf_engWrite {s s1 : State} {wid : Nat} {p : DWord} {bs bs1 : List Byte} (e : s.engWrite wid p bs = .ok s1 bs1) :
    outerOf s1 = outerOf s := by
  have := engWrite_leaves (w := outerOf s) rfl wid p bs
  rwa [e] at this

/-! ## Entries of tile tables (R402 to R407) -/

section
variable (s : State)

@[simp] theorem outerOf_completeOp (cid id : Nat) : outerOf (s.completeOp cid id) = outerOf s := by
  unfold State.completeOp
  dsimp only
  split_ifs <;> rfl
@[simp] theorem outerOf_engQuit (id : Nat) : outerOf (s.engQuit id) = outerOf s := rfl
theorem outerOf_written (wid : Nat) (p : DWord) (bs : List Byte) :
    outerOf (match s.engWrite wid p bs with | .ok s1 _ => s1 | _ => s) = outerOf s := by
  split
  next h => exact outerOf_engWrite h
  · rfl
/-- An entry that is closed leaves its table. -/
theorem outerOf_closeColl (e : CollEntry) (status : Nat) (cause : Byte) :
    outerOf (s.closeColl e status cause) = { outerOf s with colls := s.colls.filter fun x => x.id != e.id } := by
  unfold State.closeColl
  dsimp only
  rw [outerOf_dropEng, outerOf_completeOp]
  have first := outerOf_written s (s.crew e.cid).wid (ptrAdd (ptrAdd e.table (64 * e.index)) 48) (toLe 8 s.time.toNat)
  have second (t : State) := outerOf_written t (s.crew e.cid).wid (ptrAdd (ptrAdd e.table (64 * e.index)) 40)
    (toLe 4 (status + cause.toNat * 256))
  exact congrArg (fun w : Outer => { w with colls := w.colls.filter fun x => x.id != e.id }) ((second _).trans first)
/-- The entries of tables with an identifier's ones marked as ending. -/
def markEnding (id : Nat) (fin : Nat × Byte) (cs : List CollEntry) : List CollEntry :=
  cs.map fun x => if x.id == id then { x with ending := some fin } else x
theorem mem_markEnding {id : Nat} {fin : Nat × Byte} {cs : List CollEntry} {x : CollEntry}
    (hx : x ∈ markEnding id fin cs) : x.ending.isSome = true ∨ x ∈ cs ∧ x.id ≠ id := by
  obtain ⟨y, hy, rfl⟩ := List.mem_map.1 hx
  split_ifs with h
  · exact .inl rfl
  · exact .inr ⟨hy, by simpa using h⟩
/-- An entry that ends leaves its table, or stays in it until its status can be written (R407). -/
theorem endEntry_leaves (e : CollEntry) (status : Nat) (cause : Byte) :
    ∃ cs, outerOf (s.endEntry e status cause) = { outerOf s with colls := cs } ∧
      ∀ x ∈ cs, x.ending.isSome = true ∨ x ∈ s.colls ∧ x.id ≠ e.id := by
  have closed (st : Nat) (c : Byte) : ∃ cs, outerOf (s.closeColl e st c) = { outerOf s with colls := cs } ∧
      ∀ x ∈ cs, x.ending.isSome = true ∨ x ∈ s.colls ∧ x.id ≠ e.id :=
    ⟨_, outerOf_closeColl s e st c, fun x hx => .inr (by simpa using hx)⟩
  have can := engCan_leaves (w := outerOf s) (s.crew e.cid).wid (ptrAdd e.table (64 * e.index + 40)) 16 0 rfl
  have noted {s1 : State} (h : outerOf s1 = outerOf s) (fin : Nat × Byte) :
      outerOf { s1 with colls := markEnding e.id fin s1.colls } =
        { outerOf s with colls := markEnding e.id fin s.colls } :=
    congrArg (fun w : Outer => { w with colls := markEnding e.id fin w.colls }) h
  unfold State.endEntry
  dsimp only
  split
  · exact closed ..
  · split
    next s1 h =>
      rw [h] at can
      exact ⟨_, noted can _, fun _ => mem_markEnding⟩
    next s1 k ia p1 h =>
      rw [h] at can
      exact ⟨_, (outerOf_engFault ..).trans (noted can _), fun _ => mem_markEnding⟩
    · exact closed ..

end

/-- The settings of a state whose messages or tile tables may have changed. -/
theorem settingsOf_of_outer {s t : State} (h : outerOf s = outerOf t) : settingsOf s = settingsOf t :=
  congrArg Outer.settings h
theorem settingsOf_endEntry (s : State) (e : CollEntry) (status : Nat) (cause : Byte) :
    settingsOf (s.endEntry e status cause) = settingsOf s := by
  obtain ⟨cs, left, _⟩ := endEntry_leaves s e status cause
  exact congrArg Outer.settings left

/-- coll.ready enters its table and changes no setting (R402). -/
theorem settingsOf_collReadyThread (a : Code) (b : BSrc) (r : Run) (s : State) (t : TRef) :
    settingsOf (resState (collReadyThread a b r s t)) = settingsOf s := by
  have read := issueRead_leaves s r t
    (ptrAdd ((s.env r t.cid).read64 (s.thread t) a) (64 * ((s.env r t.cid).readB (s.thread t) b).toNat)) 64
  have same {s1 : State} (h : outerOf s1 = outerOf s) : settingsOf s1 = settingsOf s := settingsOf_of_outer h
  have finished {u : State} (h : settingsOf u = settingsOf s) (f : Crew → Crew) (g : Thread → Thread) :
      settingsOf ((u.updCrew t.cid f).updThread t g) = settingsOf s := h
  unfold collReadyThread
  dsimp only
  split
  · exact same (by simp [resState])
  · split
    · rfl
    · split
      · exact issue_res (P := fun u => settingsOf u = settingsOf s) (fun _ h => same h) fun _ h => same h
      · split
        · rfl
        · split
          next h => exact same (resState_of_error read h)
          next s0 bs h =>
            rw [h] at read
            have can := engCan_leaves (w := outerOf s) (s.crew t.cid).wid
              (ptrAdd ((s.env r t.cid).read64 (s.thread t) a)
                (64 * ((s.env r t.cid).readB (s.thread t) b).toNat + 40)) 4 0 read
            split
            next h2 => rw [h2] at can; exact same can
            next h2 => rw [h2] at can; exact same ((outerOf_commitHere ..).trans can)
            next h2 => rw [h2] at can; exact same ((outerOf_commitFault ..).trans can)
            next h2 =>
              rw [h2] at can
              refine handOver_res (P := fun u => settingsOf u = settingsOf s) (fun _ h => same (h.trans can))
                fun s1 id h => ?_
              have entered {s2 : State} (h2 : outerOf s2 = outerOf s1) (cs : List CollEntry)
                  (acc : List ((Nat × DWord × Nat) × Nat)) (e : CollEntry) :
                  settingsOf (let s3 : State := { s2 with colls := cs, collAcc := acc }
                    if e.ok s.cardId then s3 else s3.endEntry e 3 0x7b#8) = settingsOf s := by
                have left := same (h2.trans (h.trans can))
                exact iteInduction (motive := fun u => settingsOf u = settingsOf s) (fun _ => left) fun _ =>
                  (settingsOf_endEntry ..).trans left
              refine finished ?_ _ _
              split
              next wrote => exact entered (outerOf_engWrite wrote) _ _ _
              · exact entered rfl _ _ _
theorem collWaitThread_keeps {d a : Code} {b : BSrc} : ThrKeeps (collWaitThread d a b) := by
  intro r s t
  have ends (p : Prop) [Decidable p] (g : Thread → Thread) :
      outerOf ((if p then s.acquired (s.crewCol t.cid) 5 else s).updThread t g) = outerOf s :=
    iteInduction (motive := fun u => outerOf u = outerOf s) (fun _ => outerOf_acquired ..) fun _ => rfl
  unfold collWaitThread
  dsimp only
  exact resState_ite (ends _ _) (resState_ite rfl (resState_ite rfl (ends _ _)))

/-! ## Ropes (R395) -/

/-- rope.arrive sends its message and changes no setting. -/
theorem settingsOf_ropeArriveThread (d a : Code) (b : BSrc) (r : Run) (s : State) (t : TRef) :
    settingsOf (resState (ropeArriveThread d a b r s t)) = settingsOf s := by
  have same {s1 : State} (h : outerOf s1 = outerOf s) : settingsOf s1 = settingsOf s := settingsOf_of_outer h
  unfold ropeArriveThread
  dsimp only
  split
  · exact same (by simp [resState])
  · split
    · rfl
    · split
      · exact handOver_res (P := fun u => settingsOf u = settingsOf s) (fun _ h => same h) fun _ _ h => (same h :)
      · refine issue_res (P := fun u => settingsOf u = settingsOf s) (fun _ h => same h) fun _ h => ?_
        exact iteInduction (motive := fun u => settingsOf u = settingsOf s) (fun _ => same h) fun _ => same h
theorem ropeStatusThread_keeps {d a : Code} {b : BSrc} : ThrKeeps (ropeStatusThread d a b) := by
  intro r s t
  unfold ropeStatusThread
  dsimp only
  split
  · rfl
  · split
    · rfl
    · split <;> rfl

end Sys2Proof.Proofs

/-! PROOF. What the words of crews and of the sequencer leave of the settings (04, 05, 08). -/

namespace Sys2Proof.Proofs

open Sys2Proof Sys2Proof.Machine Sys2Proof.Safety Sys2Proof.Laws

/-! ## Results and jumps of uniform words (R148 to R159) -/

section
variable (s : State)

@[simp] theorem outerOf_uLatch (r : Run) (v : DWord) : outerOf (s.uLatch r v) = outerOf s :=
  outerOf_foldl (fun _ _ => outerOf_updThread ..) _ _
@[simp] theorem outerOf_uNext (a : UAgent) (v : DWord) (n : Nat) : outerOf (s.uNext a v n) = outerOf s := by
  cases a with
  | crew r cid => exact (outerOf_updRun ..).trans (outerOf_uLatch ..)
  | seq c => rfl
@[simp] theorem outerOf_setUg (a : UAgent) (n : UReg) (v : DWord) : outerOf (s.setUg a n v) = outerOf s := by
  cases a <;> rfl
@[simp] theorem outerOf_uPut (a : UAgent) (d : UReg) (lo : Bool) (v : DWord) (n : Nat) :
    outerOf (s.uPut a d lo v n) = outerOf s := by
  unfold State.uPut
  split_ifs <;> simp
@[simp] theorem outerOf_uJump (a : UAgent) (x v : DWord) : outerOf (s.uJump a x v) = outerOf s := by
  cases a with
  | crew r cid => exact (outerOf_uNext ..).trans (outerOf_foldl (fun _ _ => outerOf_updThread ..) _ _)
  | seq c => rfl

/-! ## Traps, faults and parks (R169 to R172) -/

@[simp] theorem outerOf_seqTrap (c : Nat) (cause sub : Byte) (addr : DWord) :
    outerOf (s.seqTrap c cause sub addr) = outerOf s := by
  unfold State.seqTrap
  dsimp only
  split
  · rfl
  · exact (outerOf_updCol ..).trans (outerOf_faultWg ..)
@[simp] theorem outerOf_uTrap (a : UAgent) (f : Run → TrapInfo) : outerOf (s.uTrap a f) = outerOf s := by
  cases a with
  | crew r cid =>
    refine (outerOf_settle _).trans (outerOf_foldl ?_ _ _)
    exact fun _ _ => rfl
  | seq c => exact outerOf_seqTrap ..
@[simp] theorem outerOf_sysTrap (a : UAgent) (n : Nat) : outerOf (s.sysTrap a n) = outerOf s := outerOf_uTrap ..
@[simp] theorem outerOf_recordTrap (a : UAgent) (p : DWord) (sub : Byte) : outerOf (s.recordTrap a p sub) = outerOf s :=
  outerOf_uTrap ..
@[simp] theorem outerOf_uSetWaits (a : UAgent) (w : Option (Nat × Option DWord)) :
    outerOf (s.uSetWaits a w) = outerOf s := by
  cases a <;> rfl
@[simp] theorem outerOf_uPark (a : UAgent) (why : ParkWhy) : outerOf (s.uPark a why) = outerOf s := by
  cases a with
  | crew r cid => exact outerOf_parkRun ..
  | seq c => rfl
@[simp] theorem outerOf_uCommitHere (a : UAgent) : outerOf (s.uCommitHere a) = outerOf s := by
  cases a with
  | crew r cid => exact outerOf_foldl (fun _ _ => outerOf_commitHere ..) _ _
  | seq c => rfl
@[simp] theorem outerOf_uCommit (a : UAgent) : outerOf (s.uCommit a) = outerOf s := by
  cases a with
  | crew r cid => exact outerOf_foldl (fun _ _ => outerOf_commitAt ..) _ _
  | seq c => rfl
@[simp] theorem outerOf_uWait (a : UAgent) (why : ParkWhy) : outerOf (s.uWait a why) = outerOf s := by
  rw [State.uWait, outerOf_uPark, outerOf_uCommitHere]
@[simp] theorem outerOf_seqPageFault (c kind ia : Nat) (ea : DWord) (access : Byte) :
    outerOf (s.seqPageFault c kind ia ea access) = outerOf s := by
  unfold State.seqPageFault
  dsimp only
  split
  · rfl
  next wid _ =>
    refine iteInduction (motive := fun u => outerOf u = outerOf s)
      (fun _ => (outerOf_faultWg ..).trans (outerOf_updCol ..)) fun _ => ?_
    split
    next h => exact (outerOf_updCol ..).trans ((outerOf_openFault h).trans (outerOf_updCol ..))
    · rfl
@[simp] theorem outerOf_uFault (a : UAgent) (kind ia : Nat) (ea : DWord) (access : Byte) :
    outerOf (s.uFault a kind ia ea access) = outerOf s := by
  cases a with
  | crew r cid => exact (outerOf_settle _).trans (outerOf_foldl (fun _ _ => outerOf_commitFault ..) _ _)
  | seq c => exact outerOf_seqPageFault ..
@[simp] theorem outerOf_uDue (a : UAgent) (ti : TrapInfo) : outerOf (s.uDue a ti) = outerOf s := by
  cases a with
  | crew r cid => exact outerOf_foldl (fun _ _ => outerOf_dueTrap ..) _ _
  | seq c => exact outerOf_seqTrap ..
@[simp] theorem outerOf_uFailed (a : UAgent) (ti : TrapInfo) (n : Nat) : outerOf (s.uFailed a ti n) = outerOf s :=
  (outerOf_uDue ..).trans (outerOf_uNext ..)
@[simp] theorem outerOf_uFail (a : UAgent) (v : PendVal) (n : Nat) : outerOf (s.uFail a v n) = outerOf s := by
  unfold State.uFail
  split
  · exact outerOf_uFailed ..
  · exact outerOf_uFailed ..
  · exact outerOf_uFailed ..
  · rfl
@[simp] theorem outerOf_pushRecord (c : Nat) (r : Record) : outerOf (s.pushRecord c r) = outerOf s := by
  unfold State.pushRecord
  split_ifs <;> rfl
@[simp] theorem outerOf_uSeal (a : UAgent) (own : Option HeldStore) (rel : Bool) :
    outerOf (s.uSeal a own rel) = outerOf s := by
  unfold State.uSeal
  split
  · exact (outerOf_uPark ..).trans ((outerOf_sealAt ..).trans (outerOf_foldl (fun _ _ => outerOf_sealAt ..) _ _))
  · rfl

end

/-! ## Accesses of uniform words (R173 to R176) -/

section
variable {s : State} {a : UAgent}

theorem uSealedFirst_keeps {k : State} (hk : outerOf k = outerOf s) : outerOf (s.uSealedFirst a k) = outerOf s := by
  unfold State.uSealedFirst
  split
  · dsimp only
    split
    · exact hk
    · exact (outerOf_uPark ..).trans (outerOf_foldl (fun _ _ => outerOf_sealAt ..) _ _)
  · exact hk
theorem uAccess_keeps {p : DWord} {size : Nat} {kind : AccKind} {f : State → Dest → Nat → State}
    (hf : ∀ s1 d k, outerOf s1 = outerOf s → outerOf (f s1 d k) = outerOf s) :
    outerOf (s.uAccess a p size kind f) = outerOf s := by
  have ite {p : Prop} [Decidable p] {x y : State} (hx : outerOf x = outerOf s) (hy : outerOf y = outerOf s) :
      outerOf (if p then x else y) = outerOf s :=
    iteInduction (motive := fun u => outerOf u = outerOf s) (fun _ => hx) fun _ => hy
  unfold State.uAccess
  dsimp only
  split
  · exact outerOf_uTrap ..
  · refine ite (uSealedFirst_keeps (outerOf_uWait ..))
      (ite (uSealedFirst_keeps ((outerOf_uWait ..).trans (outerOf_wakePool ..))) ?_)
    split
    · exact uSealedFirst_keeps (outerOf_uFault ..)
    next h => exact hf _ _ _ (outerOf_locate h)
theorem uRecord_keeps {p : DWord} {f : State → Record → State}
    (hf : ∀ s1 r, outerOf s1 = outerOf s → outerOf (f s1 r) = outerOf s) : outerOf (s.uRecord a p f) = outerOf s := by
  have here : outerOf (s.uCommitHere a) = outerOf s := outerOf_uCommitHere ..
  have failed (v : PendVal) (n : Nat) : outerOf (((s.uCommitHere a).uCommit a).uFail a v n) = outerOf s := by simp
  unfold State.uRecord
  dsimp only
  split
  · exact outerOf_uTrap ..
  · split
    · exact (outerOf_uPark ..).trans here
    · split
      next h => exact (outerOf_uPark ..).trans ((outerOf_objDown h).trans here)
      · split
        · exact (outerOf_uPark ..).trans here
        next h =>
          split
          · exact (outerOf_uTrap ..).trans here
          · exact (outerOf_uFault ..).trans here
          · exact failed _ _
          · exact failed _ _
          · exact failed _ _
          next h2 => exact hf _ _ ((outerOf_readObj h2).trans ((outerOf_performed h).trans here))
theorem joinWith_keeps {p : DWord} {d : UReg} {lo : Bool} {n old : Nat} {dec : State → State}
    (hd : ∀ s, outerOf (dec s) = outerOf s) : outerOf (s.joinWith a p d lo n old dec) = outerOf s := by
  have fin (s1 : State) (v : DWord) : outerOf ((s1.uCommit a).uPut a d lo v n) = outerOf s1 := by simp
  unfold State.joinWith
  dsimp only
  split
  · exact outerOf_uTrap ..
  · split
    · exact (fin _ _).trans (hd _)
    · refine uRecord_keeps fun s1 r h1 => ?_
      split
      · exact (outerOf_recordTrap ..).trans h1
      · split
        · exact (fin _ _).trans ((outerOf_pushRecord ..).trans ((hd _).trans h1))
        · exact (outerOf_uPark ..).trans h1
theorem joinSealed_keeps {p : DWord} {d : UReg} {lo : Bool} {m n : Nat} :
    outerOf (s.joinSealed a p d lo m n) = outerOf s := by
  unfold State.joinSealed
  dsimp only
  split
  · exact outerOf_uWait ..
  next h =>
    have ready := (outerOf_performed h).trans (outerOf_uCommitHere ..)
    split
    · exact (joinWith_keeps fun _ => rfl).trans ready
    · exact (joinWith_keeps fun _ => rfl).trans ready
theorem joinAt_keeps {p : DWord} {d : UReg} {lo : Bool} {dst : Dest} {k n : Nat} :
    outerOf (s.joinAt a p d lo dst k n) = outerOf s := by
  have dec (s1 : State) : outerOf (((s1.performAtomic (s.uWid a) a.ref.cid (s.uCrew a) a.ref.tid (ptrAdd p 16) dst k
      joinOp 1 0).map (·.2)).getD s1) = outerOf s1 := by
    cases h : s1.performAtomic (s.uWid a) a.ref.cid (s.uCrew a) a.ref.tid (ptrAdd p 16) dst k joinOp 1 0 with
    | none => rfl
    | some x => exact outerOf_performAtomic h
  unfold State.joinAt
  dsimp only
  split
  · exact outerOf_uWait ..
  next h =>
    have ready := (outerOf_performed h).trans (outerOf_uCommitHere ..)
    split
    · exact ((outerOf_uFail ..).trans (outerOf_uCommit ..)).trans ready
    · exact (joinWith_keeps dec).trans ready
theorem outerOf_uScratch {s1 : State} {h : HeldStore} {rel : Bool} (e : s.uScratch a h rel = some s1) :
    outerOf s1 = outerOf s := by
  unfold State.uScratch at e
  obtain ⟨s2, ready, rfl⟩ := Option.map_eq_some_iff.1 e
  obtain ⟨s3, settled, seen⟩ := Option.bind_eq_some_iff.1 ready
  have first : outerOf s3 = outerOf s := by
    split_ifs at settled
    · exact outerOf_performed settled
    · exact outerOf_settleWrite settled
  refine (outerOf_applyStore ..).trans (Eq.trans ?_ first)
  split_ifs at seen
  · cases seen; rfl
  · exact outerOf_settleSeen seen

end

/-! ## Exits (R115, R212) -/

section
variable (s : State)

@[simp] theorem outerOf_exitThread (t : TRef) : outerOf (s.exitThread t) = outerOf s := by
  unfold State.exitThread
  dsimp only
  rw [outerOf_updThread, outerOf_updCrew, outerOf_foldl fun _ _ => outerOf_dropPacket .., outerOf_commit]
@[simp] theorem outerOf_endCrew (r : Run) (cid : Nat) : outerOf (s.endCrew r cid) = outerOf s :=
  (outerOf_settle _).trans (outerOf_foldl (fun _ _ => (outerOf_leaveRun ..).trans (outerOf_exitThread ..)) _ _)
@[simp] theorem outerOf_exitHelpers (cid : Nat) : outerOf (s.exitHelpers cid) = outerOf s :=
  outerOf_foldl (fun _ _ => outerOf_exitThread ..) _ _
@[simp] theorem outerOf_requestSeal (c : Nat) (reason : Byte) : outerOf (s.requestSeal c reason) = outerOf s := rfl
@[simp] theorem outerOf_keep (k : RunKey) (t : TRef) (n : Nat) : outerOf (s.keep_ k t n) = outerOf s := rfl
@[simp] theorem outerOf_keepFence (r : Run) (t : TRef) : outerOf (s.keepFence r t) = outerOf s :=
  (outerOf_updThread ..).trans (outerOf_commitHere ..)
@[simp] theorem outerOf_returnFrom (t : TRef) : outerOf (s.returnFrom t) = outerOf s :=
  (outerOf_updThread ..).trans (outerOf_commit ..)
@[simp] theorem outerOf_takeYield (cid : Nat) : outerOf (s.takeYield cid) = outerOf s := by
  unfold State.takeYield
  dsimp only
  split
  · exact (outerOf_updCrew ..).trans (outerOf_foldl (fun _ _ => outerOf_updThread ..) _ _)
  · rfl

end

theorem exitLane_keeps : ThrKeeps exitLane := by
  intro r s t
  rw [exitLane, resState, outerOf_exitHelpers, outerOf_exitThread]

/-! ## Operands and results of the matrix unit (R212 to R234) -/

/-- What an access of the matrix unit leaves, however it ends. -/
def MxLeaves (w : Outer) : MxRes → Prop
  | .ok s _ | .stop s => outerOf s = w

section
variable {s : State} {c : Nat}

theorem mxAt_leaves {w : Outer} (hs : outerOf s = w) {cause : Byte} {base p : DWord} {n : Nat} {write : Bool}
    {f : State → DWord → Nat → MxRes} (hf : ∀ s1 ea k, outerOf s1 = w → MxLeaves w (f s1 ea k)) :
    MxLeaves w (s.mxAt c cause base p n write f) := by
  have ite {p : Prop} [Decidable p] {x y : MxRes} (hx : MxLeaves w x) (hy : MxLeaves w y) :
      MxLeaves w (if p then x else y) := iteInduction (motive := MxLeaves w) (fun _ => hx) fun _ => hy
  unfold State.mxAt
  dsimp only
  split
  · exact (outerOf_seqTrap ..).trans hs
  · refine ite ((outerOf_seqTrap ..).trans hs) (ite ((outerOf_uPark ..).trans hs) ?_)
    split
    · exact (outerOf_seqTrap ..).trans hs
    · refine ite ((outerOf_uPark ..).trans ((outerOf_wakePool ..).trans hs)) ?_
      split
      · exact (outerOf_seqPageFault ..).trans hs
      next h =>
        have at_ := (outerOf_locate h).trans hs
        exact ite ((outerOf_seqTrap ..).trans at_) (hf _ _ _ at_)
theorem mxReads_leaves {w : Outer} (cause : Byte) (base : DWord) (ps : List (DWord × Nat)) (acc : List Byte)
    (hs : outerOf s = w) : MxLeaves w (mxReads c cause base ps acc s) := by
  induction ps generalizing s acc with
  | nil => exact hs
  | cons p ps ih =>
    have read : MxLeaves w (s.mxAt c cause base p.1 p.2 false fun s1 ea k =>
        match s1.settleRead c (some (UAgent.seq c).ref) false k p.2 with
        | none => .stop (s1.uPark (.seq c) .seal)
        | some s2 => .ok s2 (s2.seen (some (UAgent.seq c).ref) (s2.seqWid c) ea k (s2.spanBytes c k p.2))) := by
      refine mxAt_leaves hs fun s1 ea k h1 => ?_
      split
      · exact (outerOf_uPark ..).trans h1
      next h => exact (outerOf_settleRead h).trans h1
    rw [mxReads]
    split
    next h => exact ih _ (h ▸ read :)
    next h => exact (h ▸ read :)
theorem mxCan_leaves {w : Outer} (ps : List (DWord × List Byte)) (hs : outerOf s = w) :
    MxLeaves w (mxCan c ps s) := by
  induction ps generalizing s with
  | nil => exact hs
  | cons p ps ih =>
    have can : MxLeaves w (s.mxAt c 0x70 p.1 p.1 p.2.length true fun s1 _ k =>
        match (s1.settleWrite c k p.2.length).bind fun s2 =>
          if keyRegion k = regScratch c then some s2 else s2.settleSeen c (UAgent.seq c).ref with
        | none => .stop (s1.uPark (.seq c) .seal)
        | some s2 => .ok s2 []) := by
      refine mxAt_leaves hs fun s1 ea k h1 => ?_
      split
      · exact (outerOf_uPark ..).trans h1
      next h =>
        obtain ⟨s3, settled, seen⟩ := Option.bind_eq_some_iff.1 h
        refine Eq.trans ?_ ((outerOf_settleWrite settled).trans h1)
        split_ifs at seen
        · cases seen; rfl
        · exact outerOf_settleSeen seen
    rw [mxCan]
    split
    next h => exact ih (h ▸ can :)
    next h => exact (h ▸ can :)
theorem mxPut_leaves {w : Outer} (ps : List (DWord × List Byte)) (hs : outerOf s = w) :
    MxLeaves w (mxPut c ps s) := by
  induction ps generalizing s with
  | nil => exact hs
  | cons p ps ih =>
    have put : MxLeaves w (s.mxAt c 0x70 p.1 p.1 p.2.length true fun s1 ea k =>
        .ok (if s1.logged (s1.wg (s1.seqWid c)) ea ∧ ea ≠ p.1 then s1.logStore (s1.seqWid c) 16
          { tid := 0, key := k, op := .write p.2, ea := ea, pc := s1.uAddr (.seq c) } else s1.put k p.2) []) :=
      mxAt_leaves hs fun s1 ea k h1 => iteInduction (motive := fun u => outerOf u = w)
        (fun _ => (outerOf_logStore ..).trans h1) fun _ => (outerOf_put ..).trans h1
    rw [mxPut]
    split
    next h => exact ih (h ▸ put :)
    next h => exact (h ▸ put :)
theorem mxRead_keeps {cause : Byte} {base : DWord} {ps : List (DWord × Nat)} {f : State → List Byte → State}
    (hf : ∀ s1 bs, outerOf (f s1 bs) = outerOf s1) : outerOf (s.mxRead c cause base ps f) = outerOf s := by
  have read := mxReads_leaves (c := c) (w := outerOf s) cause base ps [] rfl
  unfold State.mxRead
  split
  · exact outerOf_seqTrap ..
  · split
    next h => rw [h] at read; exact (hf ..).trans read
    next h => rwa [h] at read
theorem mxWrite_keeps {ops : List (DWord × List (DWord × List Byte))} {f : State → State}
    (hf : ∀ s, outerOf (f s) = outerOf s) : outerOf (s.mxWrite c ops f) = outerOf s := by
  have can := mxCan_leaves (c := c) (w := outerOf s) (ops.flatMap (·.2)) rfl
  unfold State.mxWrite
  split
  · exact outerOf_seqTrap ..
  · split
    next h =>
      rw [h] at can
      have put := mxPut_leaves (c := c) (ops.flatMap (·.2)) can
      split
      next h2 => rw [h2] at put; exact (hf _).trans put
      next h2 => rwa [h2] at put
    next h => rwa [h] at can
theorem operand_keeps {n : UReg} {f : State → Tile → State} (hf : ∀ s x, outerOf (f s x) = outerOf s) :
    outerOf (s.operand c n f) = outerOf s := by
  unfold State.operand
  split
  · exact hf ..
  · exact mxRead_keeps fun _ _ => hf ..

end

section
variable (s : State) (c : Nat)

@[simp] theorem outerOf_advance (n : UReg) : outerOf (s.advance c n) = outerOf s := rfl
@[simp] theorem outerOf_seqDone : outerOf (s.seqDone c) = outerOf s := rfl
@[simp] theorem outerOf_updSeq (f : Sequencer → Sequencer) : outerOf (s.updSeq c f) = outerOf s := rfl
@[simp] theorem outerOf_mmaTiles (m : Nat) (ck z : Bool) (a : BitVec 3) (ta tb : Tile) :
    outerOf (s.mmaTiles c m ck z a ta tb) = outerOf s := by
  unfold State.mmaTiles
  exact iteInduction (motive := fun u => outerOf u = outerOf s) (fun _ => rfl) fun _ => rfl

end

end Sys2Proof.Proofs

/-! PROOF. No lane, uniform or matrix word changes a setting (16 R413, R417, 17 R424, 18 R435). -/

namespace Sys2Proof.Proofs

open Sys2Proof Sys2Proof.Machine Sys2Proof.Safety Sys2Proof.Laws

/-- Every next state of an outcome has the settings of the state before. -/
def OutKeeps (s : State) (o : Host.Outcome State Fault Refusal) : Prop := ∀ t, o = .next t → settingsOf t = settingsOf s

section
variable {s : State}

theorem OutKeeps.next {t : State} (h : settingsOf t = settingsOf s) : OutKeeps s (.next t) := by
  rintro _ ⟨⟩
  exact h
theorem OutKeeps.fault {f : Fault} : OutKeeps s (.fault f) := by
  rintro _ h
  cases h

/-! ## The shapes of lane words -/

theorem settingsOf_runKeeps (w : Settings) : RunKeeps fun s => settingsOf s = w where
  run _ _ _ p := p
  raise _ _ _ p := p
  settle s p := (settingsOf_of_outer (outerOf_settle s)).trans p

theorem ThrKeeps.settings {f : Run → State → TRef → ThrRes} (hf : ThrKeeps f) (r : Run) (s : State) (t : TRef) :
    settingsOf (resState (f r s t)) = settingsOf s := settingsOf_of_outer (hf r s t)

theorem lanes_of_settings {f : Run → State → TRef → ThrRes}
    (hf : ∀ r s t, settingsOf (resState (f r s t)) = settingsOf s) : OutKeeps s (s.lanes f) := by
  unfold State.lanes
  split
  · exact .fault
  · exact .next (laneLoop_keeps (settingsOf_runKeeps _) (fun _ _ h => (hf ..).trans h) _ _ s rfl)
theorem lanes_keeps {f : Run → State → TRef → ThrRes} (hf : ThrKeeps f) : OutKeeps s (s.lanes f) :=
  lanes_of_settings hf.settings
theorem lanesAll_keeps {f : Run → State → TRef → ThrRes} (hf : ThrKeeps f) : OutKeeps s (s.lanesAll f) := by
  unfold State.lanesAll
  split
  · exact .fault
  · exact .next (laneAll_keeps (settingsOf_runKeeps _) (fun _ _ h => (hf.settings ..).trans h) _ _ _ s rfl)
theorem alu_keeps {srcs : List Code} {d : Code} {f : LaneEnv → Thread → Thread} : OutKeeps s (s.alu srcs d f) := by
  unfold State.alu
  split
  · exact .fault
  next r _ =>
    split
    · refine .next (laneLoop_keeps (settingsOf_runKeeps _) (fun s1 t h => ?_) _ _ s rfl)
      exact (settingsOf_of_outer (aluThread_keeps r s1 t)).trans h
    · exact .next rfl
theorem mapRun_keeps {f : Run → LaneEnv → Thread → Thread} : OutKeeps s (s.mapRun f) := by
  unfold State.mapRun
  split
  · exact .fault
  · exact .next rfl
theorem cross_keeps {srcs : List Code} {d m : Code} {f : LaneEnv → List Thread → Thread → Thread}
    {after : LaneEnv → Thread → Thread} : OutKeeps s (s.cross srcs d m f after) := by
  have ends (r : Run) (pops : Bool) (ts : List TRef) (left : Bool) (s1 : State) (h : settingsOf s1 = settingsOf s) :
      settingsOf (laneLoop (crossEnd pops after r) r.key ts left s1) = settingsOf s :=
    laneLoop_keeps (settingsOf_runKeeps _) (fun s2 t h2 => (settingsOf_of_outer (crossEnd_keeps r s2 t)).trans h2)
      ts left s1 h
  unfold State.cross
  split
  · exact .fault
  next r _ =>
    dsimp only
    split
    · split
      · exact .next (ends _ _ _ _ _ rfl)
      · have popped := settingsOf_of_outer (outerOf_popEach r (queueCodes srcs) r.todo s false rfl)
        split
        next h =>
          rw [h] at popped
          exact .next ((settingsOf_of_outer (outerOf_parkRun ..)).trans popped)
        next h =>
          rw [h] at popped
          exact .next (ends _ _ _ _ _ popped)
    · exact .next (settingsOf_of_outer (outerOf_finishWord (s.crossMap ..) _ _) :)

/-! ## The shapes of uniform and matrix words -/

theorem uni_keeps {f : UAgent → State} (hf : ∀ a, outerOf (f a) = outerOf s) : OutKeeps s (s.uni f) := by
  unfold State.uni
  split
  · exact .fault
  · exact .next (settingsOf_of_outer (hf _))
theorem seqWord_keeps {f : Nat → State} (hf : ∀ c, outerOf (f c) = outerOf s) : OutKeeps s (s.seqWord f) := by
  unfold State.seqWord
  split
  · exact .next (settingsOf_of_outer (hf _))
  · exact .fault
theorem uBin_keeps {f : DWord → DWord → DWord} {d : UReg} {b : USrc} {lo : Bool} : OutKeeps s (s.uBin f d b lo) :=
  uni_keeps fun _ => outerOf_uPut ..
theorem uUn_keeps {f : DWord → DWord} {d : UReg} {b : USrc} {lo : Bool} : OutKeeps s (s.uUn f d b lo) := uBin_keeps
theorem uSet_keeps {f : DWord → DWord → Bool} {d : UReg} {b : USrc} {lo : Bool} : OutKeeps s (s.uSet f d b lo) :=
  uBin_keeps
theorem uBinImm_keeps {f : DWord → DWord → DWord} {d : UReg} {i : BitVec 13} : OutKeeps s (s.uBinImm f d i) :=
  uni_keeps fun _ => outerOf_uPut ..
theorem uBranch_keeps {taken : UAgent → Bool} {o : BitVec 13} : OutKeeps s (s.uBranch taken o) := by
  refine uni_keeps fun a => ?_
  split
  · exact outerOf_uJump ..
  · exact outerOf_uNext ..
theorem uGoto_keeps {b : USrc} : OutKeeps s (s.uGoto b) := by
  refine uni_keeps fun a => ?_
  dsimp only
  split
  · exact outerOf_uTrap ..
  · exact outerOf_uJump ..
theorem uLoad_keeps {kind : ReadKind} {size : Nat} {f : Nat → DWord} {d : UReg} {b : USrc} {lo : Bool} :
    OutKeeps s (s.uLoad kind size f d b lo) := by
  refine uni_keeps fun a => uAccess_keeps fun s1 dst k at_ => ?_
  dsimp only
  split
  · exact (outerOf_uWait ..).trans at_
  next h =>
    have ready := ((outerOf_settleRead h).trans (outerOf_uCommitHere ..)).trans at_
    split
    · exact (outerOf_uPark ..).trans ready
    · exact ((outerOf_uFail ..).trans (outerOf_uCommit ..)).trans ready
    next read =>
      refine ((outerOf_uPut ..).trans (outerOf_uCommit ..)).trans
        (Eq.trans ?_ ((outerOf_readBase read).trans ((outerOf_acquired ..).trans ready)))
      split <;> simp
theorem uStore_keeps {rel : Bool} {size : Nat} {d : UReg} {b : USrc} : OutKeeps s (s.uStore rel size d b) := by
  refine uni_keeps fun a => ?_
  dsimp only
  split
  · simp
  · refine uAccess_keeps fun s1 dst k at_ => ?_
    have here := (outerOf_uCommitHere s1 a).trans at_
    refine iteInduction (motive := fun u => outerOf u = outerOf s) (fun _ => (outerOf_uSeal ..).trans at_) fun _ => ?_
    split
    next h =>
      refine ((outerOf_uNext ..).trans (outerOf_uCommit ..)).trans (Eq.trans ?_ here)
      split_ifs at h
      · cases h; simp
      · exact outerOf_uScratch h
    · exact (outerOf_uPark ..).trans here

/-! ## Lane words of their own -/

theorem execFence_keeps {e : BitVec 3} : OutKeeps s (execFence e s) := by
  refine lanes_keeps fun r s t => ?_
  dsimp only
  split
  · simp [resState]
  · split
    · exact outerOf_commitHere ..
    next h =>
      have ready := (outerOf_fenceAt h).trans ((outerOf_refindStash ..).trans (outerOf_commitHere ..))
      split
      · exact (outerOf_commitFault ..).trans ready
      · exact ((outerOf_updThread ..).trans (outerOf_commitAt ..)).trans ready
theorem execPfenceKeep_keeps : OutKeeps s (execPfenceKeep s) := lanes_keeps fun r s t => by simp [resState]
theorem execPfenceKeepWait_keeps : OutKeeps s (execPfenceKeepWait s) := by
  refine lanes_keeps fun r s t => ?_
  dsimp only
  split
  · split
    · exact (outerOf_keep ..).trans (outerOf_keepFence ..)
    · simp [resState]
  · split
    · rfl
    · simp [resState]
theorem execPfenceRind_keeps : OutKeeps s (execPfenceRind s) := by
  refine lanes_keeps fun r s t => ?_
  dsimp only
  split
  · simp [resState]
  · split
    next h =>
      exact ((outerOf_updThread ..).trans (outerOf_commitAt ..)).trans
        ((outerOf_requestSeal ..).trans ((outerOf_performed h).trans (outerOf_commitHere ..)))
    · exact outerOf_commitHere ..
theorem execPfenceRindWait_keeps : OutKeeps s (execPfenceRindWait s) := by
  refine lanes_keeps fun r s t => ?_
  dsimp only
  split
  · simp [resState]
  · split
    · split
      · simp [resState]
      · rfl
    · split
      next h =>
        exact (outerOf_keep ..).trans ((outerOf_requestSeal ..).trans ((outerOf_performed h).trans (outerOf_commitHere ..)))
      · exact outerOf_commitHere ..
theorem execRegion_keeps : OutKeeps s (execRegion s) := lanes_keeps fun r s t => by simp [resState]
theorem execTbArrive_keeps {d a : Code} {b : BSrc} : OutKeeps s (execTbArrive d a b s) :=
  lanes_keeps fun r s t => popFirst_keeps (tbPost_keeps fun _ _ _ _ => outerOf_tbArriveAt ..) r s t
theorem execTbExpect_keeps {a : Code} {b : BSrc} : OutKeeps s (execTbExpect a b s) := by
  refine lanes_keeps fun r s t => popFirst_keeps (tbPost_keeps fun e s1 k n => ?_) r s t
  refine (outerOf_updThread ..).trans ?_
  split <;> simp
theorem execTbInit_keeps {a : Code} {b : BSrc} : OutKeeps s (execTbInit a b s) := by
  refine lanes_keeps fun r s t => popFirst_keeps (tbPost_keeps fun e s1 k n => ?_) r s t
  refine (outerOf_updThread ..).trans ?_
  split <;> simp
theorem execQpush_keeps {d a : Code} : OutKeeps s (execQpush d a s) :=
  lanes_keeps (popFirst_keeps fun r s t => pushThread_keeps r s t)
theorem execCollReady_keeps {a : Code} {b : BSrc} : OutKeeps s (execCollReady a b s) :=
  lanes_of_settings (settingsOf_collReadyThread a b)
theorem execRopeArrive_keeps {d a : Code} {b : BSrc} : OutKeeps s (execRopeArrive d a b s) := by
  refine lanes_of_settings fun r s t => ?_
  have done_ := settingsOf_ropeArriveThread d a b r s t
  unfold thenPush
  split
  next h =>
    rw [h] at done_
    exact (outerOf_pushLast r s t _).elim (fun e => (settingsOf_of_outer e).trans done_) settingsOf_of_outer
  · exact done_

/-! ## Uniform words of their own -/

theorem execJoinDec_keeps {d : UReg} {b : USrc} {lo : Bool} : OutKeeps s (execJoinDec d b lo s) := by
  refine uni_keeps fun a => ?_
  cases a with
  | seq c => exact outerOf_uTrap ..
  | crew r cid =>
    dsimp only
    split
    · exact outerOf_uTrap ..
    · split
      · exact joinSealed_keeps
      · refine uAccess_keeps fun s1 dst k at_ => ?_
        exact iteInduction (motive := fun u => outerOf u = outerOf s) (fun _ => (outerOf_uSeal ..).trans at_) fun _ =>
          joinAt_keeps.trans at_
theorem execMfs_keeps {d : UReg} {n : BitVec 8} {lo : Bool} : OutKeeps s (execMfs d n lo s) := by
  refine uni_keeps fun a => ?_
  split
  · exact outerOf_uPut ..
  · exact outerOf_sysTrap ..
theorem execMts_keeps {n : BitVec 8} {b : USrc} {lo : Bool} : OutKeeps s (execMts n b lo s) := by
  refine uni_keeps fun a => ?_
  dsimp only
  split
  · exact outerOf_sysTrap ..
  · refine (outerOf_uNext ..).trans ?_
    split
    · rfl
    · split_ifs <;> rfl
theorem execRte_keeps : OutKeeps s (execRte s) := by
  refine uni_keeps fun a => ?_
  cases a with
  | seq c => exact outerOf_uTrap ..
  | crew r cid =>
    have back (ts : List TRef) : outerOf ((ts.foldl (fun acc t => acc.returnFrom t) s).uNext (.crew r cid) 0 0) = outerOf s :=
      (outerOf_uNext ..).trans (outerOf_foldl (fun _ _ => outerOf_returnFrom ..) _ _)
    dsimp only
    split
    · exact back _
    · refine (outerOf_settle _).trans (Eq.trans (outerOf_foldl ?_ _ _) (back _))
      exact fun _ _ => rfl
theorem execSpawn_keeps {b : USrc} : OutKeeps s (execSpawn b s) := by
  refine uni_keeps fun a => ?_
  cases a with
  | seq c => exact outerOf_uTrap ..
  | crew r cid =>
    dsimp only
    split
    · exact outerOf_uTrap ..
    · refine uRecord_keeps fun s1 rec at_ => ?_
      split
      · exact (outerOf_recordTrap ..).trans at_
      · split
        · exact (outerOf_uNext ..).trans ((outerOf_pushRecord ..).trans ((outerOf_uCommit ..).trans at_))
        · exact (outerOf_uPark ..).trans at_
theorem execUniformExit_keeps : OutKeeps s (execUniformExit s) := by
  refine uni_keeps fun a => ?_
  cases a with
  | seq c => rfl
  | crew r cid =>
    refine (outerOf_settle _).trans ((outerOf_exitHelpers ..).trans (outerOf_foldl ?_ _ _))
    exact fun _ _ => (outerOf_leaveRun ..).trans (outerOf_exitThread ..)
theorem execWaitCnt_keeps {c : BitVec 3} {n : BitVec 13} : OutKeeps s (execWaitCnt c n s) := by
  refine uni_keeps fun a => ?_
  cases a with
  | seq c => exact outerOf_uTrap ..
  | crew r cid =>
    dsimp only
    split
    · exact (outerOf_uNext ..).trans (outerOf_acquired ..)
    · exact outerOf_uPark ..
theorem execWaitTime_keeps {b : USrc} {lo : Bool} : OutKeeps s (execWaitTime b lo s) := by
  refine uni_keeps fun a => ?_
  dsimp only
  split
  · exact (outerOf_uSetWaits ..).trans (outerOf_uNext ..)
  · exact outerOf_uNext ..
  · exact (outerOf_uPark ..).trans (outerOf_uSetWaits ..)
theorem execYield_keeps {b : USrc} : OutKeeps s (execYield b s) := by
  refine uni_keeps fun a => ?_
  cases a with
  | seq c => exact outerOf_uTrap ..
  | crew r cid =>
    have fin (s1 : State) (h : outerOf s1 = outerOf s) (w : Nat) (f : Workgroup → Workgroup) :
        outerOf (((s1.uCommit (.crew r cid)).updWg w f).endCrew r cid) = outerOf s :=
      (outerOf_endCrew ..).trans ((outerOf_updWg ..).trans ((outerOf_uCommit ..).trans h))
    dsimp only
    split
    · exact fin _ rfl _ _
    · refine uRecord_keeps fun s1 rec at_ => ?_
      split
      · exact (outerOf_recordTrap ..).trans at_
      · exact fin _ at_ _ _

/-! ## Matrix words -/

theorem execAck_keeps {c : BitVec 3} {a : BitVec 8} {tol : BitVec 2} : OutKeeps s (execAck c a tol s) :=
  seqWord_keeps fun _ => (outerOf_seqDone ..).trans ((outerOf_setUg ..).trans (outerOf_setUg ..))
theorem execAdrain_keeps {c : BitVec 3} {a : BitVec 8} {bf clr : Bool} : OutKeeps s (execAdrain c a bf clr s) := by
  refine seqWord_keeps fun col => ?_
  dsimp only
  split
  · exact outerOf_seqTrap ..
  · exact mxWrite_keeps fun _ => (outerOf_seqDone ..).trans (outerOf_updSeq ..)
theorem execAdrainQ_keeps {c : BitVec 3} {a : BitVec 8} {bf clr : Bool} : OutKeeps s (execAdrainQ c a bf clr s) := by
  refine seqWord_keeps fun col => ?_
  dsimp only
  split
  · exact outerOf_uPark ..
  · exact (outerOf_seqDone ..).trans (outerOf_updSeq ..)
theorem execAdrainT_keeps {c : BitVec 3} {a b : BitVec 8} {bf clr : Bool} : OutKeeps s (execAdrainT c a b bf clr s) := by
  refine seqWord_keeps fun col => ?_
  dsimp only
  split
  · exact outerOf_seqTrap ..
  · exact outerOf_seqTrap ..
  · split
    · exact outerOf_seqTrap ..
    · exact mxWrite_keeps fun _ => (outerOf_seqDone ..).trans (outerOf_updSeq ..)
theorem execAfix_keeps {c : BitVec 3} {a : BitVec 8} : OutKeeps s (execAfix c a s) := by
  refine seqWord_keeps fun col => ?_
  dsimp only
  split
  · exact (outerOf_seqDone ..).trans (outerOf_updSeq ..)
  · exact outerOf_seqDone ..
theorem execAload_keeps {c : BitVec 3} {a : BitVec 8} {bf adv : Bool} : OutKeeps s (execAload c a bf adv s) := by
  refine seqWord_keeps fun col => ?_
  dsimp only
  split
  · exact outerOf_seqTrap ..
  · refine mxRead_keeps fun s1 bs => ?_
    refine ((outerOf_seqDone ..).trans (outerOf_updSeq ..)).trans ?_
    split <;> simp
theorem execCbload_keeps {c : BitVec 3} {a : BitVec 8} {sa sb : Bool} : OutKeeps s (execCbload c a sa sb s) := by
  refine seqWord_keeps fun col => ?_
  dsimp only
  split
  · exact outerOf_seqTrap ..
  · exact mxRead_keeps fun _ _ => (outerOf_seqDone ..).trans (outerOf_updSeq ..)
theorem execMma_keeps {f : BitVec 4} {ck z : Bool} {c : BitVec 3} {a b : BitVec 8} {advA advB : Bool} :
    OutKeeps s (execMma f ck z c a b advA advB s) := by
  refine seqWord_keeps fun col => ?_
  dsimp only
  split
  · exact outerOf_seqTrap ..
  · split
    · exact outerOf_seqTrap ..
    · split
      · exact outerOf_seqTrap ..
      · refine operand_keeps fun s1 ta => operand_keeps fun s2 tb => ?_
        rw [outerOf_seqDone, outerOf_mmaTiles]
        split_ifs <;> simp
theorem execMmo_keeps {c : BitVec 3} {a : BitVec 8} : OutKeeps s (execMmo c a s) := by
  refine seqWord_keeps fun col => ?_
  dsimp only
  split
  · exact outerOf_seqTrap ..
  · refine mxRead_keeps fun s1 bs => ?_
    split
    · exact outerOf_seqTrap ..
    · exact (outerOf_seqDone ..).trans (outerOf_updSeq ..)
theorem execXload_keeps {a b : BitVec 8} {adv : Bool} : OutKeeps s (execXload a b adv s) := by
  refine seqWord_keeps fun col => ?_
  split
  · exact outerOf_seqTrap ..
  · refine operand_keeps fun s1 x => ?_
    refine ((outerOf_seqDone ..).trans (outerOf_updSeq ..)).trans ?_
    split <;> simp
theorem execXpop_keeps {a : BitVec 8} : OutKeeps s (execXpop a s) := by
  refine seqWord_keeps fun col => ?_
  dsimp only
  split
  · exact outerOf_uPark ..
  · exact (outerOf_seqDone ..).trans (outerOf_foldl (fun _ _ => outerOf_dropRows ..) _ _)

end

end Sys2Proof.Proofs

/-! PROOF. 16 R413, R417, 17 R424, 18 R425, R435: the words of cores, one by one. -/

namespace Sys2Proof.Proofs

open Sys2Proof Sys2Proof.Machine Sys2Proof.Safety Sys2Proof.Laws

/-- Whether instructions of a class are words of a core. -/
def ofCore : InstrClass → Bool
  | .lane | .uniform | .matrix => true
  | _ => false

theorem exec_keeps {i : Instr} {s : State} (hc : ofCore i.cls = true) : OutKeeps s (exec i s) := by
  unfold exec
  cases i
  case
    add | sub | mulLo | mulHiI32 | mulHiN32 | shl | shrN | shrI | rot | and | or | xor | andn | minI32 | maxI32
    | minN32 | maxN32 | bfeN32 | bfeI32 | sext | zext | addImm | subImm | mulLoImm | mulHiI32Imm | mulHiN32Imm |
    shlImm | shrNImm | shrIImm | rotImm | andImm | orImm | xorImm | andnImm | minI32Imm | maxI32Imm | minN32Imm
    | maxN32Imm | sextImm | zextImm | mad | bfi | dp4I8 | dp4N8 | dp4I8n8 | madImm | lea | leaI | movl | movi |
    sel | cmpInteger | plut | reorder | cmpF32 | cscClip | cvt | qnt | pxunpk | pxpack | join | nop | add64 |
    sub64 | add64Imm | sub64Imm | absI32 | negI32 | clz | popc | brev | mov | absF32 | negF32 | absPacked |
    negPacked | floatAdd | floatSub | floatMul | fma | floatMin | floatMax | minnum | maxnum | dot2Bf16x2 |
    dot2F16x2 | cscM3 | rndF32 | dqnt | rcp | rsqrt | sqrt | exp2 | log2 | sinpi | cospi | tanh | sigm =>
    exact alu_keeps
  case
    xlPick | xlBack | xlFwd | xlFlip | quadSwapH | quadSwapV | quadSwapD | quadBcast | xlMask | xlAny | xlAll |
    xlSame | xlFold | scanIncl | scanExcl | scanSegIncl | scanSegExcl =>
    exact cross_keeps
  case bra | call => exact mapRun_keeps
  case
    uniformAdd | uniformSub | uniformMulLo | uniformMulHiI64 | uniformMulHiN64 | uniformShl | uniformShrN |
    uniformShrI | uniformRot | uniformAnd | uniformOr | uniformXor | uniformAndn | uniformMinI64 | uniformMaxI64
    | uniformMinN64 | uniformMaxN64 | uniformBfeN64 | uniformBfeI64 | uniformBfi =>
    exact uBin_keeps
  case uniformClz | uniformPopc | uniformBrev | uniformMov => exact uUn_keeps
  case setEq | setNe | setLtI64 | setLeI64 | setGtI64 | setGeI64 | setLtN64 | setLeN64 | setGtN64 | setGeN64 =>
    exact uSet_keeps
  case
    uniformAddImm | uniformSubImm | uniformMulLoImm | uniformMulHiI64Imm | uniformMulHiN64Imm | uniformShlImm |
    uniformShrNImm | uniformShrIImm | uniformRotImm | uniformAndImm | uniformOrImm | uniformXorImm |
    uniformAndnImm | uniformMovi =>
    exact uBinImm_keeps
  case bz | bnz | br => exact uBranch_keeps
  case uniformJmp | uniformRet => exact uGoto_keeps
  case uniformLd | uniformLdAcqDev => exact uLoad_keeps
  case uniformSt | uniformStRelDev => exact uStore_keeps
  case jmp | callRegister | ret => exact lanes_keeps jumpTo_keeps
  case ld | ldRelaxed | ldAcq => exact lanes_keeps loadThread_keeps
  case st | stRelaxed | red => exact lanes_keeps storeThread_keeps
  case stRel => exact lanes_keeps releaseThread_keeps
  case atom | atomCasB32 | atomCasB64 => exact lanes_keeps atomThread_keeps
  case fence => exact execFence_keeps
  case stashMap => exact lanes_keeps (popFirst_keeps stashMapThread_keeps)
  case stashUnmap | stashFlush => exact lanes_keeps (popFirst_keeps stashEnd_keeps)
  case prefetch => exact lanes_keeps (popFirst_keeps prefetchThread_keeps)
  case barArrive => exact lanes_keeps (popFirst_keeps barArriveThread_keeps)
  case tbInit => exact execTbInit_keeps
  case tbArrive => exact execTbArrive_keeps
  case tbExpect => exact execTbExpect_keeps
  case tbTest => exact lanes_keeps (popFirst_keeps (thenPush_keeps tbWaitThread_keeps))
  case qbind => exact lanes_keeps (popFirst_keeps qbindThread_keeps)
  case qpush => exact execQpush_keeps
  case qpushr => exact lanes_keeps (popFirst_keeps qpushrThread_keeps)
  case qpop => exact lanes_keeps qpopThread_keeps
  case qstat => exact lanes_keeps (thenPush_keeps qstatThread_keeps)
  case ticketTake => exact lanes_keeps (thenPush_keeps ticketThread_keeps)
  case srd => exact lanes_keeps (popFirst_keeps srdThread_keeps)
  case xeLut => exact lanes_keeps lutThread_keeps
  case smpCfg => exact lanes_keeps smpCfgThread_keeps
  case smpPush => exact lanes_keeps smpPushThread_keeps
  case smpDraw => exact lanes_keeps smpDrawThread_keeps
  case rtTrace => exact lanes_keeps rtTraceThread_keeps
  case rtCont => exact lanes_keeps rtContThread_keeps
  case rtPop => exact lanes_keeps rtPopThread_keeps
  case collReady => exact execCollReady_keeps
  case ropeArrive => exact execRopeArrive_keeps
  case ropeStatus => exact lanes_keeps ropeStatusThread_keeps
  case exit => exact lanes_keeps exitLane_keeps
  case region => exact execRegion_keeps
  case pfenceRind => exact execPfenceRind_keeps
  case pfenceRindWait => exact execPfenceRindWait_keeps
  case pfenceKeep => exact execPfenceKeep_keeps
  case pfenceKeepWait => exact execPfenceKeepWait_keeps
  case barWait => exact lanesAll_keeps (popFirst_keeps barWaitThread_keeps)
  case tbWait => exact lanesAll_keeps (popFirst_keeps (thenPush_keeps tbWaitThread_keeps))
  case collWait => exact lanesAll_keeps (thenPush_keeps collWaitThread_keeps)
  case uniformMovl | rdtime => exact uni_keeps fun _ => outerOf_uPut ..
  case uniformCall => exact uni_keeps fun _ => (outerOf_uJump ..).trans (outerOf_setUg ..)
  case mfs => exact execMfs_keeps
  case mts => exact execMts_keeps
  case waitTime => exact execWaitTime_keeps
  case waitCnt => exact execWaitCnt_keeps
  case spawn => exact execSpawn_keeps
  case joinDec => exact execJoinDec_keeps
  case yield => exact execYield_keeps
  case trap | brk => exact uni_keeps fun _ => outerOf_uTrap ..
  case rte => exact execRte_keeps
  case uniformExit => exact execUniformExit_keeps
  case mma => exact execMma_keeps
  case mmo => exact execMmo_keeps
  case xload => exact execXload_keeps
  case xpop => exact execXpop_keeps
  case cbload => exact execCbload_keeps
  case azero => exact seqWord_keeps fun _ => (outerOf_seqDone ..).trans (outerOf_updSeq ..)
  case aload => exact execAload_keeps
  case adrain => exact execAdrain_keeps
  case adrainT => exact execAdrainT_keeps
  case adrainQ => exact execAdrainQ_keeps
  case ack => exact execAck_keeps
  case afix => exact execAfix_keeps
  case xeCopy | xeRagged | xeBtab | xeGather | xeCbx | xeFill =>
    exact lanes_keeps (thenPush_keeps xeThread_keeps)
  all_goals exact absurd hc Bool.false_ne_true

/-- Settles O60: over every lane, uniform and matrix word and every state. -/
theorem coresConfigureNothing : Obligations.CoresConfigureNothing := by
  intro i s t hc he
  have core : ofCore i.cls = true := by
    rcases hc with h | h | h <;> rw [h] <;> rfl
  have same := exec_keeps core t he
  simp only [settingsOf, Settings.mk.injEq] at same
  exact same

end Sys2Proof.Proofs

/-! PROOF. What the front end's own accesses and reports leave of the settings, the streams and the links (R349, R419),
and what a Curd error leaves of its queue (R423). -/

namespace Sys2Proof.Proofs

open Sys2Proof Sys2Proof.Machine Sys2Proof.Safety Sys2Proof.Laws

/-! ## Accesses in a context (R174, R452) -/

/-- What an access of the device leaves when it completes. -/
def DevLeaves (w : Outer) : DevOut → Prop
  | .ok s _ => outerOf s = w
  | _ => True

section
variable {w : Outer} {s : State}

theorem devByte_leaves (hs : outerOf s = w) {ea : DWord} {d : Dest} {i : Nat} {write : Bool}
    {f : State → Nat → DevOut} (hf : ∀ s1 k, outerOf s1 = w → DevLeaves w (f s1 k)) :
    DevLeaves w (s.devByte ea d i write f) := by
  unfold State.devByte
  split
  · trivial
  · split
    · trivial
    next located =>
      refine iteInduction (motive := DevLeaves w) (fun _ => trivial) fun _ => ?_
      exact iteInduction (motive := DevLeaves w) (fun _ => trivial) fun _ => hf _ _ ((outerOf_locate located).trans hs)
theorem devBytes_leaves (hs : outerOf s = w) (ea : DWord) (d : Dest) (n i : Nat) (acc : List Byte) :
    DevLeaves w (devBytes ea d n i acc s) := by
  induction n generalizing i acc s with
  | zero => exact hs
  | succ n ih =>
    have read : DevLeaves w (s.devByte ea d i false fun s1 k =>
        if s1.hostFails k 1 then .ok { s1 with freeCtr := s1.freeCtr + 1 } [Config.freeByte 9 s1.freeCtr]
        else .ok s1 (s1.bytes k 1)) :=
      devByte_leaves hs fun _ _ h => iteInduction (motive := DevLeaves w) (fun _ => h) fun _ => h
    rw [devBytes]
    split
    next h => exact ih (h ▸ read :) ..
    · exact read
theorem devCan_leaves (hs : outerOf s = w) (ea : DWord) (d : Dest) (n i : Nat) :
    DevLeaves w (devCan ea d n i s) := by
  induction n generalizing i s with
  | zero => exact hs
  | succ n ih =>
    have can : DevLeaves w (s.devByte ea d i true fun s1 _ => .ok s1 []) := devByte_leaves hs fun _ _ h => h
    rw [devCan]
    split
    next h => exact ih (h ▸ can :) _
    · exact can
theorem devPut_leaves (hs : outerOf s = w) (ea : DWord) (d : Dest) (xs : List (Nat × List Byte)) :
    DevLeaves w (devPut ea d xs s) := by
  induction xs generalizing s with
  | nil => exact hs
  | cons x xs ih =>
    have put : DevLeaves w (s.devByte ea d x.1 true fun s1 k =>
        .ok (if s1.hostFails k x.2.length then s1 else s1.put k x.2) []) :=
      devByte_leaves hs fun _ _ h => iteInduction (motive := fun u => outerOf u = w) (fun _ => h) fun _ =>
        (outerOf_put ..).trans h
    rw [devPut]
    split
    next h => exact ih (h ▸ put :)
    · exact put

end

section
variable {s s1 : State} {ctx : Nat} {p : DWord} {align : Bool} {bs out : List Byte}

theorem outerOf_devRead {n : Nat} (e : s.devRead ctx p n align = .ok s1 bs) : outerOf s1 = outerOf s := by
  unfold State.devRead at e
  split at e
  · cases e
  next d _ =>
    have read := devBytes_leaves (s := s) rfl p d n 0 []
    rwa [e] at read
theorem outerOf_devWrite (e : s.devWrite ctx p bs align = .ok s1 out) : outerOf s1 = outerOf s := by
  unfold State.devWrite at e
  split at e
  · cases e; rfl
  · split at e
    · cases e
    next d _ =>
      have can := devCan_leaves (s := s) rfl p d bs.length 0
      split at e
      next h =>
        rw [h] at can
        have put := devPut_leaves can p d (sectorParts (ptrOff p) bs)
        rwa [e] at put
      next no => exact (no _ _ e).elim

end

theorem queues_of_outer {s t : State} (h : outerOf s = outerOf t) : s.queues = t.queues :=
  congrArg (fun w => w.settings.queues) h
theorem queue_of_outer {s t : State} (h : outerOf s = outerOf t) (q : Nat) : s.queue q = t.queue q := by
  rw [State.queue, State.queue, queues_of_outer h]

/-! ## Queues of a state -/

/-- A queue that differs from one never installed has its place among the 256. -/
theorem lt_of_queue_ne {s : State} {q : Nat} (h : s.queue q ≠ {}) : q < 256 := by
  by_contra out
  refine h ?_
  rw [State.queue, Vector.getElem?_eq_none (Nat.le_of_not_lt out)]
  rfl
theorem lt_of_run {s : State} {q : Nat} {r : CurdRun} (h : (s.queue q).run = some r) : q < 256 :=
  lt_of_queue_ne (s := s) fun none_ => by rw [none_] at h; cases h

/-! ## The end of a run by an error (R423) -/

theorem queue_packetNo (s : State) (q : Nat) (r : CurdRun) (p : Nat) : (s.packetNo q r).2.queue p = s.queue p := by
  unfold State.packetNo
  split_ifs <;> rfl
/-- A queue whose program has ended by an error. -/
def Halted (s : State) (q : Nat) : Prop := (s.queue q).stopped = true ∧ (s.queue q).run = none
theorem endCurd_halts {q : Nat} (hq : q < 256) (s : State) (r : CurdRun) : Halted (s.endCurd q r true) q := by
  have ended (s1 : State) (f : Queue → Queue) (hf : (f (s1.queue q)).stopped = true ∧ (f (s1.queue q)).run = none)
      (t : Turn) : Halted { s1.updQueue q f with turn := t } q := by
    have there : State.queue { s1.updQueue q f with turn := t } q = f (s1.queue q) := queue_updQueue s1 q f hq
    rwa [Halted, there]
  exact ended _ _ ⟨Bool.or_true _, rfl⟩ _
/-- The error record of a halted queue is written, or waits, while the queue stays halted. -/
theorem writeCurdError_halts {q : Nat} (hq : q < 256) {s : State} (h : Halted s q) (e : CurdErr) :
    Halted (s.writeCurdError q e) q := by
  have waits (s1 : State) (same : outerOf s1 = outerOf s) (f : Queue → List CurdErr) :
      Halted (s1.updQueue q fun y => { y with errWait := f y }) q := by
    rw [Halted, queue_updQueue _ _ _ hq, queue_of_outer same]
    exact h
  unfold State.writeCurdError
  dsimp only
  split
  next written => exact waits _ ((outerOf_dropEng ..).trans (outerOf_devWrite written)) _
  · exact waits _ ((outerOf_dropEng ..).trans (outerOf_writeRecord ..)) _
  · exact waits _ (outerOf_opFault ..) _
theorem curdError_halts {q : Nat} (hq : q < 256) (s : State) (r : CurdRun) (err : Nat) (detail : Byte) :
    Halted (s.curdError q r err detail) q := by
  have ended := endCurd_halts hq (s.packetNo q r).2 r
  unfold State.curdError
  dsimp only
  split_ifs
  · exact ended
  · exact writeCurdError_halts (s := ((s.packetNo q r).2.endCurd q r true).fresh.2) hq ended _

end Sys2Proof.Proofs

/-! PROOF. 17 R419, R423, R424: what a Curd program may not do. -/

namespace Sys2Proof.Proofs

open Sys2Proof Sys2Proof.Machine Sys2Proof.Safety Sys2Proof.Laws

/-- The offset of a pointer keeps its last three bits. -/
theorem ptrOff_mod_8 (p : DWord) : ptrOff p % 8 = p.toNat % 8 := by
  rw [ptrOff, fieldNat_eq]
  omega

/-- Settles O30. -/
theorem curdErrors : Obligations.CurdErrors := by
  intro s q r h hr
  have misaligned {b : BitVec 4} {n : BitVec 16} (odd : ((s.queue q).reg b + n.signExtend 64).toNat % 8 ≠ 0) :
      curdPtrErr (s.curdPtr q b n) = some 0x40#8 := if_pos (by rwa [ptrOff_mod_8])
  refine ⟨fun a b admin => ?_, fun a b none_ => ?_, fun a b n odd => ⟨?_, ?_⟩, fun a bad => ?_, fun t run budget ht => ?_,
    fun err detail => curdError_halts (lt_of_run hr) s r err detail⟩
  · exact (curdOp_eq h hr _).trans (congrArg _ (if_pos (by simp [admin])))
  · refine (curdOp_eq h hr _).trans (congrArg _ ?_)
    simp only [Queue.handle?, none_, Option.map_none]
  · refine (curdOp_eq h hr _).trans (congrArg _ ?_)
    simp only [misaligned odd]
  · refine (curdOp_eq h hr _).trans (congrArg _ ?_)
    simp only [misaligned odd]
  · exact (curdOp_eq h hr _).trans (congrArg _ (if_pos (by simp [bad])))
  · change execCurdBudgetExhausted q s = .next t
    rw [execCurdBudgetExhausted, hr, ht]
    exact if_pos ⟨run, budget⟩

end Sys2Proof.Proofs

/-! PROOF. 13 R320, 17 R419, R421, R427: packets are taken, completion runs start and parked runs go on. -/

namespace Sys2Proof.Proofs

open Sys2Proof Sys2Proof.Machine Sys2Proof.Safety Sys2Proof.Laws

section
variable {s : State} {q : Nat}

theorem queue_setW (hq : q < 256) (a : BitVec 4) (v : DWord) :
    (s.setW q a v).queue q = { s.queue q with w := (s.queue q).w.setIfInBounds a.toNat v } := queue_updQueue s q _ hq

theorem queue_updQueue_turn (hq : q < 256) (f : Queue → Queue) (t : Turn) :
    State.queue { s.updQueue q f with turn := t } q = f (s.queue q) := queue_updQueue s q f hq
/-- Once its bytes are read, a packet's run begins (R320). -/
theorem readPacket_of_read {s1 : State} {bs : List Byte} {n : Nat}
    (read : s.devRead (s.queue q).ctx (ptrAdd (s.queue q).ring (128 * ((s.queue q).head.toNat % (s.queue q).slots))) 128
      true = .ok s1 bs) : s.readPacket q { index := n } =
        { s1.setCurd q { index := n, packet := bs } with turn := .curd q } := by
  simp only [State.readPacket, State.curdAccess, Option.bind_none, read]
  rfl
/-- A run that its queue's program begins with a packet or a completion is the queue's run. -/
theorem run_setCurd (hq : q < 256) (r : CurdRun) : ((s.setCurd q r).queue q).run = some r := by
  rw [State.setCurd, queue_updQueue _ _ _ hq]
theorem lt_of_canTake (h : s.canTake (s.queue q) = true) : q < 256 := by
  refine lt_of_queue_ne (s := s) fun none_ => ?_
  rw [none_] at h
  cases h
theorem execCurdPacket_takes {s1 : State} {bs : List Byte} (take : s.canTake (s.queue q) = true)
    (next : s.nextServed q = true) (idle : s.curdIdle = true)
    (read : { s with lastServed := q }.devRead (s.queue q).ctx
      (ptrAdd (s.queue q).ring (128 * ((s.queue q).head.toNat % (s.queue q).slots))) 128 true = .ok s1 bs) :
    ∃ t, exec (.curdPacket q) s = .next t ∧ t.turn = .curd q ∧ t.lastServed = q ∧
      (t.queue q).run = some { index := (s.program (s.queue q).program).entryPkt, packet := bs } := by
  refine ⟨_, if_pos ⟨take, next, idle⟩, ?_⟩
  rw [readPacket_of_read read]
  exact ⟨rfl, congrArg Outer.lastServed (outerOf_devRead read), run_setCurd (lt_of_canTake take) _⟩
/-- ENTRY_DONE runs with the completion's handle and status in its registers (R421). -/
theorem execCurdCompletionRun_runs {h e : Nat} {st : Word} {rest : List (Nat × Word)}
    (due : (s.queue q).completions = (h, st) :: rest) (hq : q < 256)
    (entry : (s.program (s.queue q).program).entryDone = some e) (installed : (s.queue q).installed = true)
    (stopped : (s.queue q).stopped = false) (run : (s.queue q).run = none) (handing : s.handing = false)
    (idle : s.curdIdle = true) :
    ∃ t, exec (.curdCompletionRun q) s = .next t ∧ t.turn = .curd q ∧ (t.queue q).completions = rest ∧
      (t.queue q).run = some { index := e, completion := true } ∧
      (t.queue q).reg 14#4 = BitVec.ofNat 64 h ∧ (t.queue q).reg 15#4 = st.setWidth 64 := by
  have runs : exec (.curdCompletionRun q) s = .next { ((s.setW q 14 (BitVec.ofNat 64 h)).setW q 15
      (st.setWidth 64)).updQueue q fun y =>
        { y with completions := rest, run := some { index := e, completion := true } } with turn := .curd q } := by
    change execCurdCompletionRun q s = _
    simp only [execCurdCompletionRun, due, entry]
    exact if_pos ⟨installed, by simp [stopped], by simp [run], by simp [handing], idle⟩
  refine ⟨_, runs, rfl, ?_⟩
  rw [queue_updQueue_turn hq, queue_setW hq, queue_setW hq]
  refine ⟨rfl, rfl, ?_, ?_⟩
  · simp [Queue.reg]
  · simp [Queue.reg]
/-- A parked run whose condition holds goes on with the next operation, while no hand-over is in progress. -/
theorem curdResume_goes {r : CurdRun} (hr : (s.queue q).run = some r) (none_ : (s.queue q).errWait = [])
    (wakes : s.curdWake q r = { curdWent s q r (r.index + 1) with turn := .curd q }) :
    exec (.curdResume q) s = .next { curdWent s q r (r.index + 1) with turn := .curd q } := by
  change execCurdResume q s = _
  simp only [execCurdResume, none_, List.foldl_nil, hr, wakes]

end

/-- Settles O31. -/
theorem curdRuns : Obligations.CurdRuns := by
  refine ⟨fun s q s1 bs take next idle read => execCurdPacket_takes take next idle read,
    fun s q h st rest e due hq entry installed stopped run handing idle =>
      execCurdCompletionRun_runs due hq entry installed stopped run handing idle,
    fun s q r hr waits handing => ⟨fun n v park due => ?_, fun v park due => ?_, fun h park due => ?_⟩⟩
  all_goals
    refine curdResume_goes hr waits ?_
    simp only [State.curdWake, park, due, handing, if_true, Bool.false_eq_true, if_false]
    rfl

end Sys2Proof.Proofs

/-! PROOF. 15 R390, R391: a transmit stream's instants and the messages of a card while its objects are written. -/

namespace Sys2Proof.Proofs

open Sys2Proof Sys2Proof.Machine Sys2Proof.Safety Sys2Proof.Laws

theorem streams_of_outer {s t : State} (h : outerOf s = outerOf t) : s.streams = t.streams :=
  congrArg Outer.streams h
theorem outbox_of_outer {s t : State} (h : outerOf s = outerOf t) : s.outbox = t.outbox :=
  congrArg Outer.outbox h
theorem stream_of_outer {s t : State} (h : outerOf s = outerOf t) (tx : Bool) (n : Nat) :
    s.stream? tx n = t.stream? tx n := by
  rw [State.stream?, State.stream?, streams_of_outer h]

section
variable {s : State} {x y : Stream} {tx : Bool} {n : Nat}

/-- A stream found is the one looked for. -/
theorem key_of_stream (h : s.stream? tx n = some x) : x.transmit = tx ∧ x.num = n := by
  simpa using List.find?_some h
/-- A stream that is set is found in the place of the one before it. -/
theorem stream_setStream (h : s.stream? tx n = some x) (ht : y.transmit = tx) (hn : y.num = n) :
    (s.setStream y).stream? tx n = some y := by
  subst ht hn
  obtain ⟨htx, hnum⟩ := key_of_stream h
  have same : ((fun z : Stream => z.transmit == y.transmit && z.num == y.num) ∘
      fun z => if z.transmit == y.transmit && z.num == y.num then y else z) =
        fun z => z.transmit == y.transmit && z.num == y.num := by
    funext z
    simp only [Function.comp_apply]
    split_ifs with key
    · rw [key]; simp
    · rfl
  have found : s.streams.find? (fun z => z.transmit == y.transmit && z.num == y.num) = some x := h
  rw [State.stream?, State.setStream, List.find?_map, same, found]
  simp [htx, hnum]

/-! ## Objects of a stream written (R389, R452) -/

/-- The write of an object leaves its stream as it is but for the instants reported. -/
theorem stream_objWrite (h : s.stream? true n = some x) (k : Nat) (p : DWord) (bs : List Byte) :
    ∃ rs, (s.objWrite n k p bs).stream? true n = some { x with reported := rs } := by
  obtain ⟨ht, hn⟩ := key_of_stream h
  unfold State.objWrite
  rw [h]
  dsimp only
  split
  next written => exact ⟨_, (stream_of_outer (outerOf_devWrite written) ..).trans h⟩
  · split_ifs
    · exact ⟨_, h⟩
    · have set_ := stream_setStream (y := { x with reported := k :: x.reported }) h ht hn
      exact ⟨_, (stream_of_outer (outerOf_writeRecord ..) ..).trans set_⟩
theorem outbox_objWrite (s : State) (n k : Nat) (p : DWord) (bs : List Byte) :
    (s.objWrite n k p bs).outbox = s.outbox := by
  unfold State.objWrite
  split
  · rfl
  · split
    next written => exact outbox_of_outer (outerOf_devWrite written)
    · split_ifs
      · rfl
      · refine (outbox_of_outer (outerOf_writeRecord ..)).trans ?_
        rfl
theorem outbox_finishSend (s : State) (n : Nat) (x : Stream) (t : TxSend) : (s.finishSend n x t).outbox = s.outbox := by
  have three (j : Nat) : (((s.objWrite n t.instant (ptrAdd (x.objAt j) 16) (toLe 8 (nsToT64 t.first).toNat)).objWrite
      n t.instant (ptrAdd (x.objAt j) 24) (toLe 4 x.height)).objWrite n t.instant (x.objAt j) (toLe 4 6)).outbox =
        s.outbox := by
    simp only [outbox_objWrite]
  have last (u : State) (j : Nat) : (match u.stream? true n with
      | some y => u.setStream { y with lastSent := some j }
      | none => u).outbox = u.outbox := by
    split <;> rfl
  unfold State.finishSend
  split
  · rfl
  · refine (last _ _).trans ?_
    split
    · split_ifs
      · exact three _
      · exact (outbox_objWrite ..).trans (three _)
    · exact three _

/-! ## The choice of an instant (R390) -/

/-- A transmit stream's instant is chosen, with its time. -/
def Chosen (s : State) (n k ik : Nat) : Prop :=
  ∃ y, s.stream? true n = some y ∧ y.instant = some k ∧ y.instantNs = some ik ∧ y.lastIk = some ik

variable {k ik : Nat}

theorem chosen_objWrite (h : Chosen s n k ik) (m : Nat) (p : DWord) (bs : List Byte) :
    Chosen (s.objWrite n m p bs) n k ik := by
  obtain ⟨y, found, chosen⟩ := h
  obtain ⟨rs, left⟩ := stream_objWrite found m p bs
  exact ⟨_, left, chosen⟩
theorem chosen_setStream (h : s.stream? true n = some x) (ht : y.transmit = true) (hn : y.num = n)
    (chosen : y.instant = some k ∧ y.instantNs = some ik ∧ y.lastIk = some ik) : Chosen (s.setStream y) n k ik :=
  ⟨y, stream_setStream h ht hn, chosen⟩

end

/-- No earlier choice reaches a time that is later than every one (R390). -/
theorem not_any_of_later {last : Option Nat} {ik : Nat} (later : ∀ t, last = some t → t < ik) :
    ¬ (last.any fun t => decide (ik ≤ t)) = true := by
  cases last with
  | none => simp
  | some t => simpa using later t rfl
/-- A transmit stream's next instant is chosen when it is due and its rope has decided it. -/
theorem execTransmitChoice_chooses {n k : Nat} {s : State} {x : Stream} (h : s.stream? true n = some x)
    (due : instantAt (s.cadence x).1 (s.cadence x).2 (s.timeNs + 2000) = some k)
    (later : ∀ t, x.lastIk = some t → t < instantOf (s.cadence x).1 (s.cadence x).2 k)
    (decided : x.rope < 4 → ((s.rope x.rope).presents k).isSome = true) :
    ∃ t, exec (.transmitChoice n) s = .next t ∧ Chosen t n k (instantOf (s.cadence x).1 (s.cadence x).2 k) := by
  obtain ⟨ht, hn⟩ := key_of_stream h
  refine ⟨_, rfl, ?_⟩
  rw [h]
  dsimp only
  generalize s.cadence x = rate at due later
  obtain ⟨num, den⟩ := rate
  dsimp only at due later ⊢
  rw [due]
  dsimp only
  generalize instantOf num den k = ik at later
  rw [if_neg (not_any_of_later later)]
  split
  next undecided =>
    split_ifs at undecided with roped
    have := decided roped
    rw [State.rope, undecided] at this
    cases this
  · generalize (List.filterMap _ _ : List (Nat × Nat × Nat)) = objs
    have first (m : Nat) : Chosen (s.setStream { x with
        instant := some k, instantNs := some ik, lastIk := some ik, departed := none, missed := m }) n k ik :=
      chosen_setStream h ht hn ⟨rfl, rfl, rfl⟩
    have missed : Chosen _ n k ik := List.foldlRecOn (motive := fun t => Chosen t n k ik)
      (objs.filter fun o => o.2.1 == 4 && decide (o.2.2 < ik)) _
      (first (x.missed + (objs.filter fun o => o.2.1 == 4 && decide (o.2.2 < ik)).length))
      fun t ok o _ => chosen_objWrite ok k (x.objAt o.1) (toLe 4 7)
    obtain ⟨y, found, chosen⟩ := missed
    obtain ⟨hyt, hyn⟩ := key_of_stream found
    rw [found]
    split
    next found2 _ =>
      cases found2
      refine chosen_objWrite ?_ ..
      exact chosen_setStream found hyt hyn chosen
    next found2 _ _ => cases found2; exact chosen_setStream found hyt hyn chosen
    next found2 _ => cases found2

/-- The oldest frame that may leave sends its next packet on every path (R391). -/
theorem execTransmitPacket_sends {n : Nat} {s : State} {x : Stream} {hs ts : List TxSend} {h : TxSend}
    (hx : s.stream? true n = some x) (sends : x.sends = hs ++ h :: ts)
    (early : ∀ e ∈ hs, e.sent = 0 ∧ s.timeNs < e.ik + x.offsetNs) (ready : h.sent ≠ 0 ∨ h.ik + x.offsetNs ≤ s.timeNs) :
    ∃ t, exec (.transmitPacket n) s = .next t ∧ t.outbox = s.outbox ++ x.copies (s.nextPacket n x h) := by
  have first : x.sends.find? (x.ready s.timeNs) = some h := by
    have none_ : hs.find? (x.ready s.timeNs) = none := List.find?_eq_none.2 fun e he => by
      obtain ⟨zero, soon⟩ := early e he
      simp [Stream.ready, zero, soon]
    rw [sends, List.find?_append, none_, Option.none_or, List.find?_cons_of_pos]
    exact decide_eq_true ready
  refine ⟨_, rfl, ?_⟩
  rw [hx]
  dsimp only
  rw [first]
  dsimp only
  exact iteInduction (motive := fun u => State.outbox u = s.outbox ++ x.copies (s.nextPacket n x h))
    (fun _ => outbox_finishSend ..) fun _ => rfl

end Sys2Proof.Proofs

/-! PROOF. 12 R332, 15 R379 to R391: the events of the PTP clock and of the streams. -/

namespace Sys2Proof.Proofs

open Sys2Proof Sys2Proof.Machine Sys2Proof.Safety Sys2Proof.Laws

/-- The clock's offset keeps 32 bits (R379). -/
theorem clamp_eq (off : Int) : max (-2147483648) (min 2147483647 off) =
    if off < -2147483648 then -2147483648 else if 2147483647 < off then 2147483647 else off := by
  omega

/-- Settles O33. -/
theorem timeAndStreamEvents : Obligations.TimeAndStreamEvents := by
  refine ⟨fun p v s live => ?_, fun off s => ?_, fun sub p s ok => ?_, fun n s x h => ?_,
    fun n s x k h due => fun later decided => ?_, fun n s x hs h ts hx sends early ready => ?_⟩
  · intro now
    refine (hostWrite_live live fun s1 => s1.ptpStep v).trans (congrArg Host.Outcome.next ?_)
    cases p <;> rfl
  · have near : off.natAbs ≤ 250 ↔ -250 ≤ off ∧ off ≤ 250 := by omega
    change execPtpSync off s = _
    rw [execPtpSync, clamp_eq]
    simp only [near]
  · exact congrArg Host.Outcome.next (if_neg (not_not.2 ok))
  · change execFrameSettleTimeout n s = _
    rw [execFrameSettleTimeout, h]
  · obtain ⟨t, next, y, chosen⟩ := execTransmitChoice_chooses h due later decided
    exact ⟨t, y, next, chosen⟩
  · exact execTransmitPacket_sends hx sends early ready

end Sys2Proof.Proofs

/-! PROOF. 16 R407 to R411: an entry's own contribution is sent, and its result is written. -/

namespace Sys2Proof.Proofs

open Sys2Proof Sys2Proof.Machine Sys2Proof.Safety Sys2Proof.Laws

theorem colls_of_outer {s t : State} (h : outerOf s = outerOf t) : s.colls = t.colls :=
  congrArg Outer.colls h

section
variable {s : State} {e : Nat} {x : CollEntry}

/-- An entry found is the one looked for. -/
theorem id_of_coll (h : s.coll e = some x) : x.id = e := by
  simpa using List.find?_some h
/-- An entry that is updated in its table keeps its place. -/
theorem coll_map {cs : List CollEntry} (h : cs.find? (·.id == e) = some x) (f : CollEntry → CollEntry)
    (hf : ∀ y, (f y).id = y.id) : (cs.map fun y => if y.id = e then f y else y).find? (·.id == e) = some (f x) := by
  have same : ((fun y : CollEntry => y.id == e) ∘ fun y => if y.id = e then f y else y) = fun y => y.id == e := by
    funext y
    simp only [Function.comp_apply]
    split_ifs
    · rw [hf]
    · rfl
  have id : x.id = e := by simpa using List.find?_some h
  rw [List.find?_map, same, h, Option.map_some, if_pos id]

end

/-- A member of an entry that is not heard keeps the entry from being ready (R408). -/
theorem not_ready {x : CollEntry} {card : Nat}
    (waits : ∃ k ∈ x.members, k ≠ card ∧ (x.heard.any fun h => h.1 == k) = false) :
    (x.members.all fun k => k == card || x.heard.any fun h => h.1 == k) = false := by
  obtain ⟨k, member, other, silent⟩ := waits
  refine List.all_eq_false.2 ⟨k, member, ?_⟩
  simp [other, silent]
/-- An entry whose other members are all heard is ready (R408). -/
theorem ready_of_heard {x : CollEntry} {card : Nat}
    (heard : ∀ k ∈ x.members, k = card ∨ (x.heard.any fun h => h.1 == k) = true) :
    (x.members.all fun k => k == card || x.heard.any fun h => h.1 == k) = true := by
  refine List.all_eq_true.2 fun k member => ?_
  rcases heard k member with own | other
  · simp [own]
  · rw [other, Bool.or_true]

@[simp] theorem outerOf_engPast (s : State) (id : Nat) : outerOf (s.engPast id) = outerOf s := by
  unfold State.engPast
  split_ifs <;> rfl

/-- The state in which a card's own contribution to an entry is sent (R407). -/
def collSent (s : State) (card : Nat) (x : CollEntry) (mine : List Byte) : State :=
  { s.engPast x.id with
    colls := (s.engPast x.id).colls.map fun y => if y.id = x.id then { y with mine := some mine } else y
    outbox := (s.engPast x.id).outbox ++
      [.collData (x.members.filter fun k => k != card) x.epoch (dwAt x.fields 16) mine] }

section
variable {s : State} {e : Nat} {x : CollEntry} {mine : List Byte}

theorem sendLocal_of_read {s1 : State} (free : s.engFree x.id = true) (clean : (s.eng x.id).failed = none)
    (going : x.ending = none) (first : x.mine = none) (from_ : tilePtrErr x.local_ = none)
    (to_ : tilePtrErr x.result = none) (read : s.engRead (s.crew x.cid).wid x.local_ x.bytes = .ok s1 mine) :
    s.sendLocal x = collSent s1 s.cardId x mine := by
  have sends : ¬ (x.mine.isSome = true ∨ x.ending.isSome = true ∨ ¬ s.engFree x.id = true) := by
    simp [first, going, free]
  unfold State.sendLocal
  dsimp only
  rw [if_neg sends, clean, from_, to_]
  dsimp only [HOrElse.hOrElse, OrElse.orElse, Option.orElse]
  rw [read]
  simp only [collSent, beq_iff_eq]
theorem sendLocal_of_sent (sent : x.mine = some mine) : s.sendLocal x = s := by
  unfold State.sendLocal
  exact if_pos (.inl (by rw [sent]; rfl))

/-- An entry whose contribution is sent waits for the members that it has not heard (R407). -/
theorem execCollEntryCompletion_sends {s1 : State} (h : s.coll e = some x) (free : s.engFree e = true)
    (clean : (s.eng e).failed = none) (going : x.ending = none) (first : x.mine = none)
    (from_ : tilePtrErr x.local_ = none) (to_ : tilePtrErr x.result = none)
    (read : s.engRead (s.crew x.cid).wid x.local_ x.bytes = .ok s1 mine)
    (waits : ∃ k ∈ x.members, k ≠ s.cardId ∧ (x.heard.any fun h => h.1 == k) = false) :
    exec (.collEntryCompletion e) s = .next (collSent s1 s.cardId x mine) := by
  have id := id_of_coll h
  have same : outerOf s1 = outerOf s := by
    have left := engRead_leaves (s := s) rfl (s.crew x.cid).wid x.local_ x.bytes
    rwa [read] at left
  have past : outerOf (s1.engPast x.id) = outerOf s := (outerOf_engPast ..).trans same
  have card : (collSent s1 s.cardId x mine).cardId = s.cardId := congrArg (fun w => w.settings.cardId) past
  have found : (collSent s1 s.cardId x mine).coll e = some { x with mine := some mine } := by
    have there : (s1.engPast x.id).colls.find? (·.id == e) = some x := by rw [colls_of_outer past]; exact h
    have := coll_map there (fun y => { y with mine := some mine }) fun _ => rfl
    rwa [← id] at this ⊢
  have sent := sendLocal_of_read (id ▸ free) (id ▸ clean) going first from_ to_ read
  refine congrArg Host.Outcome.next ?_
  rw [h]
  dsimp only
  rw [sent, found]
  dsimp only
  split
  · rfl
  · rw [card, if_neg (by simp [going])]
    have notAll := not_ready waits
    split
    next ready => exact absurd (ready.symm.trans notAll) (by decide)
    · rfl
/-- An entry that has heard every member writes its result and ends (R408). -/
theorem execCollEntryCompletion_ends {s2 : State} {bs : List Byte} (h : s.coll e = some x) (free : s.engFree e = true)
    (clean : (s.eng e).failed = none) (going : x.ending = none)
    (heard : ∀ k ∈ x.members, k = s.cardId ∨ (x.heard.any fun h => h.1 == k) = true) (sent : x.mine = some mine)
    (written : writePieces (s.crew x.cid).wid x.result (x.results ((s.cardId, mine) :: x.heard)) s = .ok s2 bs) :
    exec (.collEntryCompletion e) s = .next ((s2.engPast e).endEntry x 0 0) := by
  refine congrArg Host.Outcome.next ?_
  rw [h]
  dsimp only
  rw [sendLocal_of_sent sent, h]
  dsimp only
  rw [if_neg (not_not.2 free), if_neg (by simp [going]), sent, ready_of_heard heard]
  dsimp only
  rw [clean, written]

end

end Sys2Proof.Proofs

/-! PROOF. 16 R400 to R412: the events of collectives and links. -/

namespace Sys2Proof.Proofs

open Sys2Proof Sys2Proof.Machine Sys2Proof.Safety Sys2Proof.Laws

/-! ## A link processor that stops (R404) -/

/-- An entry in progress ends as its link processor stops. -/
def endStopped (cause : Byte) (s : State) (e : CollEntry) : State :=
  if e.ending.isSome then s else (s.engQuit e.id).endEntry e 3 cause
/-- The entries that are not over are among those still to be ended. -/
def OverBut (cs rest : List CollEntry) : Prop :=
  ∀ x ∈ cs, x.ending.isSome = true ∨ ∃ e ∈ rest, e.ending.isSome = false ∧ e.id = x.id

theorem overBut_self (cs : List CollEntry) : OverBut cs cs := by
  intro x hx
  cases ended : x.ending.isSome with
  | true => exact .inl rfl
  | false => exact .inr ⟨x, hx, ended, rfl⟩
theorem endStopped_over (cause : Byte) {s : State} {e : CollEntry} {rest : List CollEntry}
    (h : OverBut s.colls (e :: rest)) :
    OverBut (endStopped cause s e).colls rest ∧ (endStopped cause s e).linkStopped = s.linkStopped := by
  unfold endStopped
  split_ifs with ended
  · refine ⟨fun x hx => ?_, rfl⟩
    rcases h x hx with done_ | ⟨y, hy, going, id⟩
    · exact .inl done_
    · rcases List.mem_cons.1 hy with rfl | hy
      · rw [ended] at going; cases going
      · exact .inr ⟨y, hy, going, id⟩
  · obtain ⟨cs, left, ended⟩ := endEntry_leaves (s.engQuit e.id) e 3 cause
    have colls : ((s.engQuit e.id).endEntry e 3 cause).colls = cs := congrArg Outer.colls left
    refine ⟨fun x hx => ?_, congrArg Outer.linkStopped left⟩
    rw [colls] at hx
    rcases ended x hx with done_ | ⟨hx, other⟩
    · exact .inl done_
    · rcases h x hx with done_ | ⟨y, hy, going, id⟩
      · exact .inl done_
      · rcases List.mem_cons.1 hy with rfl | hy
        · exact absurd id.symm other
        · exact .inr ⟨y, hy, going, id⟩
theorem endStopped_fold (cause : Byte) (rest : List CollEntry) {s : State} (h : OverBut s.colls rest) :
    OverBut (rest.foldl (endStopped cause) s).colls [] ∧
      (rest.foldl (endStopped cause) s).linkStopped = s.linkStopped := by
  induction rest generalizing s with
  | nil => exact ⟨h, rfl⟩
  | cons e rest ih =>
    obtain ⟨left, kept⟩ := endStopped_over cause h
    obtain ⟨all, stopped⟩ := ih left
    exact ⟨all, stopped.trans kept⟩
theorem execLinkProcessorStop_ends {n : Nat} (hn : n < 4) (s : State) :
    ∃ t, exec (.linkProcessorStop n) s = .next t ∧ t.linkStopped[n]? = some true ∧
      ∀ x ∈ t.colls, x.ending.isSome = true := by
  obtain ⟨all, stopped⟩ := endStopped_fold (anyCause (Config.freeByte 5 s.freeCtr)) s.colls
    (s := { s with linkStopped := s.linkStopped.setIfInBounds n true, freeCtr := s.freeCtr + 1 }) (overBut_self _)
  refine ⟨_, rfl, ?_, fun x hx => ?_⟩
  · refine (congrArg (fun w : Outer => w.linkStopped[n]?) (outerOf_writeRecord ..)).trans ?_
    refine (congrArg (fun v : Vector Bool 4 => v[n]?) stopped).trans ?_
    simp [hn]
  · rw [colls_of_outer (outerOf_writeRecord ..)] at hx
    rcases all x hx with ended | ⟨e, he, _⟩
    · exact ended
    · cases he

/-! ## Links (R400, R401) -/

theorem lanes_eq (lanes : BitVec 4) :
    (if lanes.ult 9#4 then lanes else 8#4) = if lanes.toNat ≤ 8 then lanes else 8 := by
  have below : lanes.ult 9#4 = true ↔ lanes.toNat ≤ 8 := by
    simp only [BitVec.ult, decide_eq_true_eq, BitVec.toNat_ofNat]
    omega
  simp only [below]
  rfl
theorem retries_eq (n : Byte) : (if n = 0xff#8 then n else n + 1) = BitVec.ofNat 8 (min 255 (n.toNat + 1)) := by
  split_ifs with full
  · rw [full]; rfl
  · have small : n.toNat + 1 ≤ 255 := by
      have := n.isLt
      have : n.toNat ≠ 255 := fun h => full (BitVec.eq_of_toNat_eq h)
      omega
    rw [min_eq_right small, BitVec.ofNat_add, BitVec.ofNat_toNat, BitVec.setWidth_eq]
    rfl

/-- Settles O38. -/
theorem collectiveAndLinkEvents : Obligations.CollectiveAndLinkEvents := by
  refine ⟨fun e card data s x h other member first => ?_,
    fun e s x s1 mine h free clean going first from_ to_ read waits => ?_,
    fun e s x mine s2 bs h free clean going heard sent written =>
      execCollEntryCompletion_ends h free clean going heard sent written,
    fun card s => rfl, fun e card s x h lost going => ?_, fun n s hn => execLinkProcessorStop_ends hn s,
    fun n i s hn staged none_ => ?_, fun port up lanes s => ?_, fun port s => ?_, fun card addr a s none_ => ?_,
    fun card addr a s w admits inside => ?_⟩
  · change execCollMessage e card x.epoch data s = _
    have heeded : ¬ (x.epoch ≠ x.epoch ∨ card = s.cardId ∨ ¬ x.members.contains card = true ∨
        (x.heard.any fun h => h.1 == card) = true) := by
      rw [member, first]
      simp [other]
    rw [execCollMessage, h]
    dsimp only
    rw [if_neg heeded]
    simp only [beq_iff_eq]
  · have sends := execCollEntryCompletion_sends h free clean going first from_ to_ read waits
    cases id_of_coll h
    exact sends
  · change execPartnerLost e card s = _
    rw [execPartnerLost, h]
    exact congrArg Host.Outcome.next (if_pos ⟨lost, by rw [going]; rfl⟩)
  · change execLinkProcessorImageStart n s = _
    rw [execLinkProcessorImageStart, staged]
    exact congrArg Host.Outcome.next (if_pos (by rw [none_]; rfl))
  · change execLinkStateChange port up lanes s = _
    rw [execLinkStateChange, lanes_eq]
  · change execFlitRetry port s = _
    rw [execFlitRetry]
    simp only [retries_eq]
  · change execPeerInboundAccess card addr a s = _
    rw [execPeerInboundAccess, none_]
  · change execPeerInboundAccess card addr a s = _
    rw [execPeerInboundAccess, admits]
    exact congrArg Host.Outcome.next (if_neg (Nat.not_lt.2 inside))

end Sys2Proof.Proofs
